-- ==== Sys2Proof/Word.lean ====
section
/-! DEFINITION. The word types of the block: a byte, a register word, an exact binary fraction. -/
namespace Sys2Proof

/-- A byte as memories hold it (R11). -/
abbrev Byte := BitVec 8

/-- A 64-bit register or bus word (R565). -/
abbrev Word := BitVec 64

/-- A table keyed by number, keys strictly rising: sparse banks of like things. -/
abbrev Tbl (α : Type) := List (Nat × α)

/-- The exact number `m · 2^e`. -/
structure Dyadic where
  m : Int
  e : Int
  deriving DecidableEq, Repr

end Sys2Proof
end

