-- ==== Sys2Proof/Types.lean ====
section
/-! DEFINITION. The data types that commands, messages and the state share: statuses, parts, the common
command fields, completions and event records. -/
namespace Sys2Proof

/-- The members of the family (R2). -/
inductive Part where
  | rb4816 | rb4812 | rb4808
  deriving DecidableEq, Repr

/-- The status codes of R59. -/
inductive Status where
  | ok | unitAbsent | noCapacity | budgetExhausted | tierFault | contextTorn | staleRole | preempted
  | cancelled | badHandle | protection | busyMaint | abandoned | tablePaused | truncated
  | versionMismatch | linkDown | digestMismatch | warmFallback | windowMiss
  deriving DecidableEq, Repr

/-- The code of a status (R59). -/
def Status.code : Status → Nat
  | .ok => 0x00 | .unitAbsent => 0x01 | .noCapacity => 0x02 | .budgetExhausted => 0x03
  | .tierFault => 0x04 | .contextTorn => 0x05 | .staleRole => 0x06 | .preempted => 0x07
  | .cancelled => 0x08 | .badHandle => 0x09 | .protection => 0x0A | .busyMaint => 0x0B
  | .abandoned => 0x0C | .tablePaused => 0x0D | .truncated => 0x0E | .versionMismatch => 0x0F
  | .linkDown => 0x10 | .digestMismatch => 0x11 | .warmFallback => 0x12 | .windowMiss => 0x13

/-- The common fields of a submission entry (R35) with the ring pair it was read from. -/
structure Sub where
  ring : Nat
  tag : Nat
  nowait : Bool
  noRerun : Bool
  context : Nat
  handle : Nat
  deriving DecidableEq, Repr

/-- A completion entry (R35): the verb results are the result fields in byte order. -/
structure Completion where
  ring : Nat
  tag : Nat
  status : Status
  detail : Nat
  time : Nat
  phase : Bool
  results : List Nat
  deriving DecidableEq, Repr

/-- An event record (R507). -/
structure EventRec where
  code : Nat
  cls : Nat
  summary : Bool
  spilled : Bool
  count : Nat
  first : Nat
  last : Nat
  source : Nat
  epoch : Nat
  payload : List Nat
  deriving DecidableEq, Repr

/-- The rings of host memory a command can name: a ring pair, an output ring, the event ring. -/
inductive RingId where
  | pair (r : Nat)
  | out (o : Nat)
  | evt
  deriving DecidableEq, Repr

/-- A write of the host to BAR0: offset, 4 or 8 bytes, value. -/
structure RegWrite where
  off : Nat
  size : Nat
  value : Nat
  deriving DecidableEq, Repr

end Sys2Proof

namespace Sys2Proof

/-- The session states of R92. -/
inductive SesState where
  | free | admitting | prefilling | active | parked | resuming | dormant | retiring | shadow
  deriving DecidableEq, Repr

/-- The value of a session state (R92). -/
def SesState.code : SesState → Nat
  | .free => 0 | .admitting => 1 | .prefilling => 2 | .active => 3 | .parked => 4
  | .resuming => 5 | .dormant => 6 | .retiring => 7 | .shadow => 8

/-- The chunk kinds of R113. -/
inductive ChunkKind where
  | opened | text | parked | resumed | promoted | end_
  deriving DecidableEq, Repr

/-- A stream chunk (R113): `bytes` are the UTF-8 bytes of TEXT, `payload` the fields of the other kinds. -/
structure Chunk where
  kind : ChunkKind
  replay : Bool
  more : Bool
  part : Nat
  firstIndex : Nat
  handle : Nat
  time : Nat
  phase : Bool
  bytes : List Nat
  payload : List Nat
  deriving DecidableEq, Repr

/-- An entry of a step descriptor (R253). -/
structure DescEntry where
  handle : Nat
  step : Nat
  homeEpoch : Nat
  deriving DecidableEq, Repr

/-- A step descriptor (R253). `reserved` is the OR of every bit the format reserves, `count` the count
field, which need not agree with the entries that follow. -/
structure StepDesc where
  noRerun : Bool
  block : Bool
  epoch : Nat
  src : Nat
  home : Nat
  stepRef : Nat
  cls : Nat
  first : Nat
  last : Nat
  context : Nat
  count : Nat
  tokens : Nat
  reserved : Nat
  entries : List DescEntry
  deriving DecidableEq, Repr

/-- An entry of the other step messages (R270); `step` and `token` follow it in a seal record. -/
structure StepEntry where
  index : Nat
  status : Status
  detail : Nat
  homeEpoch : Nat
  step : Nat
  token : Nat
  deriving DecidableEq, Repr

/-- The 32-byte step message of R270. -/
structure StepMsg where
  mirror : Bool
  resubmit : Bool
  hasNext : Bool
  epoch : Nat
  src : Nat
  stepRef : Nat
  attempt : Nat
  next : Nat
  entries : List StepEntry
  deriving DecidableEq, Repr

end Sys2Proof

namespace Sys2Proof

/-- An ATN_QKV message (R163, R164): `rsv` is the OR of its reserved bits, `length` its bytes, `elems` the
payload's 16-bit elements in order. -/
structure AtnQkv where
  block : Bool
  ssm : Bool
  attn : Bool
  rsv : Nat
  epoch : Nat
  src : Nat
  layer : Nat
  kvFirst : Nat
  kvCount : Nat
  gFirst : Nat
  gCount : Nat
  tokensM1 : Nat
  stepRef : Nat
  handle : Nat
  step : Nat
  pos : Nat
  attempt : Nat
  length : Nat
  elems : List Nat
  deriving DecidableEq, Repr

/-- An ATN_OUT message (R165): the fields as received come from `q`; `payload` holds the elements in out_fmt. -/
structure AtnOut where
  q : AtnQkv
  bf16 : Bool
  poison : Bool
  inexact : Bool
  status : Status
  detail : Nat
  inexactMask : Nat
  poisonMask : Nat
  ssmPoison : Nat
  residency : Nat
  payload : List Nat
  deriving DecidableEq, Repr

/-- A crate of a DLG_BLOCK payload (R246): visible slots, index, K and V bytes of one head. -/
structure DlgCrate where
  visible : Nat
  index : Nat
  k : List Nat
  v : List Nat
  deriving DecidableEq, Repr

/-- A DLG_BLOCK message (R246); `rsv` is the OR of its reserved bits, `q` the Q′ rows in binary32. -/
structure DlgBlock where
  bf16Out : Bool
  partial_ : Bool
  lastPart : Bool
  rsv : Nat
  epoch : Nat
  src : Nat
  shape : Nat
  cls : Nat
  positions : Nat
  qCount : Nat
  chunk : Nat
  part : Nat
  pos : Nat
  lambda : Nat
  request : Nat
  handle : Nat
  q : List Nat
  crates : List DlgCrate
  deriving DecidableEq, Repr

/-- A DLG_OUT message (R247): payload bytes. -/
structure DlgOut where
  status : Status
  detail : Nat
  epoch : Nat
  request : Nat
  handle : Nat
  payload : List Nat
  deriving DecidableEq, Repr

/-! ### Sessions on the wire -/

/-- The sampler parameters of R359, with the automaton word (R364). -/
structure Sampler where
  temp : Nat := 4096
  topK : Nat := 0
  topP : Nat := 0
  minP : Nat := 0
  repPen : Nat := 4096
  repWindow : Nat := 0
  noSpecial : Bool := false
  autoId : Nat := 0
  autoState : Nat := 0
  deriving DecidableEq, Repr

/-- The latency field of R308, and the running measurement (R306, R307). -/
structure Latency where
  ttftNs : Nat := 0
  ttftOpen : Bool := false
  tracked : Option Nat := none
  outside : Bool := false
  tbtMaxNs : Nat := 0
  resMaxNs : Nat := 0
  deriving DecidableEq, Repr

/-- A headroom reservation (R295), in pages. -/
structure Headroom where
  crate : Nat := 0
  slab : Nat := 0
  deriving DecidableEq, Repr

/-- The fields of a session descriptor (R95) as MIRROR_OPEN and trunks carry it. -/
structure SessDesc where
  handle : Nat
  state : SesState
  cls : Nat
  fullAttn : Bool
  bx16 : Bool
  cancelPending : Bool
  fixed : Bool
  posted : Bool
  fault : Status
  customer : Nat
  partition : Nat
  outRing : Nat
  step : Nat
  length : Nat
  maxTokens : Nat
  pendingToken : Nat
  seed : Nat
  parkToken : Option Nat
  endToken : Option Nat
  homeDev : Nat
  homeEpoch : Nat
  mirrorDev : Nat
  mirrorEpoch : Nat
  mirrorAcked : Nat
  shadowOf : SesState
  holdBytes : List Nat
  cmdTag : Nat
  cmdRing : Nat
  cmdOp : Nat
  resumeCount : Nat
  prefixRef : Nat
  tOpen : Nat
  tStart : Nat
  tLast : Nat
  tTouch : Nat
  sampler : Sampler
  latency : Latency
  deriving DecidableEq, Repr

/-- The arguments of SES_OPEN and SES_RESUME (R118) with what the addresses hold: `data` the input, `params` the
block at params_addr where that is not 0. `rsv` is the OR of every other reserved bit of the entry. -/
structure OpenArgs where
  inLen : Nat
  data : List Nat
  cls : Nat
  flags : Nat
  outRing : Nat
  customer : Nat
  maxTokens : Nat
  seed : Nat
  park : Nat
  end_ : Nat
  params : Option (List Nat)
  rsv : Nat
  deriving DecidableEq, Repr

/-- A command that names a session and can wait behind another (R39) or for a fetch (R100). -/
inductive SessVerb where
  | open_ (sub : Sub) (a : OpenArgs)
  | resume (sub : Sub) (a : OpenArgs)
  | query (sub : Sub)
  | insert (sub : Sub) (maxChunks flags rsv : Nat)
  | cancel (sub : Sub)
  | remove (sub : Sub) (nodeRef flags rsv : Nat)
  deriving DecidableEq, Repr

/-- The entry a session verb came in. -/
def SessVerb.sub : SessVerb → Sub
  | .open_ s _ => s
  | .resume s _ => s
  | .query s => s
  | .insert s _ _ _ => s
  | .cancel s => s
  | .remove s _ _ _ => s

/-! ### Mirror messages (R483 to R486) -/

/-- The mirror message header (R483); the message type is that of the body. -/
structure MirrorHdr where
  layers : Bool
  sync : Bool
  last : Bool
  epoch : Nat
  src : Nat
  aux : Nat
  handle : Nat
  step : Nat
  seq : Nat
  attempt : Nat
  first : Nat
  lastLayer : Nat
  status : Status
  ref : Nat
  deriving DecidableEq, Repr

/-- A crate entry of a prepare copy (R486): `bytes` are the groups of its slots, K then V. -/
structure PrepCrate where
  index : Nat
  first : Nat
  count : Nat
  fresh : Bool
  bytes : List Nat
  deriving DecidableEq, Repr

/-- A layer record of a prepare copy (R486). `ssmIn` holds x, B and delta of each token as received. -/
structure PrepLayer where
  layer : Nat
  attn : Bool
  ssm : Bool
  sel : Bool
  tokens : Nat
  crates : List PrepCrate
  ssmIn : List (List Nat)
  selected : List (List Nat)
  deriving DecidableEq, Repr

/-- The session tail of the home's prepare copy (R486). -/
structure PrepTail where
  length : Nat
  maxTokens : Nat
  autoId : Nat
  autoState : Nat
  deriving DecidableEq, Repr

/-- A prepare copy (R486). -/
structure PrepCopy where
  layers : List PrepLayer
  tail : Option PrepTail
  deriving DecidableEq, Repr

/-- The payload of a mirror message, by type (R484). -/
inductive MirrorBody where
  | open_ (d : SessDesc) (tokens : List Nat)
  | state (tokens : List Nat)
  | note (token index : Nat) (hold : List Nat)
  | prep (c : PrepCopy)
  | ack
  | retire
  | sync (valid : Nat) (bytes : List Nat)
  | pull (count : Nat)
  | handover
  deriving DecidableEq, Repr

/-! ### Inventory messages (R344) -/

/-- INV_REQ. -/
structure InvReq where
  op : Nat
  epoch : Nat
  src : Nat
  context : Nat
  fmt : Nat
  pin : Bool
  all : Bool
  request : Nat
  value : Nat
  handle : Nat
  hash : Nat
  tokens : List Nat
  deriving DecidableEq, Repr

/-- INV_RSP. -/
structure InvRsp where
  op : Nat
  status : Status
  detail : Nat
  request : Nat
  value : Nat
  points : Option (List Nat)
  slabPoint : Bool
  handle : Nat
  deriving DecidableEq, Repr

/-! ### Token service messages -/

/-- LOGITS (R358): the values are bit patterns in the format of the message. -/
structure LogitsMsg where
  fmt : Nat
  epoch : Nat
  src : Nat
  stepRef : Nat
  attempt : Nat
  handle : Nat
  step : Nat
  first : Nat
  count : Nat
  values : List Nat
  deriving DecidableEq, Repr

/-- A row of EMB_ROWS (R369): the row head and the values of the slice, as bit patterns. -/
structure EmbSlice where
  token : Nat
  cold : Bool
  scale : Nat
  values : List Nat
  deriving DecidableEq, Repr

/-- EMB_ROWS (R369). -/
structure EmbRowsMsg where
  stored : Bool
  input : Bool
  final : Bool
  epoch : Nat
  src : Nat
  colFirst : Nat
  colCount : Nat
  handle : Nat
  forStep : Nat
  pos : Nat
  total : Nat
  rows : List EmbSlice
  deriving DecidableEq, Repr

/-! ### Trunks (R496 to R503) -/

/-- A shard of a trunk on one controller (R500), and for a restore the old and new handle of each session. -/
structure ShardRef where
  device : Nat
  first : Nat
  last : Nat
  home : Bool
  extent : Nat
  length : Nat
  digest : Nat
  deriving DecidableEq, Repr

/-- TRUNK_REQ: op 1 CUT, 2 ABORT, 3 RESTORE. `handles` names each session of a cut with the step count to cut at, `pairs`
are a restore's old and new handles. -/
structure TrunkReq where
  op : Nat
  epoch : Nat
  src : Nat
  request : Nat
  context : Nat
  serial : Nat
  store : Nat
  handles : List (Nat × Nat)
  shard : Option ShardRef
  pairs : List (Nat × Nat)
  deriving DecidableEq, Repr

/-- TRUNK_RSP: op 1 RESERVED, 3 RESTORED, 4 TAKEN, 5 DRAINED. -/
structure TrunkRsp where
  op : Nat
  src : Nat
  request : Nat
  status : Status
  detail : Nat
  handle : Nat
  extent : Nat
  length : Nat
  digest : Nat
  deriving DecidableEq, Repr

/-- The section of a session in a shard (R499): crates as (layer, index, copy), slabs as (layer, copy). -/
structure ShardSess where
  handle : Nat
  cutStep : Nat
  length : Nat
  desc : Option SessDesc
  crates : List (Nat × Nat × List Nat)
  slabs : List (Nat × List Nat)
  deriving DecidableEq, Repr

/-- A token log record (R501), and whether its CRC holds. -/
structure LogRecord where
  handle : Nat
  first : Nat
  tokens : List Nat
  next : Nat
  crcOk : Bool
  deriving DecidableEq, Repr

/-- A manifest as read back (R500): the store it lies in, shards, sessions with their cut step, the signature over
`digest` under the trunk key `key`. -/
structure Manifest where
  context : Nat
  serial : Nat
  shards : List ShardRef
  sessions : List (Nat × Nat)
  key : Nat
  digest : Nat
  r : Nat
  s : Nat
  deriving DecidableEq, Repr

/-! ### Vector search messages (R400) -/

/-- VSR_REQ. -/
structure VsrReq where
  filter : Bool
  epoch : Nat
  src : Nat
  context : Nat
  indexId : Nat
  shard : Nat
  k : Nat
  beam : Nat
  request : Nat
  maxVisits : Nat
  all : Nat
  any : Nat
  dim : Nat
  vec : List Nat
  deriving DecidableEq, Repr

/-- VSR_RSP: entries are (distance, label). -/
structure VsrRsp where
  status : Status
  detail : Nat
  flags : Nat
  shard : Nat
  request : Nat
  visited : Nat
  entries : List (Nat × Nat)
  deriving DecidableEq, Repr

/-! ### Remote memory messages (R454, R455) -/

/-- RM_WRITE 0x80, RM_WRITE_IMM 0x81, RM_READ 0x82, RM_READ_RSP 0x83, RM_SEND 0x84; `rsv` is the OR of reserved bits. -/
structure RmMsg where
  type : Nat
  retry : Bool
  epoch : Nat
  src : Nat
  pool : Nat
  conn : Nat
  id : Nat
  key : Nat
  imm : Nat
  offset : Nat
  length : Nat
  rsv : Nat
  data : List Nat
  deriving DecidableEq, Repr

/-- RM_ACK 0x85: kind 0 ACK, 1 NAK_SEQ, 2 NAK_STATUS, 3 RNR. -/
structure RmAck where
  kind : Nat
  status : Nat
  detail : Nat
  src : Nat
  conn : Nat
  id : Nat
  expected : Nat
  deriving DecidableEq, Repr

/-- The messages the controller sends and receives over links (R415). -/
inductive Msg where
  /-- STP_DESC 0x30 -/
  | stpDesc (d : StepDesc)
  /-- STP_PREPARED 0x31 -/
  | stpPrepared (m : StepMsg)
  /-- STP_SEAL 0x32 -/
  | stpSeal (m : StepMsg)
  /-- STP_SEAL_ACK 0x33 -/
  | stpSealAck (m : StepMsg)
  /-- STP_KILLED 0x34 -/
  | stpKilled (m : StepMsg)
  /-- STP_ABORT 0x35 -/
  | stpAbort (m : StepMsg)
  /-- STP_DONE 0x36 -/
  | stpDone (m : StepMsg)
  /-- SEM_REQ 0x38: verb opcode, then the fields of the submission entry -/
  | semReq (op : Nat) (sub : Sub) (sem cls : Nat)
  /-- SEM_RSP 0x39: the completion entry -/
  | semRsp (c : Completion)
  /-- ATN_OUT 0x22 -/
  | atnOut (m : AtnOut)
  /-- DLG_BLOCK 0x23 -/
  | dlgBlock (m : DlgBlock)
  /-- DLG_OUT 0x24 -/
  | dlgOut (m : DlgOut)
  /-- mirror messages 0x70 to 0x78 -/
  | mirror (h : MirrorHdr) (b : MirrorBody)
  /-- ROLE_CLAIM 0x7A: lost device, claimed epoch, layer range, (m, i) -/
  | roleClaim (lost epoch first last m i : Nat)
  /-- LOST_REPORT 0x79: lost device, link -/
  | lostReport (lost link : Nat)
  /-- TRUNK_REQ 0x7B -/
  | trunkReq (r : TrunkReq)
  /-- TRUNK_RSP 0x7C -/
  | trunkRsp (r : TrunkRsp)
  /-- VSR_REQ 0x60 -/
  | vsrReq (r : VsrReq)
  /-- VSR_RSP 0x61 -/
  | vsrRsp (r : VsrRsp)
  /-- INV_REQ 0x40 -/
  | invReq (r : InvReq)
  /-- INV_RSP 0x41 -/
  | invRsp (r : InvRsp)
  /-- EMB_ROWS 0x51 -/
  | embRows (r : EmbRowsMsg)
  /-- ATN_QKV 0x21 -/
  | atnQkv (q : AtnQkv)
  /-- LOGITS 0x50: `rsv` is the OR of its reserved bits -/
  | logits (m : LogitsMsg) (rsv : Nat)
  /-- RM_WRITE to RM_SEND, 0x80 to 0x84 -/
  | rm (m : RmMsg)
  /-- RM_ACK 0x85 -/
  | rmAck (a : RmAck)
  /-- a message of a type that version 1 does not define, with its length -/
  | undefined (type length : Nat)
  deriving DecidableEq, Repr

/-! ### Frames, flits and what Ethernet ports carry (chapter "Rammibor Link and egress scheduling") -/

/-- An entry of a TACK (R423). -/
structure TackEntry where
  txid : Nat
  status : Status
  detail : Nat
  deriving DecidableEq, Repr

/-- What a frame carries, by fkind. -/
inductive FrameBody where
  | msg (m : Msg)
  | tack (l : List TackEntry)
  deriving DecidableEq, Repr

/-- A frame (R414) as its bytes say once opened; `rsv` is the OR of the reserved header bits. Its seal (R432) stands as the key,
salt and frame counter it was made with, and `intact` says that no byte changed since. -/
structure Frame where
  dst : Nat
  src : Nat
  vc : Nat
  demoted : Bool
  phase : Bool
  retx : Bool
  startEpoch : Nat
  length : Nat
  txid : Nat
  body : FrameBody
  rsv : Nat := 0
  key : Nat := 0
  salt : Nat := 0
  counter : Nat := 0
  intact : Bool := true
  deriving DecidableEq, Repr

/-- A HELLO flit (R408). -/
structure Hello where
  verMin : Nat
  verMax : Nat
  kind : Nat
  device : Nat
  link : Nat
  crypto : Nat
  startEpoch : Nat
  credits : List Nat
  replay : Nat
  rank : Nat
  deriving DecidableEq, Repr

/-- A TSYNC flit (R434): t1 its transmission, t2 and t3 of the last one received and answered. -/
structure Tsync where
  t1 : Nat
  t2 : Nat
  t3 : Nat
  rank : Nat
  err : Nat
  deriving DecidableEq, Repr

/-- A KEY flit (R530). -/
structure KeyFlit where
  op : Nat
  lmk : Nat
  phase : Bool
  seq : Nat
  nonce : Nat
  mac : Nat
  deriving DecidableEq, Repr

/-- Control flits (R412). -/
inductive Ctl where
  | hello (h : Hello)
  | resume (last epoch : Nat)
  | retry (seq : Nat)
  | creditSync (pools : List Nat)
  | tsync (t : Tsync)
  | heartbeat (number time : Nat)
  | hbAnswer (number time answered : Nat)
  | expressSuspend
  | expressResume
  | key (k : KeyFlit)
  deriving DecidableEq, Repr

/-- What a flit carries: part `index` of a frame, a control body, or nothing. -/
inductive FlitBody where
  | data (f : Frame) (index : Nat)
  | ctl (c : Ctl)
  | idle
  deriving DecidableEq, Repr

/-- A flit (R411); `crcOk` says that its CRC holds. -/
structure Flit where
  seq : Nat
  ack : Nat
  vc : Nat
  sof : Bool
  eof : Bool
  pool : Nat
  returned : Nat
  body : FlitBody
  crcOk : Bool := true
  deriving DecidableEq, Repr

/-- What the header of every flit tells the sender side (R411): ack, and credits returned to a pool. -/
structure FlitHead where
  ack : Nat
  pool : Nat
  returned : Nat
  deriving DecidableEq, Repr

/-- A RoCEv2 packet (R451 to R453): base header, then the extended headers its opcode has. `length` is the RETH length. -/
structure RocePkt where
  op : Nat
  qp : Nat
  psn : Nat
  ackReq : Bool
  ect : Bool
  ce : Bool
  dscp : Nat
  srcPort : Nat
  offset : Nat
  key : Nat
  length : Nat
  imm : Nat
  syndrome : Nat
  data : List Nat
  icrcOk : Bool := true
  deriving DecidableEq, Repr

/-- A tunnel segment (R444): with `control` a control flit body, else `length` bytes at `offset` of a frame. -/
structure TunnelSeg where
  first : Bool
  last : Bool
  frameNo : Nat
  offset : Nat
  length : Nat
  frame : Option Frame
  control : Option Ctl
  deriving DecidableEq, Repr

/-- The data set by which the best master clock algorithm compares clocks (IEEE 1588-2019). -/
structure PtpClock where
  priority1 : Nat
  class_ : Nat
  accuracy : Nat
  variance : Nat
  priority2 : Nat
  identity : Nat
  steps : Nat
  deriving DecidableEq, Repr

/-- An IEEE 1588 message: type 0 Sync, 1 Delay_Req, 8 Follow_Up, 9 Delay_Resp, 0xB Announce. -/
structure PtpMsg where
  type : Nat
  domain : Nat
  seq : Nat
  twoStep : Bool
  time : Nat
  correction : Nat
  source : Nat
  requester : Nat
  clock : Option PtpClock
  deriving DecidableEq, Repr

/-- The fields of an Ethernet frame that the classification key takes (R445), but for the ingress port. -/
structure EthKey where
  etherType : Nat
  vlan : Nat
  pcp : Nat
  tagged : Bool
  proto : Nat
  dscp : Nat
  ecn : Nat
  dport : Nat
  sport : Nat
  ipSrc : Nat
  deriving DecidableEq, Repr

/-- What an Ethernet frame carries. -/
inductive EthBody where
  | roce (p : RocePkt)
  | tunnel (src : Nat) (g : TunnelSeg)
  | ptp (m : PtpMsg)
  | other
  deriving DecidableEq, Repr

/-- An entry of a notification ring (R461). -/
structure Notify where
  kind : Nat
  phase : Bool
  conn : Nat
  imm : Nat
  key : Nat
  where_ : Nat
  length : Nat
  time : Nat
  deriving DecidableEq, Repr

/-- What the SPDM responder answers (R534): `signed` responses carry a signature under the device identity key. -/
inductive SpdmRsp where
  | version (versions : List Nat)
  | capabilities (version : Nat)
  | algorithms
  | digests (slot : Nat) (digest : List Nat)
  | certificate (slot : Nat) (portion : List Nat) (remainder : Nat)
  | challengeAuth (slot : Nat) (chain summary : List Nat) (nonce : Nat)
  | measurements (count : Nat) (blocks : List (Nat × Nat × List Nat)) (signed : Bool) (nonce : Nat)
  | keyExchange (session : Nat) (summary : List Nat)
  | finish
  | heartbeat
  | keyUpdate (op tag : Nat)
  | endSession
  | vendor (op : Nat) (st : Status)
  | error (code : Nat)
  deriving DecidableEq, Repr

/-- What a command makes the block drive to the outside. -/
inductive Out where
  /-- a completion entry written to host memory (R35) -/
  | completion (c : Completion)
  /-- a chunk written to a stream ring (R113) -/
  | chunk (ring : Nat) (c : Chunk)
  /-- a record written to the event ring (R507) -/
  | event (e : EventRec) (phase : Bool)
  /-- an MSI-X message: vector, address, data (R584) -/
  | msix (vector addr data : Nat)
  /-- a flit sent on a native link (R411) -/
  | flit (link : Nat) (f : Flit)
  /-- a tunnel segment sent on an Ethernet port to a device (R444) -/
  | segment (port dest : Nat) (g : TunnelSeg)
  /-- a RoCEv2 packet sent on an Ethernet port to a device (R453) -/
  | roce (port dest : Nat) (p : RocePkt)
  /-- a PFC frame: port, priority, quanta (R474) -/
  | pfc (port priority quanta : Nat)
  /-- an IEEE 1588 message sent on an Ethernet port (R447) -/
  | ptp (port : Nat) (m : PtpMsg)
  /-- an entry written to a notification ring (R461) -/
  | notify (ring : Nat) (n : Notify)
  /-- a message passed to its unit, which needs what a store holds before it can act (R503) -/
  | handed (src : Nat) (m : Msg)
  /-- the value a BAR0 read returned -/
  | read (value : Nat)
  /-- a shard written to a trunk store: context, serial, extent in 4 KiB units, sections (R499) -/
  | shard (ctx serial extent : Nat) (secs : List ShardSess)
  /-- a manifest written, signed under a trunk key: offset in 4 KiB units (R500) -/
  | manifest (offset : Nat) (m : Manifest)
  /-- a token log record: context, serial, record and CRC-32C of its tokens (R501) -/
  | log (ctx serial : Nat) (r : LogRecord) (crc : Nat)
  /-- a Firmware Commit, action 3, to an NVMe drive: slot (R513) -/
  | nvmeCommit (drive slot : Nat)
  /-- an SPDM response, in a session where the request came in one (R534) -/
  | spdm (session : Option Nat) (r : SpdmRsp)
  /-- what Criti prints for a command: names, numbers in order, and its terminating line (R614) -/
  | criti (names : List String) (values : List Nat) (st : Status)
  /-- bits captured by the TAP and shifted out on TDO: their number and value (R620) -/
  | tdo (bits value : Nat)
  /-- bytes written to host memory -/
  | hostWrite (addr : Nat) (bytes : List Nat)
  deriving DecidableEq, Repr

end Sys2Proof
end

