-- ==== Sys2Proof/Syntax.lean ====
section
/-! DEFINITION. The commands of the block: one constructor per row of the table, in its order. -/
namespace Sys2Proof

/-- A command the block takes from outside. -/
inductive Instr where
  /-- SUBMISSION_TAIL_DOORBELL (R579) -/
  | submissionTail (r size value : Nat)
  /-- COMPLETION_HEAD_DOORBELL (R581) -/
  | completionHead (r size value : Nat)
  /-- OUTPUT_RING_HEAD_DOORBELL (R581) -/
  | outputHead (o size value : Nat)
  /-- EVENT_RING_HEAD_DOORBELL (R583) -/
  | eventHead (size value : Nat)
  /-- BAD_DOORBELL (R575) -/
  | badDoorbell (off size value : Nat)
  /-- INVALID_OPCODE (R38) -/
  | invalidOpcode (sub : Sub)
  /-- ATTACH (R49) -/
  | attach (sub : Sub) (minLevel maxLevel required rsv : Nat)
  /-- DETACH (R52) -/
  | detach (sub : Sub) (rsv : Nat)
  /-- QUERY_CAP (R628) -/
  | queryCap (sub : Sub) (rsv : Nat)
  /-- CTX_CREATE (R518) -/
  | ctxCreate (sub : Sub) (part rsv : Nat) (block rot ssm layers blob : List Nat)
  /-- CTX_DESTROY (R287) -/
  | ctxDestroy (sub : Sub) (rsv : Nat)
  /-- SES_OPEN (R630) -/
  | sesOpen (sub : Sub) (a : OpenArgs)
  /-- SES_RESUME (R26) -/
  | sesResume (sub : Sub) (a : OpenArgs)
  /-- SES_CANCEL (R109) -/
  | sesCancel (sub : Sub) (rsv : Nat)
  /-- SES_QUERY (R94) -/
  | sesQuery (sub : Sub) (rsv : Nat)
  /-- STEP_SUBMIT (R275) -/
  | stepSubmit (sub : Sub) (d : StepDesc) (len resultAddr rsv : Nat)
  /-- STEP_KILL (R276) -/
  | stepKill (sub : Sub) (ref rsv : Nat)
  /-- PFX_INSERT (R333) -/
  | pfxInsert (sub : Sub) (maxChunks flags rsv : Nat)
  /-- PFX_REMOVE (R338) -/
  | pfxRemove (sub : Sub) (nodeRef flags rsv : Nat)
  /-- TRUNK_CUT (R496) -/
  | trunkCut (sub : Sub) (handles : List Nat) (store rsv : Nat)
  /-- TRUNK_RESTORE (R503) -/
  | trunkRestore (sub : Sub) (store resultAddr rsv : Nat) (manifest : Option Manifest) (shard : Option (List ShardSess)) (shardOk : Bool) (log : Option (List LogRecord))
  /-- TBL_SWAP_LOAD (R347) -/
  | tblSwapLoad (sub : Sub) (slot flags length rsv : Nat) (img : List Nat)
  /-- TBL_SWAP_BIND (R349) -/
  | tblSwapBind (sub : Sub) (flags length rsv : Nat) (block : List Nat)
  /-- TBL_SWAP_FREE (R347) -/
  | tblSwapFree (sub : Sub) (op slot flags rsv : Nat)
  /-- CAM_WRITE_INSERT (R382) -/
  | camWriteInsert (sub : Sub) (bank width priority action : Nat) (blocks : List Nat) (rsv : Nat)
  /-- CAM_WRITE_DELETE (R382) -/
  | camWriteDelete (sub : Sub) (bank width priority : Nat) (blocks : List Nat) (rsv : Nat)
  /-- CAM_WRITE_MODIFY (R382) -/
  | camWriteModify (sub : Sub) (bank width priority action : Nat) (blocks : List Nat) (rsv : Nat)
  /-- CAM_WRITE_CLEAR (R382) -/
  | camWriteClear (sub : Sub) (bank width rsv : Nat)
  /-- CAM_DRAIN (R387) -/
  | camDrain (sub : Sub) (g rsv : Nat)
  /-- VSR_QUERY (R399) -/
  | vsrQuery (sub : Sub) (indexId k beam flags : Nat) (vec : List Nat) (resultAddr all any maxVisits rsv : Nat)
  /-- SEM_ACQUIRE (R282) -/
  | semAcquire (sub : Sub) (sem cls rsv : Nat)
  /-- SEM_RELEASE (R283) -/
  | semRelease (sub : Sub) (sem rsv : Nat)
  /-- PROT_FENCE (R468) -/
  | protFence (sub : Sub) (pd g rsv : Nat)
  /-- SEM_GRANT (R281) -/
  | semGrant (sem : Nat)
  /-- CAM_DRAIN_DONE (R387) -/
  | camDrainDone
  /-- PROT_FENCE_DONE (R468) -/
  | protFenceDone
  /-- ATN_QKV (R166) -/
  | atnQkv (half : Nat) (q : AtnQkv)
  /-- ATN_QKV_EARLY_HOLD_EXPIRY (R629) -/
  | atnQkvEarlyHoldExpiry (id : Nat)
  /-- DLG_BLOCK (R249) -/
  | dlgBlock (half : Nat) (m : DlgBlock)
  /-- DLG_OUT (R250) -/
  | dlgOut (m : DlgOut)
  /-- DLG_TIMEOUT (R250) -/
  | dlgTimeout (request : Nat)
  /-- NBU_JOB_END (R209) -/
  | nbuJobEnd (nbu thread ran cycles : Nat) (ecc : Option Nat)
  /-- CMD_ENTRY_WRITE (R207) -/
  | cmdEntryWrite (nbu thread value : Nat)
  /-- CMD_STATUS_ABORT (R209) -/
  | cmdStatusAbort (nbu thread ran cycles : Nat)
  /-- CYCLE_LIMIT (R223) -/
  | cycleLimit (nbu thread ran cycles : Nat)
  /-- TILE_COMMAND_END (R238) -/
  | tileCommandEnd (tile code nbu page macs cycles : Nat)
  /-- TILE_CYCLE_LIMIT (R238) -/
  | tileCycleLimit (tile cycles : Nat)
  /-- TILE_DISPATCH (R241) -/
  | tileDispatch (tile : Nat)
  /-- DEN_TEST_CTL_GO (R251) -/
  | denTestCtlGo (tile : Nat)
  /-- STP_DESC (R255) -/
  | stpDesc (d : StepDesc)
  /-- PART_START (R258) -/
  | partStart (ref : Nat)
  /-- CREDIT_WAIT_EXPIRY (R277) -/
  | creditWaitExpiry (ref : Nat)
  /-- STP_PREPARED (R264) -/
  | stpPrepared (m : StepMsg)
  /-- STP_SEAL (R265) -/
  | stpSeal (m : StepMsg)
  /-- STP_SEAL_MIRROR (R264) -/
  | stpSealMirror (m : StepMsg)
  /-- STP_SEAL_ACK (R264) -/
  | stpSealAck (m : StepMsg)
  /-- STP_KILLED (R272) -/
  | stpKilled (m : StepMsg)
  /-- STP_ABORT (R272) -/
  | stpAbort (m : StepMsg)
  /-- STP_DONE (R274) -/
  | stpDone (m : StepMsg)
  /-- SEAL_RETRY_EXPIRY (R266) -/
  | sealRetryExpiry (ref : Nat)
  /-- PREP_QUERY_EXPIRY (R267) -/
  | prepQueryExpiry (ref entry : Nat)
  /-- SEM_REQ (R286) -/
  | semReq (src op : Nat) (sub : Sub) (sem cls : Nat)
  /-- SEM_INHERIT_LIMIT (R284) -/
  | semInheritLimit (sem : Nat)
  /-- CONTEXT_SLOT_FREE (R287) -/
  | contextSlotFree (ctx : Nat)
  /-- LOGITS (R358) -/
  | logits (m : LogitsMsg) (rsv : Nat)
  /-- SAMPLER_DRAW (R360) -/
  | samplerDraw
  /-- TOKENIZE_COMPLETE (R355) -/
  | tokenizeComplete
  /-- INV_PROBE (R326) -/
  | invProbe (r : InvReq)
  /-- INV_COMMIT (R328) -/
  | invCommit (r : InvReq)
  /-- INV_PUBLISH (R334) -/
  | invPublish (r : InvReq)
  /-- INV_WITHDRAW (R339) -/
  | invWithdraw (r : InvReq)
  /-- INV_RSP (R327) -/
  | invRsp (src : Nat) (r : InvRsp)
  /-- INV_PROBE_TIMEOUT (R327) -/
  | invProbeTimeout (handle : Nat)
  /-- INV_PIN_EXPIRY (R328) -/
  | invPinExpiry (src request : Nat)
  /-- VSR_REQ (R401) -/
  | vsrReq (r : VsrReq)
  /-- VSR_RSP (R402) -/
  | vsrRsp (r : VsrRsp)
  /-- VSR_SHARD_TIMEOUT (R402) -/
  | vsrShardTimeout (request shard : Nat)
  /-- VSR_LOAD (R392) -/
  | vsrLoad (slot ctx : Nat) (shared : Bool) (length : Nat) (img : List Nat)
  /-- VSR_FREE (R393) -/
  | vsrFree (slot ctx : Nat) (shared : Bool) (length : Nat)
  /-- CAM_LOOKUP_CTL_GO (R388) -/
  | camLookupCtlGo (width : Nat)
  /-- CAM_SHIFT_COMPLETE (R385) -/
  | camShiftComplete (bank : Nat)
  /-- MIRROR_OPEN (R101) -/
  | mirrorOpen (q : MirrorHdr) (d : SessDesc) (toks : List Nat)
  /-- MIRROR_STATE (R104) -/
  | mirrorState (q : MirrorHdr) (toks : List Nat)
  /-- MIRROR_NOTE (R107) -/
  | mirrorNote (q : MirrorHdr) (token index : Nat) (hold : List Nat)
  /-- MIRROR_PREP (R487) -/
  | mirrorPrep (q : MirrorHdr) (c : PrepCopy)
  /-- MIRROR_ACK (R104) -/
  | mirrorAck (q : MirrorHdr)
  /-- MIRROR_RETIRE (R110) -/
  | mirrorRetire (q : MirrorHdr)
  /-- MIRROR_SYNC (R494) -/
  | mirrorSync (q : MirrorHdr) (valid : Nat) (bytes : List Nat)
  /-- MIRROR_PULL (R487) -/
  | mirrorPull (q : MirrorHdr) (count : Nat)
  /-- MIRROR_HANDOVER (R495) -/
  | mirrorHandover (q : MirrorHdr)
  /-- PREP_RESEND_EXPIRY (R488) -/
  | prepResendExpiry (handle : Nat) (home : Bool)
  /-- LOST_REPORT (R490) -/
  | lostReport (lost observer link : Nat)
  /-- ROLE_CLAIM (R492) -/
  | roleClaim (src lost epoch first last m idx : Nat)
  /-- SHADOW_PROMOTE (R106) -/
  | shadowPromote
  /-- SESSION_DEMOTED (R493) -/
  | sessionDemoted (handle epoch : Nat)
  /-- MIRROR_DROPPED (R494) -/
  | mirrorDropped (handle : Nat) (home : Bool) (cause : Nat)
  /-- TRUNK_REQ_CUT (R497) -/
  | trunkReqCut (r : TrunkReq)
  /-- TRUNK_REQ_ABORT (R496) -/
  | trunkReqAbort (r : TrunkReq)
  /-- TRUNK_REQ_RESTORE (R503) -/
  | trunkReqRestore (r : TrunkReq) (shard : Option (List ShardSess)) (shardOk : Bool)
  /-- TRUNK_RSP_RESERVED (R496) -/
  | trunkRspReserved (q : TrunkRsp)
  /-- TRUNK_RSP_RESTORED (R503) -/
  | trunkRspRestored (q : TrunkRsp)
  /-- TRUNK_RSP_TAKEN (R497) -/
  | trunkRspTaken (q : TrunkRsp)
  /-- TRUNK_RSP_DRAINED (R498) -/
  | trunkRspDrained (q : TrunkRsp)
  /-- FAST_COPY_COMPLETE (R497) -/
  | fastCopyComplete (home request handle : Nat)
  /-- TRUNK_DRAIN_COMPLETE (R498) -/
  | trunkDrainComplete (home request digest : Nat) (ok : Bool)
  /-- TOKEN_LOG_FLUSH (R501) -/
  | tokenLogFlush
  /-- CKP_HANDOVER_GO (R495) -/
  | ckpHandoverGo (device : Nat)
  /-- CKP_TRUNK_DEL (R514) -/
  | ckpTrunkDel (serial context : Nat)
  /-- RM_WRITE (R459) -/
  | rmWrite (m : RmMsg) (ecc : Bool)
  /-- RM_WRITE_IMM (R461) -/
  | rmWriteImm (m : RmMsg) (ecc : Bool)
  /-- RM_READ (R459) -/
  | rmRead (m : RmMsg) (ecc : Bool)
  /-- RM_READ_RSP (R454) -/
  | rmReadRsp (m : RmMsg)
  /-- RM_SEND (R461) -/
  | rmSend (m : RmMsg) (ecc : Bool)
  /-- RM_ACK (R460) -/
  | rmAck (a : RmAck)
  /-- ROCE_REQUEST_PACKET (R464) -/
  | roceRequestPacket (port : Nat) (named : Option Nat) (p : RocePkt) (ecc : Bool)
  /-- ROCE_RESPONSE_PACKET (R460) -/
  | roceResponsePacket (p : RocePkt)
  /-- CNP (R477) -/
  | cnp (conn : Nat)
  /-- CC_RATE_PERIOD (R477) -/
  | ccRatePeriod (conn : Nat)
  /-- RDMA_RETRY_TIMER (R460) -/
  | rdmaRetryTimer (conn : Nat)
  /-- RNR_WAIT_EXPIRY (R460) -/
  | rnrWaitExpiry (conn : Nat)
  /-- CONN_CREATE (R471) -/
  | connCreate
  /-- CONN_DESTROY (R457) -/
  | connDestroy (conn : Nat)
  /-- CONN_READ (R456) -/
  | connRead (conn : Nat)
  /-- CONN_SPILL_COMPLETE (R473) -/
  | connSpillComplete (conn : Nat)
  /-- CONN_FETCH_COMPLETE (R473) -/
  | connFetchComplete (conn : Nat)
  /-- RMA_MR_CTL_GO (R467) -/
  | rmaMrCtlGo (index : Nat)
  /-- PFC_PAUSE (R474) -/
  | pfcPause (port priority quanta : Nat)
  /-- PFC_RENEWAL (R474) -/
  | pfcRenewal (port priority bytes : Nat)
  /-- PFC_STORM (R475) -/
  | pfcStorm (port priority : Nat)
  /-- RMA_ENGINE_FATAL (R481) -/
  | rmaEngineFatal (half : Nat)
  /-- HELLO (R409) -/
  | hello (link : Nat) (h : Hello)
  /-- RESUME (R429) -/
  | resume (link last epoch : Nat)
  /-- RETRY (R420) -/
  | retry (link : Nat) (h : FlitHead) (seq : Nat)
  /-- CREDIT_SYNC (R416) -/
  | creditSync (link : Nat) (h : FlitHead) (pools : List Nat)
  /-- CREDIT_SYNC_TIMER (R416) -/
  | creditSyncTimer (link : Nat)
  /-- TSYNC (R435) -/
  | tsync (link : Nat) (h : FlitHead) (t : Tsync)
  /-- TSYNC_TIMER (R434) -/
  | tsyncTimer (link : Nat)
  /-- HEARTBEAT (R413) -/
  | heartbeat (link : Nat) (h : FlitHead) (number time : Nat)
  /-- EXPRESS_SUSPEND (R439) -/
  | expressSuspend (link : Nat) (h : FlitHead)
  /-- EXPRESS_RESUME (R439) -/
  | expressResume (link : Nat) (h : FlitHead)
  /-- EXPRESS_RESUME_TIMER (R439) -/
  | expressResumeTimer (link : Nat)
  /-- KEY_NONCE (R531) -/
  | keyNonce (link : Nat) (h : FlitHead) (k : KeyFlit)
  /-- KEY_CONFIRM (R531) -/
  | keyConfirm (link : Nat) (h : FlitHead) (k : KeyFlit)
  /-- KEY_REKEY (R532) -/
  | keyRekey (link : Nat) (h : FlitHead) (k : KeyFlit)
  /-- KEY_REKEY_ACK (R532) -/
  | keyRekeyAck (link : Nat) (h : FlitHead) (k : KeyFlit)
  /-- KEY_FAIL (R531) -/
  | keyFail (link : Nat) (h : FlitHead) (k : KeyFlit)
  /-- REKEY_START (R433) -/
  | rekeyStart (port dev : Nat)
  /-- REKEY_RESEND_TIMER (R532) -/
  | rekeyResendTimer (port dev : Nat)
  /-- OLD_KEY_EXPIRY (R433) -/
  | oldKeyExpiry (port dev : Nat)
  /-- DATA_FLIT (R420) -/
  | dataFlit (link : Nat) (fl : Flit)
  /-- REPLAY_TIMEOUT (R420) -/
  | replayTimeout (link : Nat)
  /-- FRAME_RECEIVE (R422) -/
  | frameReceive (port : Nat) (f : Frame)
  /-- TACK (R421) -/
  | tack (src : Nat) (entries : List TackEntry)
  /-- RETX_TIMER (R421) -/
  | retxTimer (dest txid : Nat)
  /-- EPOCH_HOLD_EXPIRY (R424) -/
  | epochHoldExpiry (src txid : Nat)
  /-- LINK_SIGNAL_DETECT (R407) -/
  | linkSignalDetect (link lanes : Nat) (reversed : Bool)
  /-- LINK_DOWN_DETECTED (R426) -/
  | linkDownDetected (port fec : Nat)
  /-- LINK_HOLD_EXPIRY (R431) -/
  | linkHoldExpiry (link : Nat)
  /-- LINK_TRAIN_RETRY (R409) -/
  | linkTrainRetry (port : Nat)
  /-- LNK_CTL_RETRAIN (R407) -/
  | lnkCtlRetrain (link : Nat)
  /-- LNK_CTL_ENABLE_WRITE (R426) -/
  | lnkCtlEnableWrite (link : Nat) (w : RegWrite)
  /-- SHAPER_CONFIG_WRITE (R441) -/
  | shaperConfigWrite (port q : Nat) (w : RegWrite)
  /-- SHAPER_REFILL (R441) -/
  | shaperRefill
  /-- TUNNEL_SEGMENT (R444) -/
  | tunnelSegment (port src : Nat) (g : TunnelSeg)
  /-- REASSEMBLY_TIMEOUT (R444) -/
  | reassemblyTimeout (port src frameNo : Nat)
  /-- ETHERNET_FRAME_RECEIVE (R445) -/
  | ethernetFrameReceive (port : Nat) (k : EthKey) (bytes : Nat) (body : EthBody)
  /-- PTP_MESSAGE (R447) -/
  | ptpMessage (port : Nat) (m : PtpMsg)
  /-- ETH_HOLD_EXPIRY (R448) -/
  | ethHoldExpiry (port : Nat)
  /-- REGULATOR_REFILL (R259) -/
  | regulatorRefill
  /-- TALLY_REPLENISH (R312) -/
  | tallyReplenish
  /-- HAT_TALLY_ADD (R314) -/
  | hatTallyAdd (tally tokens : Nat) (subtract : Bool)
  /-- LADDER_MOVE_START (R139) -/
  | ladderMoveStart (engine : Nat)
  /-- RAISE_COMPLETE (R151) -/
  | raiseComplete (move : Nat) (crcOk : Bool)
  /-- SINK_COMPLETE (R151) -/
  | sinkComplete (move : Nat)
  /-- MOVE_FAILED (R154) -/
  | moveFailed (move : Nat)
  /-- TIER_DEADLINE_EXPIRY (R153) -/
  | tierDeadlineExpiry (move : Nat)
  /-- WRITEBACK_COMPLETE (R148) -/
  | writebackComplete (move : Nat)
  /-- FAULTY_TARGET_EXPIRY (R155) -/
  | faultyTargetExpiry (remote : Bool) (number : Nat)
  /-- CELLAR_TARGET_LOST (R156) -/
  | cellarTargetLost (remote : Bool) (number : Nat)
  /-- SPILL_COMPLETE (R98) -/
  | spillComplete (handle : Nat)
  /-- FETCH_COMPLETE (R100) -/
  | fetchComplete (handle : Nat)
  /-- SESSION_FREE (R110) -/
  | sessionFree (handle : Nat)
  /-- TABLE_SWITCH (R373) -/
  | tableSwitch
  /-- EMB_DECAY (R371) -/
  | embDecay
  /-- EMB_CFG_WRITE (R371) -/
  | embCfgWrite (w : RegWrite)
  /-- LAY_LOAD (R77) -/
  | layLoad (img : List Nat)
  /-- LAY_PROGRAM_SLOT (R81) -/
  | layProgramSlot (img : List Nat)
  /-- FAST_RECOMP_QUIESCE_EXPIRY (R86) -/
  | fastRecompQuiesceExpiry
  /-- MICROPROG_RELOAD_DONE (R214) -/
  | microprogReloadDone (stack : Nat)
  /-- MAINT_ACTIVITY_DONE (R511) -/
  | maintActivityDone (no target : Nat)
  /-- MNT_ATTIC_SCRUB (R513) -/
  | mntAtticScrub (stack : Nat)
  /-- MNT_SPARE_IN (R513) -/
  | mntSpareIn (bankPair : Nat)
  /-- MNT_LINK_RETRAIN (R513) -/
  | mntLinkRetrain (bay : Nat)
  /-- MNT_NVME_FW_ACTIVATE (R513) -/
  | mntNvmeFwActivate (drive slot : Nat)
  /-- WARN_INTERVAL_END (R506) -/
  | warnIntervalEnd (kind : Nat) (counts : List (Nat × Nat × Nat))
  /-- COALESCE_WINDOW_CLOSE (R508) -/
  | windowClose (source code epoch : Nat)
  /-- EVENT_ALLOWANCE_TICK (R509) -/
  | allowanceTick
  /-- IRQ_COALESCE_TIMER (R584) -/
  | irqTimer (ring : RingId)
  /-- RING_ACCESS_FAULT (R585) -/
  | ringFault (ring : RingId) (pcie : Nat)
  /-- TOP_RING_CFG_WRITE (R578) -/
  | ringCfg (r : Nat) (w : RegWrite)
  /-- TOP_ORING_CFG_WRITE (R582) -/
  | oRingCfg (o : Option Nat) (w : RegWrite)
  /-- TOP_SNAP_FREEZE (R571) -/
  | topSnapFreeze (block : Nat)
  /-- TOP_SNAP_RELEASE (R571) -/
  | topSnapRelease (block : Nat)
  /-- HAT_HIST_SNAP (R572) -/
  | hatHistSnap (cls metric : Nat)
  /-- HAT_HIST_CLEAR (R572) -/
  | hatHistClear (cls metric : Nat)
  /-- HAT_TRK_SEL_WRITE (R572) -/
  | hatTrkSelWrite (handle : Nat)
  /-- SEC_MEAS_SNAP (R572) -/
  | secMeasSnap (index : Nat)
  /-- BAR0_READ_LOW_HALF (R570) -/
  | bar0ReadLowHalf (off size : Nat)
  /-- REGISTER_WRITE (R567) -/
  | registerWrite (w : RegWrite)
  /-- LOCKDOWN (R520) -/
  | lockdown (w : RegWrite)
  /-- SET_DOMAIN_KEY (R522) -/
  | setDomainKey (session : Option Nat) (index : Nat) (key : List Nat)
  /-- SET_LINK_KEY (R522) -/
  | setLinkKey (session : Option Nat) (index : Nat) (key : List Nat)
  /-- SET_TRUNK_KEY (R522) -/
  | setTrunkKey (session : Option Nat) (index d : Nat)
  /-- CLEAR_KEY (R522) -/
  | clearKey (session : Option Nat) (byte : Nat)
  /-- ENROLL_SLOT (R524) -/
  | enrollSlot (session : Option Nat) (k x y a r t : Nat)
  /-- REVOKE_SLOT (R524) -/
  | revokeSlot (session : Option Nat) (k a r t : Nat)
  /-- GET_VERSION (R534) -/
  | getVersion
  /-- GET_CAPABILITIES (R534) -/
  | getCapabilities (version : Nat)
  /-- NEGOTIATE_ALGORITHMS (R534) -/
  | negotiateAlgorithms (ecdsa sha dhe aead : Bool)
  /-- GET_DIGESTS (R534) -/
  | getDigests (session : Option Nat)
  /-- GET_CERTIFICATE (R534) -/
  | getCertificate (session : Option Nat) (slot offset length : Nat)
  /-- CHALLENGE (R534) -/
  | challenge (session : Option Nat) (slot kind : Nat)
  /-- GET_MEASUREMENTS (R535) -/
  | getMeasurements (session : Option Nat) (index : Nat) (signed : Bool)
  /-- KEY_EXCHANGE (R534) -/
  | keyExchange (slot kind : Nat)
  /-- FINISH (R534) -/
  | finish (session : Nat) (good : Bool)
  /-- SPDM_HEARTBEAT (R534) -/
  | spdmHeartbeat (session : Nat)
  /-- KEY_UPDATE (R534) -/
  | keyUpdate (session op tag : Nat)
  /-- END_SESSION (R534) -/
  | endSession (session : Nat)
  /-- SEC_ISLAND_RESYNC (R525) -/
  | secIslandResync (half : Nat)
  /-- ISLAND_RESET (R21) -/
  | islandReset (island : Nat)
  /-- PWR_OK_RISE (R546) -/
  | pwrOkRise (devid : Nat) (sysRstN perstN mfgMode : Bool)
  /-- PWR_OK_FALL (R541) -/
  | pwrOkFall (ns : Nat)
  /-- SYS_RST_N_FALL (R543) -/
  | sysRstNFall
  /-- SYS_RST_N_RISE (R543) -/
  | sysRstNRise
  /-- PERST_N_ASSERT (R542) -/
  | perstNAssert
  /-- PERST_N_DEASSERT (R542) -/
  | perstNDeassert
  /-- CLK_RESET_WARM (R541) -/
  | clkResetWarm (key : Nat)
  /-- CLK_RESET_COLD (R541) -/
  | clkResetCold (key : Nat)
  /-- FIRMWARE_WATCHDOG_EXPIRY (R541) -/
  | firmwareWatchdogExpiry
  /-- WARM_SAVE_COMPLETE (R543) -/
  | warmSaveComplete (us : Nat)
  /-- WARM_SAVE_TIMEOUT (R543) -/
  | warmSaveTimeout
  /-- WARM_START (R546) -/
  | warmStart (trainOk canaryOk dimmsSame recordOk copyOk : Bool)
  /-- REJOIN_TIMEOUT (R549) -/
  | rejoinTimeout (handle : Nat)
  /-- REFERENCE_MONITOR_WINDOW (R556) -/
  | referenceMonitorWindow (refs plls : List Nat)
  /-- OSC_MONITOR_WINDOW (R561) -/
  | oscMonitorWindow (count : Nat)
  /-- PLL_UNLOCK_EXPIRY (R562) -/
  | pllUnlockExpiry (pll : Nat)
  /-- THERMAL_THROTTLE_TICK (R609) -/
  | thermalThrottleTick (readings : List Nat) (prochotN power up : Bool)
  /-- THERM_TRIP (R610) -/
  | thermTrip
  /-- CRITI_HELP (R615) -/
  | critiHelp
  /-- CRITI_VER (R615) -/
  | critiVer
  /-- CRITI_STAT (R615) -/
  | critiStat
  /-- CRITI_CAP (R615) -/
  | critiCap
  /-- CRITI_TEMP (R615) -/
  | critiTemp
  /-- CRITI_RAILS (R615) -/
  | critiRails
  /-- CRITI_CLK (R615) -/
  | critiClk
  /-- CRITI_LINK (R615) -/
  | critiLink (link : Nat)
  /-- CRITI_EVT (R615) -/
  | critiEvt (n : Option Nat)
  /-- CRITI_RD (R616) -/
  | critiRd (addr : Nat) (n : Option Nat)
  /-- CRITI_BAUD (R613) -/
  | critiBaud (rate : Nat)
  /-- CRITI_AUTH (R618) -/
  | critiAuth (level slot r t : Nat)
  /-- CRITI_EXIT (R614) -/
  | critiExit
  /-- CRITI_WR (R616) -/
  | critiWr (addr value : Nat)
  /-- CRITI_RESET (R541) -/
  | critiReset (cold : Bool)
  /-- CRITI_BAD_LINE (R615) -/
  | critiBadLine
  /-- JTAG_TEST_LOGIC_RESET (R620) -/
  | jtagTestLogicReset
  /-- EXTEST (R622) -/
  | extest
  /-- SAMPLE_PRELOAD (R622) -/
  | samplePreload
  /-- IDCODE (R621) -/
  | idcode
  /-- CLAMP (R622) -/
  | clamp
  /-- HIGHZ (R622) -/
  | highz
  /-- EXTEST_PULSE (R622) -/
  | extestPulse
  /-- EXTEST_TRAIN (R622) -/
  | extestTrain
  /-- BYPASS (R620) -/
  | bypass
  /-- DBG_AUTH (R623) -/
  | dbgAuth (level slot rsv r t : Nat)
  /-- DBG_ACCESS_READ (R624) -/
  | dbgAccessRead (space addr rsv : Nat)
  /-- DBG_ACCESS_WRITE (R624) -/
  | dbgAccessWrite (space addr value rsv : Nat)
  /-- STP_ENTRY_EARLY_HOLD_EXPIRY (R255) -/
  | stpEntryEarlyHoldExpiry (ref entry : Nat)
  /-- FENCE_LIMIT_EXPIRY (R468) -/
  | fenceLimitExpiry (pd gen : Nat)
  /-- PFC_STORM_END (R475) -/
  | pfcStormEnd (port priority : Nat)
  /-- FLIT_BOUNDARY (R440) -/
  | flitBoundary (port : Nat)
  /-- IDLE_FLIT (R411) -/
  | idleFlit (link : Nat) (h : FlitHead)
  /-- ETH_TRAINING_COMPLETE (R448) -/
  | ethTrainingComplete (port : Nat)
  /-- ISLAND_RETURN (R21) -/
  | islandReturn (island : Nat)
  /-- DROOP_EVENT (R602) -/
  | droopEvent (rail mv : Nat)
  /-- PERIODIC_SCRUB (R511) -/
  | periodicScrub (stack : Nat)
  deriving DecidableEq, Repr

end Sys2Proof
end

