-- ==== Sys2Proof/Decode.lean ====
section
/-! DEFINITION. The commands that words spell: none. The table gives no row a field, so no word spells a command; the commands
reach the block as they are. -/
namespace Sys2Proof

/-- The command that `nbits` bits `w` spell by the table's fields: no row of the table has any. -/
def decodeTableWord (_nbits _w : Nat) : Option Instr := none

end Sys2Proof
end

