-- ==== Sys2Proof/Machine/Bits.lean ====
section
/-! DEFINITION. Bit fields, little-endian bytes, wrapping and saturating counts, CRC-32C (R11). -/
namespace Sys2Proof.Machine

/-- Bits `[lo + w − 1 : lo]` of a number. -/
def bitsOf (n lo w : Nat) : Nat := n / 2 ^ lo % 2 ^ w

/-- Bit `i` of a number. -/
def bitOf (n i : Nat) : Bool := n / 2 ^ i % 2 = 1

/-- 1 for true, 0 for false. -/
def b2n (b : Bool) : Nat := if b then 1 else 0

/-- The number with bits `[lo + w − 1 : lo]` replaced by `v`. -/
def putBits (n lo w v : Nat) : Nat :=
  n - bitsOf n lo w * 2 ^ lo + v % 2 ^ w * 2 ^ lo

/-- The number with bit `i` set to `b`. -/
def putBit (n i : Nat) (b : Bool) : Nat := putBits n i 1 (b2n b)

/-- The mask of the bit numbers listed. -/
def maskOf (l : List Nat) : Nat := l.foldl (fun m i => putBit m i true) 0

/-- The numbers of the set bits below `n`. -/
def setBits (m n : Nat) : List Nat := (List.range n).filter (bitOf m)

/-- The number of set bits below `n`. -/
def popCount (m n : Nat) : Nat := (setBits m n).length

/-- Sum modulo `2 ^ w`: a counter the spec calls wrapping. -/
def wrapAdd (w a b : Nat) : Nat := (a + b) % 2 ^ w

/-- Sum held at `2 ^ w − 1`: a counter the spec calls saturating. -/
def satAdd (w a b : Nat) : Nat := Nat.min (a + b) (2 ^ w - 1)

/-- The value of the low `w` bits read as two's complement. -/
def toSigned (w n : Nat) : Int :=
  let v := n % 2 ^ w
  if v < 2 ^ (w - 1) then (v : Int) else (v : Int) - (2 ^ w : Nat)

/-- The low `w` bits of an integer, two's complement. -/
def ofSigned (w : Nat) (i : Int) : Nat := (i % (2 ^ w : Nat)).toNat

/-- `n` bytes of a number, least significant first. -/
def leBytes : Nat → Nat → List Nat
  | 0, _ => []
  | n + 1, v => v % 256 :: leBytes n (v / 256)

/-- The number whose little-endian bytes are listed. -/
def leNat : List Nat → Nat
  | [] => 0
  | b :: t => b % 256 + 256 * leNat t

/-- The number whose big-endian bytes are listed. -/
def beNat (l : List Nat) : Nat := l.foldl (fun a b => a * 256 + b % 256) 0

/-- `n` bytes at offset `o` of a byte string, zeros past its end. -/
def slice (l : List Nat) (o n : Nat) : List Nat :=
  let d := (l.drop o).take n
  d ++ List.replicate (n - d.length) 0

/-- The little-endian number of `n` bytes at offset `o`. -/
def leAt (l : List Nat) (o n : Nat) : Nat := leNat (slice l o n)

/-- The quotient rounded up. -/
def ceilDiv (a b : Nat) : Nat := (a + (b - 1)) / b

/-- One bit step of the reflected CRC-32C polynomial 0x82F63B78. -/
def crcStep (c : Nat) : Nat := if c % 2 = 1 then Nat.xor (c / 2) 0x82F63B78 else c / 2

/-- Eight bit steps after mixing in a byte. -/
def crcByte (c b : Nat) : Nat :=
  let c0 := Nat.xor c (b % 256)
  crcStep (crcStep (crcStep (crcStep (crcStep (crcStep (crcStep (crcStep c0)))))))

/-- CRC-32C of a byte string: reflected, initial and final value all ones. -/
def crc32c (l : List Nat) : Nat := Nat.xor (l.foldl crcByte 0xFFFFFFFF) 0xFFFFFFFF

/-- `a` precedes `b` in a space of `2 ^ w` serial numbers: the difference lies in 1 to half the space. -/
def serialLt (w a b : Nat) : Bool :=
  let d := (b + 2 ^ w - a % 2 ^ w) % 2 ^ w
  decide (0 < d) && decide (d < 2 ^ (w - 1))

end Sys2Proof.Machine
end

