-- ==== Sys2Proof/Machine/RegTypes.lean ====
section
/-! DEFINITION. What a register field is: its place, its access type (R567), its reset value and range rule. -/
namespace Sys2Proof.Machine

/-- The access types of R567. -/
inductive Access where
  | rw | ro | w1c | w1s | wo | rc | snap
  deriving DecidableEq, Repr

/-- The range rule of a writable field: a value outside it is ignored (R567). -/
inductive Lim where
  | any
  | range (lo hi : Nat)
  deriving DecidableEq, Repr

/-- One field of a register family: base address, index dimensions as (count, stride) with strides
falling, lowest bit, width, access type, reset value, range rule. -/
structure Field where
  addr : Nat
  dims : List (Nat × Nat)
  lo : Nat
  width : Nat
  ty : Access
  reset : Nat
  lim : Lim
  deriving DecidableEq, Repr

/-- Whether a value obeys a range rule. -/
def limOk : Lim → Nat → Bool
  | .any, _ => true
  | .range a b, v => decide (a ≤ v) && decide (v ≤ b)

/-- The byte address offset of an index tuple: the sum of index times stride. -/
def dimOffset : List (Nat × Nat) → List Nat → Nat
  | (_, st) :: ds, i :: is => i * st + dimOffset ds is
  | _, _ => 0

/-- The index tuple whose offset is `rem`, where one exists. -/
def dimIndex : List (Nat × Nat) → Nat → Option (List Nat)
  | [], rem => if rem = 0 then some [] else none
  | (c, st) :: ds, rem =>
    if rem / st < c then (dimIndex ds (rem % st)).map (rem / st :: ·) else none

/-- The index tuple at which a field's register lies at `off`. -/
def fieldIndex (f : Field) (off : Nat) : Option (List Nat) :=
  if off < f.addr then none else dimIndex f.dims (off - f.addr)

/-- Where the register file keeps the field of the register at byte address `off`. -/
def fieldKey (off lo : Nat) : Nat := off * 64 + lo

end Sys2Proof.Machine
end

