-- ==== Sys2Proof/Machine/RegMap.lean ====
section
/-! DEFINITION. The fields of every BAR0 register, block by block: address, index dimensions, bit range,
access type, reset value and range rule, as the register tables of spec/ print them (R565, R567, R573).
A reset value the tables call "from image", "per part", "from flash" or "fuses" stands here as 0: the
machine sets or computes those fields itself. -/
namespace Sys2Proof.Machine

def Reg.LAY_CTRL.go : Field := ⟨0x200000, [], 0, 1, .w1s, 0, .any⟩
def Reg.LAY_CTRL.op : Field := ⟨0x200000, [], 1, 3, .rw, 0, .any⟩
def Reg.LAY_SRC.offset : Field := ⟨0x200008, [], 0, 28, .rw, 0, .any⟩
def Reg.LAY_SRC.length : Field := ⟨0x200008, [], 32, 24, .rw, 0, .any⟩
def Reg.LAY_STATUS.busy : Field := ⟨0x200010, [], 0, 1, .ro, 0, .any⟩
def Reg.LAY_STATUS.overrun : Field := ⟨0x200010, [], 1, 1, .w1c, 0, .any⟩
def Reg.LAY_STATUS.copied : Field := ⟨0x200010, [], 2, 1, .ro, 0, .any⟩
def Reg.LAY_STATUS.code : Field := ⟨0x200010, [], 8, 8, .ro, 0, .any⟩
def Reg.LAY_STATUS.reason : Field := ⟨0x200010, [], 16, 8, .ro, 0, .any⟩
def Reg.LAY_STATUS.sect : Field := ⟨0x200010, [], 32, 16, .ro, 0, .any⟩
def Reg.LAY_STATUS.count : Field := ⟨0x200010, [], 48, 16, .ro, 0, .any⟩
def Reg.LAY_ACTIVE.serial : Field := ⟨0x200018, [], 0, 32, .ro, 0, .any⟩
def Reg.LAY_ACTIVE.composition : Field := ⟨0x200018, [], 32, 32, .ro, 0, .any⟩
def Reg.LAY_QUIESCE.quiesce_us : Field := ⟨0x200020, [], 0, 16, .rw, 1000, .range 100 10000⟩
def Reg.LAY_SPI.active_slot : Field := ⟨0x200028, [], 0, 1, .rw, 0, .any⟩
def Reg.LAY_SPI.slot_valid : Field := ⟨0x200028, [], 1, 2, .ro, 0, .any⟩
def Reg.LAY_SPI.booted_slot : Field := ⟨0x200028, [], 3, 1, .ro, 0, .any⟩
def Reg.LAY_SPI.builtin : Field := ⟨0x200028, [], 4, 1, .ro, 0, .any⟩
def Reg.SES_CFG.spill_low : Field := ⟨0x300000, [], 0, 16, .rw, 64, .range 1 4096⟩
def Reg.SES_CFG.chunk_hold : Field := ⟨0x300000, [], 16, 8, .rw, 16, .range 4 64⟩
def Reg.SES_SHADOW_RING.ring : Field := ⟨0x300008, [], 0, 10, .rw, 0, .any⟩
def Reg.SES_SHADOW_RING.valid : Field := ⟨0x300008, [], 10, 1, .rw, 0, .any⟩
def Reg.SES_COUNT.shelves_used : Field := ⟨0x300010, [], 0, 17, .ro, 0, .any⟩
def Reg.SES_COUNT.spilled : Field := ⟨0x300010, [], 25, 25, .ro, 0, .any⟩
def Reg.SES_SPILL.limit : Field := ⟨0x300018, [], 0, 25, .ro, 0, .any⟩
def Reg.SES_SPILL.fetches : Field := ⟨0x300018, [], 32, 32, .ro, 0, .any⟩
def Reg.LAD_CFG.age_unit : Field := ⟨0x400000, [], 0, 6, .rw, 20, .range 10 40⟩
def Reg.LAD_CFG.wb_park : Field := ⟨0x400000, [], 6, 1, .rw, 1, .any⟩
def Reg.LAD_CFG.wb_full : Field := ⟨0x400000, [], 7, 1, .rw, 0, .any⟩
def Reg.LAD_CFG.prefetch : Field := ⟨0x400000, [], 8, 1, .rw, 1, .any⟩
def Reg.LAD_WM.attic_low : Field := ⟨0x400008, [], 0, 10, .rw, 20, .any⟩
def Reg.LAD_WM.attic_high : Field := ⟨0x400008, [], 16, 10, .rw, 40, .any⟩
def Reg.LAD_WM.store_low : Field := ⟨0x400008, [], 32, 10, .rw, 20, .any⟩
def Reg.LAD_WM.store_high : Field := ⟨0x400008, [], 48, 10, .rw, 40, .any⟩
def Reg.LAD_DEADLINE.store_us : Field := ⟨0x400010, [], 0, 16, .rw, 1000, .range 10 65535⟩
def Reg.LAD_DEADLINE.nvme_ms : Field := ⟨0x400010, [], 16, 16, .rw, 50, .range 1 65535⟩
def Reg.LAD_DEADLINE.remote_ms : Field := ⟨0x400010, [], 32, 16, .rw, 20, .range 1 65535⟩
def Reg.LAD_DEADLINE.retry_ms : Field := ⟨0x400010, [], 48, 16, .rw, 1000, .any⟩
def Reg.LAD_QDEPTH.demand : Field := ⟨0x400018, [], 0, 16, .ro, 0, .any⟩
def Reg.LAD_QDEPTH.prefetch : Field := ⟨0x400018, [], 16, 16, .ro, 0, .any⟩
def Reg.LAD_QDEPTH.sink : Field := ⟨0x400018, [], 32, 16, .ro, 0, .any⟩
def Reg.LAD_QDEPTH.writeback : Field := ⟨0x400018, [], 48, 16, .ro, 0, .any⟩
def Reg.LAD_COUNT.raises : Field := ⟨0x400020, [], 0, 32, .ro, 0, .any⟩
def Reg.LAD_COUNT.sinks : Field := ⟨0x400020, [], 32, 32, .ro, 0, .any⟩
def Reg.LAD_FAULT.lost : Field := ⟨0x400028, [], 0, 32, .ro, 0, .any⟩
def Reg.LAD_FAULT.dropped : Field := ⟨0x400028, [], 32, 32, .ro, 0, .any⟩
def Reg.CRT_POOL.attic_free : Field := ⟨0x400100, [], 0, 24, .ro, 0, .any⟩
def Reg.CRT_POOL.store_free : Field := ⟨0x400100, [], 32, 32, .ro, 0, .any⟩
def Reg.CRT_CELLAR.nvme_usable : Field := ⟨0x400108, [], 0, 4, .ro, 0, .any⟩
def Reg.CRT_CELLAR.nvme_faulty : Field := ⟨0x400108, [], 4, 4, .ro, 0, .any⟩
def Reg.CRT_CELLAR.remote_targets : Field := ⟨0x400108, [], 8, 8, .ro, 0, .any⟩
def Reg.ATN_CFG.sel_enable : Field := ⟨0x500000, [], 0, 1, .rw, 1, .any⟩
def Reg.ATN_CFG.inexact_evt : Field := ⟨0x500000, [], 1, 1, .rw, 1, .any⟩
def Reg.ATN_CFG.early_hold_us : Field := ⟨0x500000, [], 16, 16, .rw, 500, .range 0 10000⟩
def Reg.ATN_COUNT.ok : Field := ⟨0x500008, [], 0, 32, .ro, 0, .any⟩
def Reg.ATN_COUNT.refused : Field := ⟨0x500008, [], 32, 16, .ro, 0, .any⟩
def Reg.ATN_COUNT.stale : Field := ⟨0x500008, [], 48, 16, .ro, 0, .any⟩
def Reg.ATN_VISIT.visited : Field := ⟨0x500010, [], 0, 32, .ro, 0, .any⟩
def Reg.ATN_VISIT.skipped : Field := ⟨0x500010, [], 32, 32, .ro, 0, .any⟩
def Reg.ATN_PREC.inexact : Field := ⟨0x500018, [], 0, 32, .ro, 0, .any⟩
def Reg.ATN_PREC.poisoned : Field := ⟨0x500018, [], 32, 32, .ro, 0, .any⟩
def Reg.ATN_SEL.misses : Field := ⟨0x500020, [], 0, 32, .ro, 0, .any⟩
def Reg.ATN_SEL.strips : Field := ⟨0x500020, [], 32, 32, .ro, 0, .any⟩
def Reg.CMD_ENTRY.entry : Field := ⟨0x2000000, [(6144, 4096), (4, 128)], 0, 3, .rw, 0, .any⟩
def Reg.CMD_ENTRY.tag : Field := ⟨0x2000000, [(6144, 4096), (4, 128)], 8, 8, .rw, 0, .any⟩
def Reg.CMD_ENTRY.context : Field := ⟨0x2000000, [(6144, 4096), (4, 128)], 16, 10, .rw, 0, .any⟩
def Reg.CMD_ENTRY.near_base : Field := ⟨0x2000000, [(6144, 4096), (4, 128)], 32, 16, .rw, 0, .any⟩
def Reg.CMD_ENTRY.near_len : Field := ⟨0x2000000, [(6144, 4096), (4, 128)], 48, 16, .rw, 0, .any⟩
def Reg.CMD_ARG.half0 : Field := ⟨0x2000008, [(6144, 4096), (4, 128), (13, 8)], 0, 32, .rw, 0, .any⟩
def Reg.CMD_ARG.half1 : Field := ⟨0x2000008, [(6144, 4096), (4, 128), (13, 8)], 32, 32, .rw, 0, .any⟩
def Reg.CMD_ARG14.bank_base : Field := ⟨0x2000070, [(6144, 4096), (4, 128)], 0, 12, .rw, 0, .any⟩
def Reg.CMD_ARG14.bank_len : Field := ⟨0x2000070, [(6144, 4096), (4, 128)], 16, 12, .rw, 0, .any⟩
def Reg.CMD_ARG14.cycle_limit : Field := ⟨0x2000070, [(6144, 4096), (4, 128)], 32, 32, .rw, 0, .any⟩
def Reg.CMD_STATUS.busy : Field := ⟨0x2000078, [(6144, 4096), (4, 128)], 0, 1, .ro, 0, .any⟩
def Reg.CMD_STATUS.abort : Field := ⟨0x2000078, [(6144, 4096), (4, 128)], 1, 1, .w1s, 0, .any⟩
def Reg.CMD_STATUS.inexact : Field := ⟨0x2000078, [(6144, 4096), (4, 128)], 2, 1, .ro, 0, .any⟩
def Reg.CMD_STATUS.poison : Field := ⟨0x2000078, [(6144, 4096), (4, 128)], 3, 1, .ro, 0, .any⟩
def Reg.CMD_STATUS.collide : Field := ⟨0x2000078, [(6144, 4096), (4, 128)], 4, 1, .w1c, 0, .any⟩
def Reg.CMD_STATUS.code : Field := ⟨0x2000078, [(6144, 4096), (4, 128)], 8, 8, .ro, 0, .any⟩
def Reg.CMD_STATUS.pc : Field := ⟨0x2000078, [(6144, 4096), (4, 128)], 16, 10, .ro, 0, .any⟩
def Reg.CMD_STATUS.detail : Field := ⟨0x2000078, [(6144, 4096), (4, 128)], 32, 16, .ro, 0, .any⟩
def Reg.CMD_STATUS.cycles : Field := ⟨0x2000078, [(6144, 4096), (4, 128)], 48, 16, .ro, 0, .any⟩
def Reg.NBU_CTL.host_jobs : Field := ⟨0x600000, [], 0, 1, .rw, 0, .any⟩
def Reg.NBU_CTL.fault_evt : Field := ⟨0x600000, [], 1, 1, .rw, 1, .any⟩
def Reg.NBU_STORE.builtin : Field := ⟨0x600008, [], 0, 6, .ro, 63, .any⟩
def Reg.NBU_STORE.serial : Field := ⟨0x600008, [], 32, 32, .ro, 0, .any⟩
def Reg.NBU_FAULTS.faults : Field := ⟨0x600010, [], 0, 32, .ro, 0, .any⟩
def Reg.NBU_FAULTS.ecc_uncorr : Field := ⟨0x600010, [], 32, 16, .ro, 0, .any⟩
def Reg.NBU_FAULTS.aborted : Field := ⟨0x600010, [], 48, 16, .ro, 0, .any⟩
def Reg.NBU_JOBS.jobs : Field := ⟨0x600018, [], 0, 64, .ro, 0, .any⟩
def Reg.NBU_STATE.busy : Field := ⟨0x2000200, [(6144, 4096)], 0, 4, .ro, 0, .any⟩
def Reg.NBU_STATE.ecc_corr : Field := ⟨0x2000200, [(6144, 4096)], 16, 16, .ro, 0, .any⟩
def Reg.NBU_STATE.store_crc : Field := ⟨0x2000200, [(6144, 4096)], 32, 32, .ro, 0, .any⟩
def Reg.DEN_CFG.chunk_crates : Field := ⟨0x700000, [], 0, 11, .rw, 128, .range 16 1024⟩
def Reg.DEN_CFG.cross : Field := ⟨0x700000, [], 11, 1, .rw, 1, .any⟩
def Reg.DEN_CFG.host_cmds : Field := ⟨0x700000, [], 12, 1, .rw, 0, .any⟩
def Reg.DEN_CFG.fault_evt : Field := ⟨0x700000, [], 13, 1, .rw, 1, .any⟩
def Reg.DEN_CFG.centroid_min : Field := ⟨0x700000, [], 16, 11, .rw, 8, .range 1 1024⟩
def Reg.DEN_TILES.present : Field := ⟨0x700008, [], 0, 32, .ro, 0, .any⟩
def Reg.DEN_TILES.failed : Field := ⟨0x700008, [], 32, 32, .ro, 0, .any⟩
def Reg.DEN_COUNT.commands : Field := ⟨0x700010, [], 0, 32, .ro, 0, .any⟩
def Reg.DEN_COUNT.gmac : Field := ⟨0x700010, [], 32, 32, .ro, 0, .any⟩
def Reg.DEN_QDEPTH.c0 : Field := ⟨0x700018, [], 0, 16, .ro, 0, .any⟩
def Reg.DEN_QDEPTH.c1 : Field := ⟨0x700018, [], 16, 16, .ro, 0, .any⟩
def Reg.DEN_QDEPTH.c2 : Field := ⟨0x700018, [], 32, 16, .ro, 0, .any⟩
def Reg.DEN_QDEPTH.c3 : Field := ⟨0x700018, [], 48, 16, .ro, 0, .any⟩
def Reg.DEN_DLG.accept : Field := ⟨0x700020, [], 0, 1, .rw, 0, .any⟩
def Reg.DEN_DLG.class_max : Field := ⟨0x700020, [], 1, 2, .rw, 1, .any⟩
def Reg.DEN_DLG.partition : Field := ⟨0x700020, [], 4, 4, .rw, 0, .any⟩
def Reg.DEN_DLG.timeout_us : Field := ⟨0x700020, [], 16, 16, .rw, 5000, .range 100 65535⟩
def Reg.DEN_DLG.served : Field := ⟨0x700020, [], 32, 32, .ro, 0, .any⟩
def Reg.DEN_TEST_CMD.word : Field := ⟨0x700100, [(8, 8)], 0, 64, .rw, 0, .any⟩
def Reg.DEN_TEST_CTL.go : Field := ⟨0x700140, [], 0, 1, .w1s, 0, .any⟩
def Reg.DEN_TEST_CTL.busy : Field := ⟨0x700140, [], 1, 1, .ro, 0, .any⟩
def Reg.DEN_TEST_CTL.tile : Field := ⟨0x700140, [], 8, 5, .rw, 0, .any⟩
def Reg.DEN_TEST_CTL.code : Field := ⟨0x700140, [], 16, 8, .ro, 0, .any⟩
def Reg.DEN_TEST_CTL.cycles : Field := ⟨0x700140, [], 32, 32, .ro, 0, .any⟩
def Reg.STP_CFG.shield : Field := ⟨0x800000, [], 0, 4, .rw, 4, .any⟩
def Reg.STP_CFG.max_attempts : Field := ⟨0x800000, [], 4, 8, .rw, 16, .range 1 255⟩
def Reg.STP_CFG.credit_wait_us : Field := ⟨0x800000, [], 12, 16, .rw, 20, .range 1 65535⟩
def Reg.STP_CFG.seal_retry_us : Field := ⟨0x800000, [], 28, 16, .rw, 200, .range 10 65535⟩
def Reg.STP_CFG.prep_query_ms : Field := ⟨0x800000, [], 44, 8, .rw, 20, .range 1 255⟩
def Reg.STP_SEM.inherit_limit_us : Field := ⟨0x800008, [], 0, 32, .rw, 2000, .range 100 1000000⟩
def Reg.STP_SEM.marked : Field := ⟨0x800008, [], 32, 13, .ro, 0, .any⟩
def Reg.STP_CREDIT.c0 : Field := ⟨0x800010, [], 0, 16, .rw, 64, .any⟩
def Reg.STP_CREDIT.c1 : Field := ⟨0x800010, [], 16, 16, .rw, 32, .any⟩
def Reg.STP_CREDIT.c2 : Field := ⟨0x800010, [], 32, 16, .rw, 16, .any⟩
def Reg.STP_CREDIT.c3 : Field := ⟨0x800010, [], 48, 16, .rw, 8, .any⟩
def Reg.STP_SPACE.shared_free : Field := ⟨0x800018, [], 0, 24, .ro, 0, .any⟩
def Reg.STP_SPACE.shared_size : Field := ⟨0x800018, [], 24, 24, .ro, 0, .any⟩
def Reg.STP_COUNT.sealed : Field := ⟨0x800020, [], 0, 32, .ro, 0, .any⟩
def Reg.STP_COUNT.aborts : Field := ⟨0x800020, [], 32, 16, .ro, 0, .any⟩
def Reg.STP_COUNT.preempted : Field := ⟨0x800020, [], 48, 16, .ro, 0, .any⟩
def Reg.STP_PARTS.waiting : Field := ⟨0x800028, [], 0, 16, .ro, 0, .any⟩
def Reg.STP_PARTS.running : Field := ⟨0x800028, [], 16, 16, .ro, 0, .any⟩
def Reg.STP_PARTS.prepared : Field := ⟨0x800028, [], 32, 16, .ro, 0, .any⟩
def Reg.STP_PARTS.behind : Field := ⟨0x800028, [], 48, 16, .ro, 0, .any⟩
def Reg.STP_BUCKET.level : Field := ⟨0x800100, [(48, 8)], 0, 40, .ro, 0, .any⟩
def Reg.HAT_CFG.out_chunk : Field := ⟨0x900000, [], 0, 16, .rw, 64, .range 1 65535⟩
def Reg.HAT_CFG.refuse_evt : Field := ⟨0x900000, [], 16, 1, .rw, 1, .any⟩
def Reg.HAT_C0.layer_ns : Field := ⟨0x900008, [], 0, 18, .rw, 220000, .range 0 242000⟩
def Reg.HAT_C0.step_ns : Field := ⟨0x900008, [], 20, 22, .rw, 3800000, .range 0 4000000⟩
def Reg.HAT_C0.over_mode : Field := ⟨0x900008, [], 42, 1, .rw, 0, .any⟩
def Reg.HAT_C0.tracked : Field := ⟨0x900008, [], 44, 14, .ro, 0, .any⟩
def Reg.HAT_PROJ.lowjob_cycles : Field := ⟨0x900010, [], 0, 16, .rw, 4096, .range 1024 65535⟩
def Reg.HAT_PROJ.home_base_ns : Field := ⟨0x900010, [], 16, 16, .rw, 40000, .any⟩
def Reg.HAT_PROJ.home_per_ns : Field := ⟨0x900010, [], 32, 16, .rw, 150, .any⟩
def Reg.HAT_LOAD.nbu_max_ns : Field := ⟨0x900018, [], 0, 32, .ro, 0, .any⟩
def Reg.HAT_LOAD.tile_max_ns : Field := ⟨0x900018, [], 32, 32, .ro, 0, .any⟩
def Reg.HAT_COUNT.refused_mem : Field := ⟨0x900020, [], 0, 16, .ro, 0, .any⟩
def Reg.HAT_COUNT.refused_time : Field := ⟨0x900020, [], 16, 16, .ro, 0, .any⟩
def Reg.HAT_COUNT.refused_budget : Field := ⟨0x900020, [], 32, 16, .ro, 0, .any⟩
def Reg.HAT_COUNT.outside : Field := ⟨0x900020, [], 48, 16, .ro, 0, .any⟩
def Reg.HAT_HIST_SEL.cls : Field := ⟨0x900100, [], 0, 2, .rw, 0, .any⟩
def Reg.HAT_HIST_SEL.metric : Field := ⟨0x900100, [], 2, 2, .rw, 0, .any⟩
def Reg.HAT_HIST_SEL.snap : Field := ⟨0x900100, [], 4, 1, .w1s, 0, .any⟩
def Reg.HAT_HIST_SEL.clear : Field := ⟨0x900100, [], 5, 1, .w1s, 0, .any⟩
def Reg.HAT_HIST.bucket0 : Field := ⟨0x900108, [(16, 8)], 0, 32, .snap, 0, .any⟩
def Reg.HAT_HIST.bucket1 : Field := ⟨0x900108, [(16, 8)], 32, 32, .snap, 0, .any⟩
def Reg.HAT_TRK_SEL.handle : Field := ⟨0x900200, [], 0, 64, .rw, 0, .any⟩
def Reg.HAT_TRK.handle : Field := ⟨0x900208, [], 0, 64, .snap, 0, .any⟩
def Reg.HAT_TRK.ttft_ns : Field := ⟨0x900210, [], 0, 40, .snap, 0, .any⟩
def Reg.HAT_TRK.tokens : Field := ⟨0x900218, [], 0, 32, .snap, 0, .any⟩
def Reg.HAT_TRK.outside : Field := ⟨0x900218, [], 32, 32, .snap, 0, .any⟩
def Reg.HAT_TRK.tbt_sum_ns : Field := ⟨0x900220, [], 0, 64, .snap, 0, .any⟩
def Reg.HAT_TRK.tbt_max_ns : Field := ⟨0x900228, [], 0, 32, .snap, 0, .any⟩
def Reg.HAT_TRK.res_max_ns : Field := ⟨0x900228, [], 32, 32, .snap, 0, .any⟩
def Reg.HAT_CTX.max_sessions : Field := ⟨0x901000, [(1024, 8)], 0, 25, .rw, 0, .any⟩
def Reg.HAT_CTX.max_c0 : Field := ⟨0x901000, [(1024, 8)], 32, 14, .rw, 0, .any⟩
def Reg.HAT_CTX.class_floor : Field := ⟨0x901000, [(1024, 8)], 46, 2, .rw, 0, .any⟩
def Reg.HAT_TALLY.balance : Field := ⟨0x908000, [(4096, 32)], 0, 48, .rw, 0, .any⟩
def Reg.HAT_TALLY.unmetered : Field := ⟨0x908000, [(4096, 32)], 63, 1, .rw, 1, .any⟩
def Reg.HAT_TALLY.rate : Field := ⟨0x908008, [(4096, 32)], 0, 32, .rw, 0, .any⟩
def Reg.HAT_TALLY.held : Field := ⟨0x908008, [(4096, 32)], 32, 32, .ro, 0, .any⟩
def Reg.HAT_TALLY.cap : Field := ⟨0x908010, [(4096, 32)], 0, 48, .rw, 0, .any⟩
def Reg.HAT_TALLY.add : Field := ⟨0x908018, [(4096, 32)], 0, 48, .wo, 0, .any⟩
def Reg.HAT_TALLY.subtract : Field := ⟨0x908018, [(4096, 32)], 63, 1, .wo, 0, .any⟩
def Reg.INV_CFG.enable : Field := ⟨0xA00000, [], 0, 1, .rw, 1, .any⟩
def Reg.INV_CFG.reclaim : Field := ⟨0xA00000, [], 1, 1, .rw, 1, .any⟩
def Reg.INV_CFG.min_partial : Field := ⟨0xA00000, [], 2, 6, .rw, 16, .any⟩
def Reg.INV_CFG.partial_scan : Field := ⟨0xA00000, [], 8, 8, .rw, 32, .range 1 255⟩
def Reg.INV_CFG.probe_us : Field := ⟨0xA00000, [], 16, 16, .rw, 500, .range 50 65535⟩
def Reg.INV_CFG.pin_ms : Field := ⟨0xA00000, [], 32, 8, .rw, 20, .range 1 255⟩
def Reg.INV_STAT.records_free : Field := ⟨0xA00008, [], 0, 32, .ro, 0, .any⟩
def Reg.INV_STAT.records_total : Field := ⟨0xA00008, [], 32, 32, .ro, 0, .any⟩
def Reg.INV_COUNT.lookups : Field := ⟨0xA00010, [], 0, 32, .ro, 0, .any⟩
def Reg.INV_COUNT.supplied : Field := ⟨0xA00010, [], 32, 32, .ro, 0, .any⟩
def Reg.INV_CHURN.reclaimed : Field := ⟨0xA00018, [], 0, 32, .ro, 0, .any⟩
def Reg.INV_CHURN.withdrawn : Field := ⟨0xA00018, [], 32, 32, .ro, 0, .any⟩
def Reg.TOK_CFG.head : Field := ⟨0xB00000, [], 0, 21, .rw, 786432, .any⟩
def Reg.TOK_CFG.tail : Field := ⟨0xB00000, [], 32, 21, .rw, 262144, .any⟩
def Reg.TOK_COUNT.tokens : Field := ⟨0xB00008, [], 0, 32, .ro, 0, .any⟩
def Reg.TOK_COUNT.truncated : Field := ⟨0xB00008, [], 32, 16, .ro, 0, .any⟩
def Reg.TOK_SLOT.loaded : Field := ⟨0xB00010, [(16, 8)], 0, 1, .ro, 0, .any⟩
def Reg.TOK_SLOT.shared : Field := ⟨0xB00010, [(16, 8)], 1, 1, .ro, 0, .any⟩
def Reg.TOK_SLOT.swapping : Field := ⟨0xB00010, [(16, 8)], 2, 1, .ro, 0, .any⟩
def Reg.TOK_SLOT.owned : Field := ⟨0xB00010, [(16, 8)], 3, 1, .ro, 0, .any⟩
def Reg.TOK_SLOT.owner : Field := ⟨0xB00010, [(16, 8)], 4, 10, .ro, 0, .any⟩
def Reg.TOK_SLOT.binders : Field := ⟨0xB00010, [(16, 8)], 16, 16, .ro, 0, .any⟩
def Reg.TOK_SLOT.size : Field := ⟨0xB00010, [(16, 8)], 32, 32, .ro, 0, .any⟩
def Reg.SMP_COUNT.samples : Field := ⟨0xB00100, [], 0, 32, .ro, 0, .any⟩
def Reg.SMP_COUNT.fallback : Field := ⟨0xB00100, [], 32, 16, .ro, 0, .any⟩
def Reg.SMP_COUNT.stale : Field := ⟨0xB00100, [], 48, 16, .ro, 0, .any⟩
def Reg.EMB_CFG.mode : Field := ⟨0xB00200, [], 0, 1, .rw, 0, .any⟩
def Reg.EMB_CFG.decay_us : Field := ⟨0xB00200, [], 16, 16, .rw, 1000, .range 10 65535⟩
def Reg.EMB_CFG.depth : Field := ⟨0xB00200, [], 32, 3, .rw, 2, .range 1 4⟩
def Reg.EMB_COUNT.hits : Field := ⟨0xB00208, [], 0, 24, .ro, 0, .any⟩
def Reg.EMB_COUNT.misses : Field := ⟨0xB00208, [], 24, 24, .ro, 0, .any⟩
def Reg.EMB_COUNT.defaults : Field := ⟨0xB00208, [], 48, 16, .ro, 0, .any⟩
def Reg.CAM_BANK.width : Field := ⟨0xC00000, [(64, 8)], 0, 3, .ro, 1, .any⟩
def Reg.CAM_BANK.client : Field := ⟨0xC00000, [(64, 8)], 3, 2, .rw, 0, .any⟩
def Reg.CAM_BANK.writable : Field := ⟨0xC00000, [(64, 8)], 5, 1, .rw, 0, .any⟩
def Reg.CAM_BANK.owner : Field := ⟨0xC00000, [(64, 8)], 6, 10, .rw, 0, .any⟩
def Reg.CAM_BANK.entries : Field := ⟨0xC00000, [(64, 8)], 16, 13, .ro, 0, .any⟩
def Reg.CAM_BANK.shifting : Field := ⟨0xC00000, [(64, 8)], 29, 1, .ro, 0, .any⟩
def Reg.CAM_GEN.current : Field := ⟨0xC00200, [], 0, 32, .ro, 1, .any⟩
def Reg.CAM_GEN.oldest_held : Field := ⟨0xC00200, [], 32, 32, .ro, 1, .any⟩
def Reg.CAM_LOOKUP_KEY.key : Field := ⟨0xC00300, [(5, 8)], 0, 64, .rw, 0, .any⟩
def Reg.CAM_LOOKUP_MASK.banks : Field := ⟨0xC00328, [], 0, 64, .rw, 0, .any⟩
def Reg.CAM_LOOKUP_CTL.go : Field := ⟨0xC00330, [], 0, 1, .w1s, 0, .any⟩
def Reg.CAM_LOOKUP_CTL.busy : Field := ⟨0xC00330, [], 1, 1, .ro, 0, .any⟩
def Reg.CAM_LOOKUP_CTL.width : Field := ⟨0xC00330, [], 2, 3, .rw, 1, .any⟩
def Reg.CAM_LOOKUP_RES0.action : Field := ⟨0xC00338, [], 0, 32, .ro, 0, .any⟩
def Reg.CAM_LOOKUP_RES0.generation : Field := ⟨0xC00338, [], 32, 32, .ro, 0, .any⟩
def Reg.CAM_LOOKUP_RES1.hit : Field := ⟨0xC00340, [], 0, 1, .ro, 0, .any⟩
def Reg.CAM_LOOKUP_RES1.bank : Field := ⟨0xC00340, [], 1, 6, .ro, 0, .any⟩
def Reg.CAM_LOOKUP_RES1.index : Field := ⟨0xC00340, [], 7, 12, .ro, 0, .any⟩
def Reg.CAM_LOOKUP_RES1.priority : Field := ⟨0xC00340, [], 32, 16, .ro, 0, .any⟩
def Reg.CAM_COUNT.lookups : Field := ⟨0xC00348, [], 0, 40, .ro, 0, .any⟩
def Reg.CAM_COUNT.writes : Field := ⟨0xC00348, [], 40, 24, .ro, 0, .any⟩
def Reg.VSR_CFG.batch_ns : Field := ⟨0xD00000, [], 0, 16, .rw, 500, .any⟩
def Reg.VSR_CFG.batch_min : Field := ⟨0xD00000, [], 16, 5, .rw, 8, .range 2 31⟩
def Reg.VSR_CFG.max_visits : Field := ⟨0xD00000, [], 32, 17, .rw, 8192, .range 1 65536⟩
def Reg.VSR_TIMEOUT.shard_timeout_us : Field := ⟨0xD00008, [], 0, 32, .rw, 5000, .range 100 1000000⟩
def Reg.VSR_LOAD_SRC.addr : Field := ⟨0xD00010, [], 0, 64, .rw, 0, .any⟩
def Reg.VSR_LOAD_CTL.go : Field := ⟨0xD00018, [], 0, 1, .w1s, 0, .any⟩
def Reg.VSR_LOAD_CTL.op : Field := ⟨0xD00018, [], 1, 2, .rw, 0, .any⟩
def Reg.VSR_LOAD_CTL.shared : Field := ⟨0xD00018, [], 3, 1, .rw, 0, .any⟩
def Reg.VSR_LOAD_CTL.slot : Field := ⟨0xD00018, [], 4, 6, .rw, 0, .any⟩
def Reg.VSR_LOAD_CTL.context : Field := ⟨0xD00018, [], 10, 10, .rw, 0, .any⟩
def Reg.VSR_LOAD_CTL.length : Field := ⟨0xD00018, [], 32, 32, .rw, 0, .any⟩
def Reg.VSR_LOAD_STATUS.busy : Field := ⟨0xD00020, [], 0, 1, .ro, 0, .any⟩
def Reg.VSR_LOAD_STATUS.code : Field := ⟨0xD00020, [], 8, 8, .ro, 0, .any⟩
def Reg.VSR_LOAD_STATUS.detail : Field := ⟨0xD00020, [], 16, 8, .ro, 0, .any⟩
def Reg.VSR_SLOT.loaded : Field := ⟨0xD00100, [(64, 8)], 0, 1, .ro, 0, .any⟩
def Reg.VSR_SLOT.shared : Field := ⟨0xD00100, [(64, 8)], 1, 1, .ro, 0, .any⟩
def Reg.VSR_SLOT.damaged : Field := ⟨0xD00100, [(64, 8)], 2, 1, .ro, 0, .any⟩
def Reg.VSR_SLOT.old_held : Field := ⟨0xD00100, [(64, 8)], 3, 1, .ro, 0, .any⟩
def Reg.VSR_SLOT.owner : Field := ⟨0xD00100, [(64, 8)], 4, 10, .ro, 0, .any⟩
def Reg.VSR_SLOT.index_id : Field := ⟨0xD00100, [(64, 8)], 16, 16, .ro, 0, .any⟩
def Reg.VSR_SLOT.shard : Field := ⟨0xD00100, [(64, 8)], 32, 16, .ro, 0, .any⟩
def Reg.VSR_SLOT.pages : Field := ⟨0xD00100, [(64, 8)], 48, 16, .ro, 0, .any⟩
def Reg.VSR_COUNT.queries : Field := ⟨0xD00028, [], 0, 32, .ro, 0, .any⟩
def Reg.VSR_COUNT.visits : Field := ⟨0xD00028, [], 32, 32, .ro, 0, .any⟩
def Reg.LNK_CTL.enable : Field := ⟨0x1000000, [(48, 65536)], 0, 1, .rw, 0, .any⟩
def Reg.LNK_CTL.retrain : Field := ⟨0x1000000, [(48, 65536)], 1, 1, .w1s, 0, .any⟩
def Reg.LNK_CTL.express : Field := ⟨0x1000000, [(48, 65536)], 2, 1, .rw, 1, .any⟩
def Reg.LNK_CTL.shp_ovh : Field := ⟨0x1000000, [(48, 65536)], 16, 8, .rw, 8, .any⟩
def Reg.LNK_STATUS.state : Field := ⟨0x1000008, [(48, 65536)], 0, 2, .ro, 0, .any⟩
def Reg.LNK_STATUS.version : Field := ⟨0x1000008, [(48, 65536)], 8, 8, .ro, 0, .any⟩
def Reg.LNK_STATUS.partner : Field := ⟨0x1000008, [(48, 65536)], 16, 11, .ro, 0, .any⟩
def Reg.LNK_STATUS.partner_kind : Field := ⟨0x1000008, [(48, 65536)], 27, 2, .ro, 0, .any⟩
def Reg.LNK_STATUS.crypto : Field := ⟨0x1000008, [(48, 65536)], 29, 1, .ro, 0, .any⟩
def Reg.LNK_STATUS.lanes_reversed : Field := ⟨0x1000008, [(48, 65536)], 30, 1, .ro, 0, .any⟩
def Reg.LNK_STATUS.link_epoch : Field := ⟨0x1000008, [(48, 65536)], 32, 16, .ro, 0, .any⟩
def Reg.LNK_STATUS.fail_code : Field := ⟨0x1000008, [(48, 65536)], 56, 8, .ro, 0, .any⟩
def Reg.LNK_HOLD.port_hold_ns : Field := ⟨0x1000010, [(48, 65536)], 0, 27, .rw, 0, .range 1000000 100000000⟩
def Reg.LNK_CREDIT.vc0 : Field := ⟨0x1000018, [(48, 65536)], 0, 12, .ro, 0, .any⟩
def Reg.LNK_CREDIT.step : Field := ⟨0x1000018, [(48, 65536)], 12, 12, .ro, 0, .any⟩
def Reg.LNK_CREDIT.vc5 : Field := ⟨0x1000018, [(48, 65536)], 24, 12, .ro, 0, .any⟩
def Reg.LNK_CREDIT.vc6 : Field := ⟨0x1000018, [(48, 65536)], 36, 12, .ro, 0, .any⟩
def Reg.LNK_CREDIT.vc7 : Field := ⟨0x1000018, [(48, 65536)], 48, 12, .ro, 0, .any⟩
def Reg.LNK_EXPRESS.misses : Field := ⟨0x1000020, [(48, 65536)], 0, 32, .ro, 0, .any⟩
def Reg.LNK_EXPRESS.guard : Field := ⟨0x1000020, [(48, 65536)], 32, 16, .ro, 0, .any⟩
def Reg.LNK_EXPRESS.suspended : Field := ⟨0x1000020, [(48, 65536)], 48, 1, .ro, 0, .any⟩
def Reg.LNK_EXPRESS.partner_suspended : Field := ⟨0x1000020, [(48, 65536)], 49, 1, .ro, 0, .any⟩
def Reg.LNK_TIME.offset_ns : Field := ⟨0x1000028, [(48, 65536)], 0, 32, .ro, 0, .any⟩
def Reg.LNK_TIME.delay_ns : Field := ⟨0x1000028, [(48, 65536)], 32, 16, .ro, 0, .any⟩
def Reg.LNK_TIME.asym_ps : Field := ⟨0x1000028, [(48, 65536)], 48, 16, .rw, 0, .any⟩
def Reg.LNK_ERR.fec_uncorr : Field := ⟨0x1000030, [(48, 65536)], 0, 16, .ro, 0, .any⟩
def Reg.LNK_ERR.crc : Field := ⟨0x1000030, [(48, 65536)], 16, 16, .ro, 0, .any⟩
def Reg.LNK_ERR.replays : Field := ⟨0x1000030, [(48, 65536)], 32, 16, .ro, 0, .any⟩
def Reg.LNK_ERR.auth_fail : Field := ⟨0x1000030, [(48, 65536)], 48, 16, .ro, 0, .any⟩
def Reg.LNK_DISCARD.vc : Field := ⟨0x1000038, [(48, 65536)], 0, 64, .ro, 0, .any⟩
def Reg.LNK_SHP_CFG.rate : Field := ⟨0x1000040, [(48, 65536), (8, 8)], 0, 32, .rw, 0, .any⟩
def Reg.LNK_SHP_CFG.burst_kib : Field := ⟨0x1000040, [(48, 65536), (8, 8)], 32, 16, .rw, 0, .any⟩
def Reg.LNK_SHP_CFG.reset_mode : Field := ⟨0x1000040, [(48, 65536), (8, 8)], 48, 1, .rw, 0, .any⟩
def Reg.LNK_XCFG.retx_us : Field := ⟨0x1300000, [], 0, 16, .rw, 200, .range 10 65535⟩
def Reg.LNK_XCFG.retx_max : Field := ⟨0x1300000, [], 16, 4, .rw, 8, .range 1 15⟩
def Reg.LNK_XCFG.fast_resend : Field := ⟨0x1300000, [], 20, 4, .rw, 1, .any⟩
def Reg.LNK_XCFG.epoch_hold_us : Field := ⟨0x1300000, [], 24, 16, .rw, 1000, .any⟩
def Reg.LNK_TSYNC.source : Field := ⟨0x1300008, [], 0, 2, .rw, 0, .any⟩
def Reg.LNK_TSYNC.parent_link : Field := ⟨0x1300008, [], 8, 6, .ro, 0, .any⟩
def Reg.LNK_TSYNC.rank : Field := ⟨0x1300008, [], 16, 4, .ro, 15, .any⟩
def Reg.LNK_TSYNC.err_ns : Field := ⟨0x1300008, [], 20, 16, .ro, 65535, .any⟩
def Reg.LNK_TSYNC.locked : Field := ⟨0x1300008, [], 36, 1, .ro, 0, .any⟩
def Reg.LNK_EXPCFG.period_ns : Field := ⟨0x1300010, [], 0, 16, .rw, 8000, .any⟩
def Reg.LNK_EXPCFG.window_ns : Field := ⟨0x1300010, [], 16, 16, .rw, 1500, .any⟩
def Reg.LNK_EXPCFG.guard_ns : Field := ⟨0x1300010, [], 32, 8, .rw, 64, .any⟩
def Reg.LNK_EXPCFG.phase_ns : Field := ⟨0x1300010, [], 40, 16, .rw, 0, .any⟩
def Reg.LNK_EXPCFG.miss_limit : Field := ⟨0x1300010, [], 56, 4, .rw, 4, .range 1 15⟩
def Reg.LNK_DUP.dups : Field := ⟨0x1300018, [], 0, 32, .ro, 0, .any⟩
def Reg.LNK_DUP.stale : Field := ⟨0x1300018, [], 32, 32, .ro, 0, .any⟩
def Reg.LNK_ROUTE_ERR.misroute : Field := ⟨0x1300020, [], 0, 32, .ro, 0, .any⟩
def Reg.LNK_ROUTE_ERR.miswire : Field := ⟨0x1300020, [], 32, 32, .ro, 0, .any⟩
def Reg.ETH_CTL.enable : Field := ⟨0x1400000, [(12, 4096)], 0, 1, .rw, 0, .any⟩
def Reg.ETH_CTL.kr : Field := ⟨0x1400000, [(12, 4096)], 1, 1, .rw, 0, .any⟩
def Reg.ETH_CTL.shp_ovh : Field := ⟨0x1400000, [(12, 4096)], 16, 8, .rw, 20, .any⟩
def Reg.ETH_CTL.pcp_map : Field := ⟨0x1400000, [(12, 4096)], 24, 24, .rw, 342391, .any⟩
def Reg.ETH_STATUS.state : Field := ⟨0x1400008, [(12, 4096)], 0, 2, .ro, 0, .any⟩
def Reg.ETH_STATUS.port_epoch : Field := ⟨0x1400008, [(12, 4096)], 16, 16, .ro, 0, .any⟩
def Reg.ETH_STATUS.discard : Field := ⟨0x1400008, [(12, 4096)], 32, 32, .ro, 0, .any⟩
def Reg.ETH_HOLD.port_hold_ns : Field := ⟨0x1400010, [(12, 4096)], 0, 27, .rw, 0, .range 1000000 100000000⟩
def Reg.ETH_MAC.mac : Field := ⟨0x1400018, [(12, 4096)], 0, 48, .rw, 0, .any⟩
def Reg.ETH_SHP_CFG.rate : Field := ⟨0x1400040, [(12, 4096), (8, 8)], 0, 32, .rw, 0, .any⟩
def Reg.ETH_SHP_CFG.burst_kib : Field := ⟨0x1400040, [(12, 4096), (8, 8)], 32, 16, .rw, 0, .any⟩
def Reg.ETH_SHP_CFG.reset_mode : Field := ⟨0x1400040, [(12, 4096), (8, 8)], 48, 1, .rw, 0, .any⟩
def Reg.ETH_CFG.rml_udp : Field := ⟨0x140F000, [], 0, 16, .rw, 47806, .any⟩
def Reg.ETH_CFG.miss_action : Field := ⟨0x140F000, [], 16, 3, .rw, 7, .any⟩
def Reg.ETH_CFG.reasm_us : Field := ⟨0x140F000, [], 32, 16, .rw, 500, .range 50 65535⟩
def Reg.ETH_PTP.domain : Field := ⟨0x140F008, [], 0, 8, .rw, 0, .any⟩
def Reg.ETH_PTP.port : Field := ⟨0x140F008, [], 8, 4, .rw, 0, .any⟩
def Reg.ETH_PTP.boundary : Field := ⟨0x140F008, [], 12, 1, .rw, 0, .any⟩
def Reg.ETH_PTP.state : Field := ⟨0x140F008, [], 13, 3, .ro, 0, .any⟩
def Reg.ETH_NEIGH.ip0 : Field := ⟨0x1410000, [(2048, 32)], 0, 64, .rw, 0, .any⟩
def Reg.ETH_NEIGH.ip1 : Field := ⟨0x1410008, [(2048, 32)], 0, 64, .rw, 0, .any⟩
def Reg.ETH_NEIGH.mac : Field := ⟨0x1410010, [(2048, 32)], 0, 48, .rw, 0, .any⟩
def Reg.ETH_NEIGH.vlan : Field := ⟨0x1410010, [(2048, 32)], 48, 12, .rw, 0, .any⟩
def Reg.ETH_NEIGH.valid : Field := ⟨0x1410018, [(2048, 32)], 0, 1, .rw, 0, .any⟩
def Reg.RMA_CFG.spill_low : Field := ⟨0x1500000, [], 0, 16, .rw, 64, .range 1 1024⟩
def Reg.RMA_CFG.fence_limit_us : Field := ⟨0x1500000, [], 16, 16, .rw, 10000, .range 100 65535⟩
def Reg.RMA_CFG.cnp_interval_us : Field := ⟨0x1500000, [], 32, 16, .rw, 50, .range 1 65535⟩
def Reg.RMA_CFG.prot_evt : Field := ⟨0x1500000, [], 48, 1, .rw, 1, .any⟩
def Reg.RMA_CC.cut : Field := ⟨0x1500008, [], 0, 8, .rw, 64, .range 1 255⟩
def Reg.RMA_CC.inc_us : Field := ⟨0x1500008, [], 8, 16, .rw, 50, .range 1 65535⟩
def Reg.RMA_CC.step_mbps : Field := ⟨0x1500008, [], 24, 16, .rw, 500, .any⟩
def Reg.RMA_CC.min_mbps : Field := ⟨0x1500008, [], 40, 16, .rw, 100, .range 1 65535⟩
def Reg.RMA_PFC.enable : Field := ⟨0x1500010, [(12, 8)], 0, 8, .rw, 255, .any⟩
def Reg.RMA_PFC.xoff_kib : Field := ⟨0x1500010, [(12, 8)], 8, 12, .rw, 512, .any⟩
def Reg.RMA_PFC.xon_kib : Field := ⟨0x1500010, [(12, 8)], 20, 12, .rw, 256, .any⟩
def Reg.RMA_PFC.storm_ms : Field := ⟨0x1500010, [(12, 8)], 32, 16, .rw, 100, .any⟩
def Reg.RMA_PFC.paused : Field := ⟨0x1500010, [(12, 8)], 48, 8, .ro, 0, .any⟩
def Reg.RMA_PFC.storm : Field := ⟨0x1500010, [(12, 8)], 56, 8, .ro, 0, .any⟩
def Reg.RMA_SPILL_BASE.addr : Field := ⟨0x1500080, [], 0, 64, .rw, 0, .any⟩
def Reg.RMA_SPILL.count : Field := ⟨0x1500088, [], 0, 21, .rw, 0, .any⟩
def Reg.RMA_SPILL.enable : Field := ⟨0x1500088, [], 21, 1, .rw, 0, .any⟩
def Reg.RMA_SPILL.spilled : Field := ⟨0x1500088, [], 32, 21, .ro, 0, .any⟩
def Reg.RMA_AREA.units : Field := ⟨0x1500090, [], 0, 16, .rw, 0, .any⟩
def Reg.RMA_CONN_CTL.go : Field := ⟨0x15000A0, [], 0, 1, .w1s, 0, .any⟩
def Reg.RMA_CONN_CTL.busy : Field := ⟨0x15000A0, [], 1, 1, .ro, 0, .any⟩
def Reg.RMA_CONN_CTL.op : Field := ⟨0x15000A0, [], 2, 3, .rw, 0, .any⟩
def Reg.RMA_CONN_CTL.code : Field := ⟨0x15000A0, [], 8, 8, .ro, 0, .any⟩
def Reg.RMA_CONN_CTL.detail : Field := ⟨0x15000A0, [], 16, 8, .ro, 0, .any⟩
def Reg.RMA_CONN_CTL.conn : Field := ⟨0x15000A0, [], 24, 24, .rw, 0, .any⟩
def Reg.RMA_CONN_DATA.word : Field := ⟨0x1500100, [(32, 8)], 0, 64, .rw, 0, .any⟩
def Reg.RMA_MR_CTL.index : Field := ⟨0x1500200, [], 0, 16, .rw, 0, .any⟩
def Reg.RMA_MR_CTL.go : Field := ⟨0x1500200, [], 16, 1, .w1s, 0, .any⟩
def Reg.RMA_MR_CTL.busy : Field := ⟨0x1500200, [], 17, 1, .ro, 0, .any⟩
def Reg.RMA_MR_CTL.code : Field := ⟨0x1500200, [], 24, 8, .ro, 0, .any⟩
def Reg.RMA_MR_CTL.gen : Field := ⟨0x1500200, [], 32, 32, .ro, 0, .any⟩
def Reg.RMA_MR_DATA.valid : Field := ⟨0x1500208, [], 0, 1, .rw, 0, .any⟩
def Reg.RMA_MR_DATA.read : Field := ⟨0x1500208, [], 1, 1, .rw, 0, .any⟩
def Reg.RMA_MR_DATA.write : Field := ⟨0x1500208, [], 2, 1, .rw, 0, .any⟩
def Reg.RMA_MR_DATA.pd : Field := ⟨0x1500208, [], 8, 8, .rw, 0, .any⟩
def Reg.RMA_MR_DATA.tag : Field := ⟨0x1500208, [], 16, 16, .rw, 0, .any⟩
def Reg.RMA_MR_DATA.offset : Field := ⟨0x1500210, [], 0, 32, .rw, 0, .any⟩
def Reg.RMA_MR_DATA.length : Field := ⟨0x1500210, [], 32, 32, .rw, 0, .any⟩
def Reg.RMA_COUNT.dropped : Field := ⟨0x1500300, [], 0, 24, .ro, 0, .any⟩
def Reg.RMA_COUNT.dup_acks : Field := ⟨0x1500300, [], 24, 16, .ro, 0, .any⟩
def Reg.RMA_COUNT.fetch_drops : Field := ⟨0x1500300, [], 40, 12, .ro, 0, .any⟩
def Reg.RMA_COUNT.prot_refusals : Field := ⟨0x1500300, [], 52, 12, .ro, 0, .any⟩
def Reg.RMA_PD.owner : Field := ⟨0x1501000, [(256, 8)], 0, 10, .rw, 0, .any⟩
def Reg.RMA_PD.valid : Field := ⟨0x1501000, [(256, 8)], 10, 1, .rw, 0, .any⟩
def Reg.RMA_PD.generation : Field := ⟨0x1501000, [(256, 8)], 32, 32, .ro, 0, .any⟩
def Reg.RMA_POOL.conn : Field := ⟨0x1502000, [(256, 16)], 0, 24, .rw, 0, .any⟩
def Reg.RMA_POOL.valid : Field := ⟨0x1502000, [(256, 16)], 31, 1, .rw, 0, .any⟩
def Reg.RMA_POOL.key : Field := ⟨0x1502000, [(256, 16)], 32, 32, .rw, 0, .any⟩
def Reg.RMA_POOL.first_extent : Field := ⟨0x1502008, [(256, 16)], 0, 16, .rw, 0, .any⟩
def Reg.RMA_POOL.extents : Field := ⟨0x1502008, [(256, 16)], 16, 16, .rw, 0, .any⟩
def Reg.RMA_POOL.lost : Field := ⟨0x1502008, [(256, 16)], 32, 1, .ro, 0, .any⟩
def Reg.EVT_CFG.coalesce_ns : Field := ⟨0x1600000, [], 0, 32, .rw, 1000000, .range 1000 1000000000⟩
def Reg.EVT_CFG.used : Field := ⟨0x1600000, [], 32, 10, .ro, 0, .any⟩
def Reg.EVT_RATE.c1 : Field := ⟨0x1600008, [], 0, 16, .rw, 1000, .any⟩
def Reg.EVT_RATE.c2 : Field := ⟨0x1600008, [], 16, 16, .rw, 100, .any⟩
def Reg.EVT_RATE.c3 : Field := ⟨0x1600008, [], 32, 16, .rw, 10, .any⟩
def Reg.EVT_DROP.c1 : Field := ⟨0x1600010, [], 0, 16, .ro, 0, .any⟩
def Reg.EVT_DROP.c2 : Field := ⟨0x1600010, [], 16, 16, .ro, 0, .any⟩
def Reg.EVT_DROP.c3 : Field := ⟨0x1600010, [], 32, 16, .ro, 0, .any⟩
def Reg.EVT_DROP.spilled : Field := ⟨0x1600010, [], 48, 16, .ro, 0, .any⟩
def Reg.MNT_ACTIVE.running : Field := ⟨0x1601000, [], 0, 9, .ro, 0, .any⟩
def Reg.MNT_ACTIVE.waiting : Field := ⟨0x1601000, [], 9, 9, .ro, 0, .any⟩
def Reg.MNT_REQ.go : Field := ⟨0x1601008, [], 0, 1, .w1s, 0, .any⟩
def Reg.MNT_REQ.activity : Field := ⟨0x1601008, [], 1, 4, .rw, 0, .any⟩
def Reg.MNT_REQ.target : Field := ⟨0x1601008, [], 8, 16, .rw, 0, .any⟩
def Reg.MNT_REQ.fw_slot : Field := ⟨0x1601008, [], 24, 3, .rw, 0, .any⟩
def Reg.MNT_STATUS.busy : Field := ⟨0x1601010, [], 0, 1, .ro, 0, .any⟩
def Reg.MNT_STATUS.code : Field := ⟨0x1601010, [], 8, 8, .ro, 0, .any⟩
def Reg.MNT_STATUS.conflict : Field := ⟨0x1601010, [], 16, 4, .ro, 0, .any⟩
def Reg.MNT_WARN_CFG.attic_ce : Field := ⟨0x1601020, [], 0, 16, .rw, 64, .any⟩
def Reg.MNT_WARN_CFG.store_ce : Field := ⟨0x1601020, [], 16, 16, .rw, 256, .any⟩
def Reg.MNT_WARN_CFG.ber_exp : Field := ⟨0x1601020, [], 32, 8, .rw, 6, .any⟩
def Reg.MNT_WARN_CFG.temp_margin : Field := ⟨0x1601020, [], 40, 8, .rw, 5, .any⟩
def Reg.MNT_WARN_CFG.droop : Field := ⟨0x1601020, [], 48, 14, .rw, 16, .any⟩
def Reg.MNT_WARN_CFG.auto_spare : Field := ⟨0x1601020, [], 62, 1, .rw, 0, .any⟩
def Reg.MNT_WARN_CFG.auto_retrain : Field := ⟨0x1601020, [], 63, 1, .rw, 0, .any⟩
def Reg.MNT_WARN_STATE.active : Field := ⟨0x1601028, [], 0, 5, .ro, 0, .any⟩
def Reg.MNT_WARN_STATE.raised : Field := ⟨0x1601028, [], 32, 32, .ro, 0, .any⟩
def Reg.CKP_MIR_CFG.witness_us : Field := ⟨0x1602000, [], 0, 16, .rw, 1000, .range 100 10000⟩
def Reg.CKP_MIR_CFG.apply_steps : Field := ⟨0x1602000, [], 16, 8, .rw, 64, .range 1 255⟩
def Reg.CKP_MIR_CFG.prep_wait_us : Field := ⟨0x1602000, [], 24, 16, .rw, 1000, .range 100 65535⟩
def Reg.CKP_MIR_CFG.sync_mbps : Field := ⟨0x1602000, [], 40, 16, .rw, 4000, .range 1 65535⟩
def Reg.CKP_MIR_STAT.shadows : Field := ⟨0x1602008, [], 0, 25, .ro, 0, .any⟩
def Reg.CKP_MIR_STAT.unsynced : Field := ⟨0x1602008, [], 32, 24, .ro, 0, .any⟩
def Reg.CKP_LOST.device : Field := ⟨0x1602010, [(16, 8)], 0, 11, .ro, 0, .any⟩
def Reg.CKP_LOST.valid : Field := ⟨0x1602010, [(16, 8)], 15, 1, .ro, 0, .any⟩
def Reg.CKP_LOST.time_us : Field := ⟨0x1602010, [(16, 8)], 16, 48, .ro, 0, .any⟩
def Reg.CKP_DRAIN.mbps : Field := ⟨0x1602090, [], 0, 16, .rw, 2000, .range 1 65535⟩
def Reg.CKP_DRAIN.keep : Field := ⟨0x1602090, [], 16, 4, .rw, 1, .any⟩
def Reg.CKP_LOG.flush_us : Field := ⟨0x1602098, [], 0, 32, .rw, 1000, .range 100 1000000⟩
def Reg.CKP_LOG.records : Field := ⟨0x1602098, [], 32, 32, .ro, 0, .any⟩
def Reg.CKP_HANDOVER.go : Field := ⟨0x16020A0, [], 0, 1, .w1s, 0, .any⟩
def Reg.CKP_HANDOVER.busy : Field := ⟨0x16020A0, [], 1, 1, .ro, 0, .any⟩
def Reg.CKP_HANDOVER.device : Field := ⟨0x16020A0, [], 5, 11, .rw, 0, .any⟩
def Reg.CKP_HANDOVER.moved : Field := ⟨0x16020A0, [], 32, 32, .ro, 0, .any⟩
def Reg.CKP_TRUNK_DEL.serial : Field := ⟨0x16020A8, [], 0, 32, .wo, 0, .any⟩
def Reg.CKP_TRUNK_DEL.context : Field := ⟨0x16020A8, [], 32, 10, .wo, 0, .any⟩
def Reg.SEC_CFG.lockdown : Field := ⟨0x1700000, [], 0, 1, .w1s, 0, .any⟩
def Reg.SEC_CFG.meas_evt : Field := ⟨0x1700000, [], 1, 1, .rw, 1, .any⟩
def Reg.SEC_CFG.trunk_index : Field := ⟨0x1700000, [], 4, 2, .rw, 0, .any⟩
def Reg.SEC_STATE.dk : Field := ⟨0x1700008, [], 0, 2, .ro, 0, .any⟩
def Reg.SEC_STATE.lmk : Field := ⟨0x1700008, [], 4, 4, .ro, 0, .any⟩
def Reg.SEC_STATE.trunk : Field := ⟨0x1700008, [], 8, 4, .ro, 0, .any⟩
def Reg.SEC_STATE.enrolled : Field := ⟨0x1700008, [], 12, 4, .ro, 0, .any⟩
def Reg.SEC_STATE.revoked : Field := ⟨0x1700008, [], 16, 4, .ro, 0, .any⟩
def Reg.SEC_STATE.sticky : Field := ⟨0x1700008, [], 20, 7, .ro, 0, .any⟩
def Reg.SEC_STATE.lockdown : Field := ⟨0x1700008, [], 27, 1, .ro, 0, .any⟩
def Reg.SEC_STATE.sessions : Field := ⟨0x1700008, [], 28, 3, .ro, 0, .any⟩
def Reg.SEC_STATE.meas_gen : Field := ⟨0x1700008, [], 32, 32, .ro, 0, .any⟩
def Reg.SEC_MEAS_SEL.index : Field := ⟨0x1700100, [], 0, 8, .rw, 0, .any⟩
def Reg.SEC_MEAS_SEL.snap : Field := ⟨0x1700100, [], 8, 1, .w1s, 0, .any⟩
def Reg.SEC_MEAS.value : Field := ⟨0x1700108, [(6, 8)], 0, 64, .snap, 0, .any⟩
def Reg.SEC_COUNT.bar4_dropped : Field := ⟨0x1700140, [], 0, 32, .ro, 0, .any⟩
def Reg.SEC_COUNT.key_fail : Field := ⟨0x1700140, [], 32, 16, .ro, 0, .any⟩
def Reg.SEC_COUNT.unwrap_fail : Field := ⟨0x1700140, [], 48, 16, .ro, 0, .any⟩
def Reg.SEC_VDM_ID.vendor : Field := ⟨0x1700148, [], 0, 32, .ro, 0, .any⟩
def Reg.SEC_CTX.key_id : Field := ⟨0x1701000, [(1024, 8)], 0, 32, .ro, 0, .any⟩
def Reg.SEC_CTX.valid : Field := ⟨0x1701000, [(1024, 8)], 32, 1, .ro, 0, .any⟩
def Reg.SEC_CTX.dk_index : Field := ⟨0x1701000, [(1024, 8)], 33, 1, .ro, 0, .any⟩
def Reg.CLK_RESET.warm : Field := ⟨0x100000, [], 0, 1, .w1s, 0, .any⟩
def Reg.CLK_RESET.cold : Field := ⟨0x100000, [], 1, 1, .w1s, 0, .any⟩
def Reg.CLK_RESET.key : Field := ⟨0x100000, [], 8, 8, .wo, 0, .any⟩
def Reg.CLK_START.kind : Field := ⟨0x100008, [], 0, 2, .ro, 0, .any⟩
def Reg.CLK_START.cause : Field := ⟨0x100008, [], 4, 4, .ro, 0, .any⟩
def Reg.CLK_START.fallback : Field := ⟨0x100008, [], 8, 8, .ro, 0, .any⟩
def Reg.CLK_START.start_count : Field := ⟨0x100008, [], 16, 16, .ro, 0, .any⟩
def Reg.CLK_START.save_us : Field := ⟨0x100008, [], 32, 16, .ro, 0, .any⟩
def Reg.CLK_START.orphans : Field := ⟨0x100008, [], 48, 16, .ro, 0, .any⟩
def Reg.CLK_READY.attic_links : Field := ⟨0x100010, [], 0, 16, .ro, 0, .any⟩
def Reg.CLK_READY.store : Field := ⟨0x100010, [], 16, 16, .ro, 0, .any⟩
def Reg.CLK_READY.full : Field := ⟨0x100010, [], 32, 16, .ro, 0, .any⟩
def Reg.CLK_READY.pcie : Field := ⟨0x100010, [], 48, 16, .ro, 0, .any⟩
def Reg.CLK_MON.osc_ok : Field := ⟨0x100018, [], 0, 1, .ro, 0, .any⟩
def Reg.CLK_MON.osc_lost : Field := ⟨0x100018, [], 1, 1, .w1c, 0, .any⟩
def Reg.CLK_MON.osc_count : Field := ⟨0x100018, [], 16, 16, .ro, 0, .any⟩
def Reg.CLK_REF.stable : Field := ⟨0x100040, [(7, 8)], 0, 1, .ro, 0, .any⟩
def Reg.CLK_REF.lost : Field := ⟨0x100040, [(7, 8)], 1, 1, .w1c, 0, .any⟩
def Reg.CLK_REF.count : Field := ⟨0x100040, [(7, 8)], 16, 16, .ro, 0, .any⟩
def Reg.CLK_REF.ppm : Field := ⟨0x100040, [(7, 8)], 32, 32, .ro, 0, .any⟩
def Reg.CLK_PLL.set_mhz : Field := ⟨0x100100, [(31, 8)], 0, 16, .ro, 0, .any⟩
def Reg.CLK_PLL.state : Field := ⟨0x100100, [(31, 8)], 16, 2, .ro, 0, .any⟩
def Reg.CLK_PLL.clk_loss : Field := ⟨0x100100, [(31, 8)], 18, 1, .w1c, 0, .any⟩
def Reg.CLK_PLL.clk_unlock : Field := ⟨0x100100, [(31, 8)], 19, 1, .w1c, 0, .any⟩
def Reg.CLK_PLL.coast_mhz : Field := ⟨0x100100, [(31, 8)], 20, 12, .ro, 0, .any⟩
def Reg.CLK_PLL.measured_mhz : Field := ⟨0x100100, [(31, 8)], 32, 16, .ro, 0, .any⟩
def Reg.CLK_PLL.relocks : Field := ⟨0x100100, [(31, 8)], 48, 16, .ro, 0, .any⟩
def Reg.TOP_ID.pci_device : Field := ⟨0x0, [], 0, 16, .ro, 0, .any⟩
def Reg.TOP_ID.pci_vendor : Field := ⟨0x0, [], 16, 16, .ro, 0, .any⟩
def Reg.TOP_ID.part : Field := ⟨0x0, [], 32, 8, .ro, 0, .any⟩
def Reg.TOP_ID.stepping : Field := ⟨0x0, [], 40, 8, .ro, 0, .any⟩
def Reg.TOP_FW.version : Field := ⟨0x8, [], 0, 32, .ro, 0, .any⟩
def Reg.TOP_FW.svn : Field := ⟨0x8, [], 32, 32, .ro, 0, .any⟩
def Reg.TOP_CAP_CONTRACT.cap : Field := ⟨0x10, [], 0, 64, .ro, 0, .any⟩
def Reg.TOP_DEVICE.device : Field := ⟨0x18, [], 0, 11, .ro, 0, .any⟩
def Reg.TOP_DEVICE.start_count : Field := ⟨0x18, [], 16, 16, .ro, 0, .any⟩
def Reg.TOP_CAP_ATTIC.populated : Field := ⟨0x20, [], 0, 6, .ro, 0, .any⟩
def Reg.TOP_CAP_ATTIC.enabled : Field := ⟨0x20, [], 8, 6, .ro, 0, .any⟩
def Reg.TOP_CAP_DENSE.populated : Field := ⟨0x28, [], 0, 32, .ro, 0, .any⟩
def Reg.TOP_CAP_DENSE.usable : Field := ⟨0x28, [], 32, 32, .ro, 0, .any⟩
def Reg.TOP_CAP_LINKS.populated : Field := ⟨0x30, [], 0, 48, .ro, 0, .any⟩
def Reg.TOP_CAP_LINKS.native : Field := ⟨0x30, [], 48, 6, .ro, 0, .any⟩
def Reg.TOP_CAP_LINKS.ethernet : Field := ⟨0x30, [], 56, 6, .ro, 0, .any⟩
def Reg.TOP_CAP_MEM.populated : Field := ⟨0x38, [], 0, 16, .ro, 0, .any⟩
def Reg.TOP_CAP_MEM.enabled : Field := ⟨0x38, [], 16, 16, .ro, 0, .any⟩
def Reg.TOP_CAP_MEM.gib : Field := ⟨0x38, [], 32, 32, .ro, 0, .any⟩
def Reg.TOP_CAP_LIMITS.shelves : Field := ⟨0x40, [], 0, 17, .ro, 0, .any⟩
def Reg.TOP_CAP_LIMITS.sessions : Field := ⟨0x40, [], 32, 25, .ro, 0, .any⟩
def Reg.TOP_CAP_SCALE.ring_pairs : Field := ⟨0x48, [], 0, 11, .ro, 1024, .any⟩
def Reg.TOP_CAP_SCALE.out_rings : Field := ⟨0x48, [], 12, 11, .ro, 1024, .any⟩
def Reg.TOP_CAP_SCALE.contexts : Field := ⟨0x48, [], 24, 11, .ro, 1024, .any⟩
def Reg.TOP_CAP_SCALE.tallies : Field := ⟨0x48, [], 36, 13, .ro, 4096, .any⟩
def Reg.TOP_CAP_SCALE.semaphores : Field := ⟨0x48, [], 49, 13, .ro, 4096, .any⟩
def Reg.TOP_CAP_ENVELOPE.nbus : Field := ⟨0x50, [], 0, 16, .ro, 0, .any⟩
def Reg.TOP_CAP_ENVELOPE.tiles : Field := ⟨0x50, [], 16, 8, .ro, 0, .any⟩
def Reg.TOP_CAP_ENVELOPE.attic_mhz : Field := ⟨0x50, [], 24, 16, .ro, 0, .any⟩
def Reg.TOP_CAP_ENVELOPE.dense_mhz : Field := ⟨0x50, [], 40, 16, .ro, 0, .any⟩
def Reg.TOP_INT_CFG.enable : Field := ⟨0x100, [], 0, 1, .rw, 0, .any⟩
def Reg.TOP_INT_CFG.err_vector : Field := ⟨0x100, [], 1, 11, .rw, 0, .any⟩
def Reg.TOP_INT_CFG.vectors : Field := ⟨0x100, [], 12, 12, .ro, 2048, .any⟩
def Reg.TOP_INT_CAUSE.fatal : Field := ⟨0x108, [], 0, 1, .w1c, 0, .any⟩
def Reg.TOP_INT_CAUSE.evt_overflow : Field := ⟨0x108, [], 1, 1, .w1c, 0, .any⟩
def Reg.TOP_INT_CAUSE.ring_fault : Field := ⟨0x108, [], 2, 1, .w1c, 0, .any⟩
def Reg.TOP_INT_CAUSE.bad_access : Field := ⟨0x108, [], 3, 1, .w1c, 0, .any⟩
def Reg.TOP_INT_MASK.mask : Field := ⟨0x110, [], 0, 4, .rw, 8, .any⟩
def Reg.TOP_BAD_ACCESS.count : Field := ⟨0x118, [], 0, 32, .ro, 0, .any⟩
def Reg.TOP_BAD_ACCESS.offset : Field := ⟨0x118, [], 32, 26, .ro, 0, .any⟩
def Reg.TOP_BAD_ACCESS.bar2 : Field := ⟨0x118, [], 58, 1, .ro, 0, .any⟩
def Reg.TOP_BAD_ACCESS.write : Field := ⟨0x118, [], 59, 1, .ro, 0, .any⟩
def Reg.TOP_SNAP_CTL.block : Field := ⟨0x200, [], 0, 8, .rw, 0, .any⟩
def Reg.TOP_SNAP_CTL.freeze : Field := ⟨0x200, [], 8, 1, .w1s, 0, .any⟩
def Reg.TOP_SNAP_CTL.release : Field := ⟨0x200, [], 9, 1, .w1s, 0, .any⟩
def Reg.TOP_SNAP_CTL.frozen : Field := ⟨0x200, [], 10, 1, .ro, 0, .any⟩
def Reg.TOP_SNAP_TIME.timebase : Field := ⟨0x208, [], 0, 64, .ro, 0, .any⟩
def Reg.TOP_TIMEBASE.timebase : Field := ⟨0x210, [], 0, 64, .ro, 0, .any⟩
def Reg.TOP_RING_SQ_BASE.base : Field := ⟨0x10000, [(1024, 32)], 12, 52, .rw, 0, .any⟩
def Reg.TOP_RING_CQ_BASE.base : Field := ⟨0x10008, [(1024, 32)], 12, 52, .rw, 0, .any⟩
def Reg.TOP_RING_CFG.sq_log2 : Field := ⟨0x10010, [(1024, 32)], 0, 5, .rw, 0, .any⟩
def Reg.TOP_RING_CFG.cq_log2 : Field := ⟨0x10010, [(1024, 32)], 8, 5, .rw, 0, .any⟩
def Reg.TOP_RING_CFG.vector : Field := ⟨0x10010, [(1024, 32)], 13, 11, .rw, 0, .any⟩
def Reg.TOP_RING_CFG.irq_count : Field := ⟨0x10010, [(1024, 32)], 24, 8, .rw, 1, .any⟩
def Reg.TOP_RING_CFG.irq_us : Field := ⟨0x10010, [(1024, 32)], 32, 10, .rw, 0, .any⟩
def Reg.TOP_RING_CFG.enable : Field := ⟨0x10010, [(1024, 32)], 48, 1, .rw, 0, .any⟩
def Reg.TOP_RING_CFG.idle : Field := ⟨0x10010, [(1024, 32)], 49, 1, .ro, 1, .any⟩
def Reg.TOP_RING_CFG.fault : Field := ⟨0x10010, [(1024, 32)], 50, 1, .w1c, 0, .any⟩
def Reg.TOP_RING_CFG.phase : Field := ⟨0x10010, [(1024, 32)], 51, 1, .ro, 1, .any⟩
def Reg.TOP_RING_STATE.sq_head : Field := ⟨0x10018, [(1024, 32)], 0, 16, .ro, 0, .any⟩
def Reg.TOP_RING_STATE.sq_tail : Field := ⟨0x10018, [(1024, 32)], 16, 16, .ro, 0, .any⟩
def Reg.TOP_RING_STATE.cq_tail : Field := ⟨0x10018, [(1024, 32)], 32, 16, .ro, 0, .any⟩
def Reg.TOP_RING_STATE.outstanding : Field := ⟨0x10018, [(1024, 32)], 48, 16, .ro, 0, .any⟩
def Reg.TOP_ORING_BASE.base : Field := ⟨0x20000, [(1024, 32)], 12, 52, .rw, 0, .any⟩
def Reg.TOP_EVT_BASE.base : Field := ⟨0x300, [], 12, 52, .rw, 0, .any⟩
def Reg.TOP_ORING_CFG.log2 : Field := ⟨0x20008, [(1024, 32)], 0, 5, .rw, 0, .any⟩
def Reg.TOP_ORING_CFG.kind : Field := ⟨0x20008, [(1024, 32)], 5, 2, .rw, 0, .any⟩
def Reg.TOP_ORING_CFG.vector : Field := ⟨0x20008, [(1024, 32)], 7, 11, .rw, 0, .any⟩
def Reg.TOP_ORING_CFG.irq_count : Field := ⟨0x20008, [(1024, 32)], 18, 8, .rw, 1, .any⟩
def Reg.TOP_ORING_CFG.irq_us : Field := ⟨0x20008, [(1024, 32)], 26, 10, .rw, 0, .any⟩
def Reg.TOP_ORING_CFG.enable : Field := ⟨0x20008, [(1024, 32)], 36, 1, .rw, 0, .any⟩
def Reg.TOP_ORING_CFG.fault : Field := ⟨0x20008, [(1024, 32)], 38, 1, .w1c, 0, .any⟩
def Reg.TOP_ORING_CFG.phase : Field := ⟨0x20008, [(1024, 32)], 39, 1, .ro, 1, .any⟩
def Reg.TOP_EVT_CFG.log2 : Field := ⟨0x308, [], 0, 5, .rw, 0, .any⟩
def Reg.TOP_EVT_CFG.kind : Field := ⟨0x308, [], 5, 2, .rw, 0, .any⟩
def Reg.TOP_EVT_CFG.vector : Field := ⟨0x308, [], 7, 11, .rw, 0, .any⟩
def Reg.TOP_EVT_CFG.irq_count : Field := ⟨0x308, [], 18, 8, .rw, 1, .any⟩
def Reg.TOP_EVT_CFG.irq_us : Field := ⟨0x308, [], 26, 10, .rw, 0, .any⟩
def Reg.TOP_EVT_CFG.enable : Field := ⟨0x308, [], 36, 1, .rw, 0, .any⟩
def Reg.TOP_EVT_CFG.fault : Field := ⟨0x308, [], 38, 1, .w1c, 0, .any⟩
def Reg.TOP_EVT_CFG.phase : Field := ⟨0x308, [], 39, 1, .ro, 1, .any⟩
def Reg.TOP_ORING_STATE.tail : Field := ⟨0x20010, [(1024, 32)], 0, 16, .ro, 0, .any⟩
def Reg.TOP_ORING_STATE.head : Field := ⟨0x20010, [(1024, 32)], 16, 16, .ro, 0, .any⟩
def Reg.TOP_ORING_STATE.posted : Field := ⟨0x20010, [(1024, 32)], 32, 32, .ro, 0, .any⟩
def Reg.TOP_EVT_STATE.tail : Field := ⟨0x310, [], 0, 16, .ro, 0, .any⟩
def Reg.TOP_EVT_STATE.head : Field := ⟨0x310, [], 16, 16, .ro, 0, .any⟩
def Reg.TOP_EVT_STATE.posted : Field := ⟨0x310, [], 32, 32, .ro, 0, .any⟩
def Reg.MON_CFG.baud : Field := ⟨0x1800000, [], 0, 2, .rw, 0, .range 0 2⟩
def Reg.MON_CFG.enable : Field := ⟨0x1800000, [], 2, 1, .rw, 1, .any⟩
def Reg.MON_STATUS.rom : Field := ⟨0x1800008, [], 0, 1, .ro, 1, .any⟩
def Reg.MON_STATUS.priv : Field := ⟨0x1800008, [], 1, 1, .ro, 0, .any⟩
def Reg.MON_STATUS.commands : Field := ⟨0x1800008, [], 16, 32, .ro, 0, .any⟩
def Reg.DBG_STATUS.level : Field := ⟨0x1800100, [], 0, 2, .ro, 0, .any⟩
def Reg.DBG_STATUS.slot : Field := ⟨0x1800100, [], 2, 2, .ro, 0, .any⟩
def Reg.DBG_STATUS.halted : Field := ⟨0x1800100, [], 4, 4, .ro, 0, .any⟩
def Reg.DBG_STATUS.scan_active : Field := ⟨0x1800100, [], 8, 1, .ro, 0, .any⟩
def Reg.DBG_COUNT.auth_fail : Field := ⟨0x1800108, [], 0, 16, .ro, 0, .any⟩
def Reg.DBG_COUNT.grants : Field := ⟨0x1800108, [], 16, 16, .ro, 0, .any⟩
def Reg.DBG_COUNT.accesses : Field := ⟨0x1800108, [], 32, 32, .ro, 0, .any⟩
def Reg.HAT_TRK.bucket0 : Field := ⟨0x900248, [], 0, 32, .snap, 0, .any⟩
def Reg.HAT_TRK.bucket1 : Field := ⟨0x900248, [], 32, 32, .snap, 0, .any⟩
def Reg.HAT_TRK.bucket2 : Field := ⟨0x900250, [], 0, 32, .snap, 0, .any⟩
def Reg.HAT_TRK.bucket3 : Field := ⟨0x900250, [], 32, 32, .snap, 0, .any⟩
def Reg.HAT_TRK.bucket4 : Field := ⟨0x900258, [], 0, 32, .snap, 0, .any⟩
def Reg.HAT_TRK.bucket5 : Field := ⟨0x900258, [], 32, 32, .snap, 0, .any⟩
def Reg.HAT_TRK.bucket6 : Field := ⟨0x900260, [], 0, 32, .snap, 0, .any⟩
def Reg.HAT_TRK.bucket7 : Field := ⟨0x900260, [], 32, 32, .snap, 0, .any⟩
def Reg.HAT_TRK.bucket8 : Field := ⟨0x900268, [], 0, 32, .snap, 0, .any⟩
def Reg.HAT_TRK.bucket9 : Field := ⟨0x900268, [], 32, 32, .snap, 0, .any⟩
def Reg.HAT_TRK.bucket10 : Field := ⟨0x900270, [], 0, 32, .snap, 0, .any⟩
def Reg.HAT_TRK.bucket11 : Field := ⟨0x900270, [], 32, 32, .snap, 0, .any⟩
def Reg.HAT_TRK.bucket12 : Field := ⟨0x900278, [], 0, 32, .snap, 0, .any⟩
def Reg.HAT_TRK.bucket13 : Field := ⟨0x900278, [], 32, 32, .snap, 0, .any⟩
def Reg.HAT_TRK.bucket14 : Field := ⟨0x900280, [], 0, 32, .snap, 0, .any⟩
def Reg.HAT_TRK.bucket15 : Field := ⟨0x900280, [], 32, 32, .snap, 0, .any⟩

def regFieldsLay0 : List Field := [
  Reg.LAY_CTRL.go, Reg.LAY_CTRL.op, Reg.LAY_SRC.offset,
  Reg.LAY_SRC.length, Reg.LAY_STATUS.busy, Reg.LAY_STATUS.overrun,
  Reg.LAY_STATUS.copied, Reg.LAY_STATUS.code, Reg.LAY_STATUS.reason,
  Reg.LAY_STATUS.sect, Reg.LAY_STATUS.count, Reg.LAY_ACTIVE.serial,
  Reg.LAY_ACTIVE.composition, Reg.LAY_QUIESCE.quiesce_us, Reg.LAY_SPI.active_slot,
  Reg.LAY_SPI.slot_valid, Reg.LAY_SPI.booted_slot, Reg.LAY_SPI.builtin]
/-- Every field of the `LAY_` registers. -/
def regFieldsLay : List Field := regFieldsLay0

def regFieldsSes0 : List Field := [
  Reg.SES_CFG.spill_low, Reg.SES_CFG.chunk_hold, Reg.SES_SHADOW_RING.ring,
  Reg.SES_SHADOW_RING.valid, Reg.SES_COUNT.shelves_used, Reg.SES_COUNT.spilled,
  Reg.SES_SPILL.limit, Reg.SES_SPILL.fetches]
/-- Every field of the `SES_` registers. -/
def regFieldsSes : List Field := regFieldsSes0

def regFieldsLad0 : List Field := [
  Reg.LAD_CFG.age_unit, Reg.LAD_CFG.wb_park, Reg.LAD_CFG.wb_full,
  Reg.LAD_CFG.prefetch, Reg.LAD_WM.attic_low, Reg.LAD_WM.attic_high,
  Reg.LAD_WM.store_low, Reg.LAD_WM.store_high, Reg.LAD_DEADLINE.store_us,
  Reg.LAD_DEADLINE.nvme_ms, Reg.LAD_DEADLINE.remote_ms, Reg.LAD_DEADLINE.retry_ms,
  Reg.LAD_QDEPTH.demand, Reg.LAD_QDEPTH.prefetch, Reg.LAD_QDEPTH.sink,
  Reg.LAD_QDEPTH.writeback, Reg.LAD_COUNT.raises, Reg.LAD_COUNT.sinks,
  Reg.LAD_FAULT.lost, Reg.LAD_FAULT.dropped]
/-- Every field of the `LAD_` registers. -/
def regFieldsLad : List Field := regFieldsLad0

def regFieldsCrt0 : List Field := [
  Reg.CRT_POOL.attic_free, Reg.CRT_POOL.store_free, Reg.CRT_CELLAR.nvme_usable,
  Reg.CRT_CELLAR.nvme_faulty, Reg.CRT_CELLAR.remote_targets]
/-- Every field of the `CRT_` registers. -/
def regFieldsCrt : List Field := regFieldsCrt0

def regFieldsAtn0 : List Field := [
  Reg.ATN_CFG.sel_enable, Reg.ATN_CFG.inexact_evt, Reg.ATN_CFG.early_hold_us,
  Reg.ATN_COUNT.ok, Reg.ATN_COUNT.refused, Reg.ATN_COUNT.stale,
  Reg.ATN_VISIT.visited, Reg.ATN_VISIT.skipped, Reg.ATN_PREC.inexact,
  Reg.ATN_PREC.poisoned, Reg.ATN_SEL.misses, Reg.ATN_SEL.strips]
/-- Every field of the `ATN_` registers. -/
def regFieldsAtn : List Field := regFieldsAtn0

def regFieldsCmd0 : List Field := [
  Reg.CMD_ENTRY.entry, Reg.CMD_ENTRY.tag, Reg.CMD_ENTRY.context,
  Reg.CMD_ENTRY.near_base, Reg.CMD_ENTRY.near_len, Reg.CMD_ARG.half0,
  Reg.CMD_ARG.half1, Reg.CMD_ARG14.bank_base, Reg.CMD_ARG14.bank_len,
  Reg.CMD_ARG14.cycle_limit, Reg.CMD_STATUS.busy, Reg.CMD_STATUS.abort,
  Reg.CMD_STATUS.inexact, Reg.CMD_STATUS.poison, Reg.CMD_STATUS.collide,
  Reg.CMD_STATUS.code, Reg.CMD_STATUS.pc, Reg.CMD_STATUS.detail,
  Reg.CMD_STATUS.cycles]
/-- Every field of the `CMD_` registers. -/
def regFieldsCmd : List Field := regFieldsCmd0

def regFieldsNbu0 : List Field := [
  Reg.NBU_CTL.host_jobs, Reg.NBU_CTL.fault_evt, Reg.NBU_STORE.builtin,
  Reg.NBU_STORE.serial, Reg.NBU_FAULTS.faults, Reg.NBU_FAULTS.ecc_uncorr,
  Reg.NBU_FAULTS.aborted, Reg.NBU_JOBS.jobs, Reg.NBU_STATE.busy,
  Reg.NBU_STATE.ecc_corr, Reg.NBU_STATE.store_crc]
/-- Every field of the `NBU_` registers. -/
def regFieldsNbu : List Field := regFieldsNbu0

def regFieldsDen0 : List Field := [
  Reg.DEN_CFG.chunk_crates, Reg.DEN_CFG.cross, Reg.DEN_CFG.host_cmds,
  Reg.DEN_CFG.fault_evt, Reg.DEN_CFG.centroid_min, Reg.DEN_TILES.present,
  Reg.DEN_TILES.failed, Reg.DEN_COUNT.commands, Reg.DEN_COUNT.gmac,
  Reg.DEN_QDEPTH.c0, Reg.DEN_QDEPTH.c1, Reg.DEN_QDEPTH.c2,
  Reg.DEN_QDEPTH.c3, Reg.DEN_DLG.accept, Reg.DEN_DLG.class_max,
  Reg.DEN_DLG.partition, Reg.DEN_DLG.timeout_us, Reg.DEN_DLG.served,
  Reg.DEN_TEST_CMD.word, Reg.DEN_TEST_CTL.go]
def regFieldsDen1 : List Field := [
  Reg.DEN_TEST_CTL.busy, Reg.DEN_TEST_CTL.tile, Reg.DEN_TEST_CTL.code,
  Reg.DEN_TEST_CTL.cycles]
/-- Every field of the `DEN_` registers. -/
def regFieldsDen : List Field := regFieldsDen0 ++ regFieldsDen1

def regFieldsStp0 : List Field := [
  Reg.STP_CFG.shield, Reg.STP_CFG.max_attempts, Reg.STP_CFG.credit_wait_us,
  Reg.STP_CFG.seal_retry_us, Reg.STP_CFG.prep_query_ms, Reg.STP_SEM.inherit_limit_us,
  Reg.STP_SEM.marked, Reg.STP_CREDIT.c0, Reg.STP_CREDIT.c1,
  Reg.STP_CREDIT.c2, Reg.STP_CREDIT.c3, Reg.STP_SPACE.shared_free,
  Reg.STP_SPACE.shared_size, Reg.STP_COUNT.sealed, Reg.STP_COUNT.aborts,
  Reg.STP_COUNT.preempted, Reg.STP_PARTS.waiting, Reg.STP_PARTS.running,
  Reg.STP_PARTS.prepared, Reg.STP_PARTS.behind]
def regFieldsStp1 : List Field := [
  Reg.STP_BUCKET.level]
/-- Every field of the `STP_` registers. -/
def regFieldsStp : List Field := regFieldsStp0 ++ regFieldsStp1

def regFieldsHat0 : List Field := [
  Reg.HAT_CFG.out_chunk, Reg.HAT_CFG.refuse_evt, Reg.HAT_C0.layer_ns,
  Reg.HAT_C0.step_ns, Reg.HAT_C0.over_mode, Reg.HAT_C0.tracked,
  Reg.HAT_PROJ.lowjob_cycles, Reg.HAT_PROJ.home_base_ns, Reg.HAT_PROJ.home_per_ns,
  Reg.HAT_LOAD.nbu_max_ns, Reg.HAT_LOAD.tile_max_ns, Reg.HAT_COUNT.refused_mem,
  Reg.HAT_COUNT.refused_time, Reg.HAT_COUNT.refused_budget, Reg.HAT_COUNT.outside,
  Reg.HAT_HIST_SEL.cls, Reg.HAT_HIST_SEL.metric, Reg.HAT_HIST_SEL.snap,
  Reg.HAT_HIST_SEL.clear, Reg.HAT_HIST.bucket0]
def regFieldsHat1 : List Field := [
  Reg.HAT_HIST.bucket1, Reg.HAT_TRK_SEL.handle, Reg.HAT_TRK.handle,
  Reg.HAT_TRK.ttft_ns, Reg.HAT_TRK.tokens, Reg.HAT_TRK.outside,
  Reg.HAT_TRK.tbt_sum_ns, Reg.HAT_TRK.tbt_max_ns, Reg.HAT_TRK.res_max_ns,
  Reg.HAT_CTX.max_sessions, Reg.HAT_CTX.max_c0, Reg.HAT_CTX.class_floor,
  Reg.HAT_TALLY.balance, Reg.HAT_TALLY.unmetered, Reg.HAT_TALLY.rate,
  Reg.HAT_TALLY.held, Reg.HAT_TALLY.cap, Reg.HAT_TALLY.add,
  Reg.HAT_TALLY.subtract, Reg.HAT_TRK.bucket0]
def regFieldsHat2 : List Field := [
  Reg.HAT_TRK.bucket1, Reg.HAT_TRK.bucket2, Reg.HAT_TRK.bucket3,
  Reg.HAT_TRK.bucket4, Reg.HAT_TRK.bucket5, Reg.HAT_TRK.bucket6,
  Reg.HAT_TRK.bucket7, Reg.HAT_TRK.bucket8, Reg.HAT_TRK.bucket9,
  Reg.HAT_TRK.bucket10, Reg.HAT_TRK.bucket11, Reg.HAT_TRK.bucket12,
  Reg.HAT_TRK.bucket13, Reg.HAT_TRK.bucket14, Reg.HAT_TRK.bucket15]
/-- Every field of the `HAT_` registers. -/
def regFieldsHat : List Field := regFieldsHat0 ++ regFieldsHat1 ++ regFieldsHat2

def regFieldsInv0 : List Field := [
  Reg.INV_CFG.enable, Reg.INV_CFG.reclaim, Reg.INV_CFG.min_partial,
  Reg.INV_CFG.partial_scan, Reg.INV_CFG.probe_us, Reg.INV_CFG.pin_ms,
  Reg.INV_STAT.records_free, Reg.INV_STAT.records_total, Reg.INV_COUNT.lookups,
  Reg.INV_COUNT.supplied, Reg.INV_CHURN.reclaimed, Reg.INV_CHURN.withdrawn]
/-- Every field of the `INV_` registers. -/
def regFieldsInv : List Field := regFieldsInv0

def regFieldsTok0 : List Field := [
  Reg.TOK_CFG.head, Reg.TOK_CFG.tail, Reg.TOK_COUNT.tokens,
  Reg.TOK_COUNT.truncated, Reg.TOK_SLOT.loaded, Reg.TOK_SLOT.shared,
  Reg.TOK_SLOT.swapping, Reg.TOK_SLOT.owned, Reg.TOK_SLOT.owner,
  Reg.TOK_SLOT.binders, Reg.TOK_SLOT.size]
/-- Every field of the `TOK_` registers. -/
def regFieldsTok : List Field := regFieldsTok0

def regFieldsSmp0 : List Field := [
  Reg.SMP_COUNT.samples, Reg.SMP_COUNT.fallback, Reg.SMP_COUNT.stale]
/-- Every field of the `SMP_` registers. -/
def regFieldsSmp : List Field := regFieldsSmp0

def regFieldsEmb0 : List Field := [
  Reg.EMB_CFG.mode, Reg.EMB_CFG.decay_us, Reg.EMB_CFG.depth,
  Reg.EMB_COUNT.hits, Reg.EMB_COUNT.misses, Reg.EMB_COUNT.defaults]
/-- Every field of the `EMB_` registers. -/
def regFieldsEmb : List Field := regFieldsEmb0

def regFieldsCam0 : List Field := [
  Reg.CAM_BANK.width, Reg.CAM_BANK.client, Reg.CAM_BANK.writable,
  Reg.CAM_BANK.owner, Reg.CAM_BANK.entries, Reg.CAM_BANK.shifting,
  Reg.CAM_GEN.current, Reg.CAM_GEN.oldest_held, Reg.CAM_LOOKUP_KEY.key,
  Reg.CAM_LOOKUP_MASK.banks, Reg.CAM_LOOKUP_CTL.go, Reg.CAM_LOOKUP_CTL.busy,
  Reg.CAM_LOOKUP_CTL.width, Reg.CAM_LOOKUP_RES0.action, Reg.CAM_LOOKUP_RES0.generation,
  Reg.CAM_LOOKUP_RES1.hit, Reg.CAM_LOOKUP_RES1.bank, Reg.CAM_LOOKUP_RES1.index,
  Reg.CAM_LOOKUP_RES1.priority, Reg.CAM_COUNT.lookups]
def regFieldsCam1 : List Field := [
  Reg.CAM_COUNT.writes]
/-- Every field of the `CAM_` registers. -/
def regFieldsCam : List Field := regFieldsCam0 ++ regFieldsCam1

def regFieldsVsr0 : List Field := [
  Reg.VSR_CFG.batch_ns, Reg.VSR_CFG.batch_min, Reg.VSR_CFG.max_visits,
  Reg.VSR_TIMEOUT.shard_timeout_us, Reg.VSR_LOAD_SRC.addr, Reg.VSR_LOAD_CTL.go,
  Reg.VSR_LOAD_CTL.op, Reg.VSR_LOAD_CTL.shared, Reg.VSR_LOAD_CTL.slot,
  Reg.VSR_LOAD_CTL.context, Reg.VSR_LOAD_CTL.length, Reg.VSR_LOAD_STATUS.busy,
  Reg.VSR_LOAD_STATUS.code, Reg.VSR_LOAD_STATUS.detail, Reg.VSR_SLOT.loaded,
  Reg.VSR_SLOT.shared, Reg.VSR_SLOT.damaged, Reg.VSR_SLOT.old_held,
  Reg.VSR_SLOT.owner, Reg.VSR_SLOT.index_id]
def regFieldsVsr1 : List Field := [
  Reg.VSR_SLOT.shard, Reg.VSR_SLOT.pages, Reg.VSR_COUNT.queries,
  Reg.VSR_COUNT.visits]
/-- Every field of the `VSR_` registers. -/
def regFieldsVsr : List Field := regFieldsVsr0 ++ regFieldsVsr1

def regFieldsLnk0 : List Field := [
  Reg.LNK_CTL.enable, Reg.LNK_CTL.retrain, Reg.LNK_CTL.express,
  Reg.LNK_CTL.shp_ovh, Reg.LNK_STATUS.state, Reg.LNK_STATUS.version,
  Reg.LNK_STATUS.partner, Reg.LNK_STATUS.partner_kind, Reg.LNK_STATUS.crypto,
  Reg.LNK_STATUS.lanes_reversed, Reg.LNK_STATUS.link_epoch, Reg.LNK_STATUS.fail_code,
  Reg.LNK_HOLD.port_hold_ns, Reg.LNK_CREDIT.vc0, Reg.LNK_CREDIT.step,
  Reg.LNK_CREDIT.vc5, Reg.LNK_CREDIT.vc6, Reg.LNK_CREDIT.vc7,
  Reg.LNK_EXPRESS.misses, Reg.LNK_EXPRESS.guard]
def regFieldsLnk1 : List Field := [
  Reg.LNK_EXPRESS.suspended, Reg.LNK_EXPRESS.partner_suspended, Reg.LNK_TIME.offset_ns,
  Reg.LNK_TIME.delay_ns, Reg.LNK_TIME.asym_ps, Reg.LNK_ERR.fec_uncorr,
  Reg.LNK_ERR.crc, Reg.LNK_ERR.replays, Reg.LNK_ERR.auth_fail,
  Reg.LNK_DISCARD.vc, Reg.LNK_SHP_CFG.rate, Reg.LNK_SHP_CFG.burst_kib,
  Reg.LNK_SHP_CFG.reset_mode, Reg.LNK_XCFG.retx_us, Reg.LNK_XCFG.retx_max,
  Reg.LNK_XCFG.fast_resend, Reg.LNK_XCFG.epoch_hold_us, Reg.LNK_TSYNC.source,
  Reg.LNK_TSYNC.parent_link, Reg.LNK_TSYNC.rank]
def regFieldsLnk2 : List Field := [
  Reg.LNK_TSYNC.err_ns, Reg.LNK_TSYNC.locked, Reg.LNK_EXPCFG.period_ns,
  Reg.LNK_EXPCFG.window_ns, Reg.LNK_EXPCFG.guard_ns, Reg.LNK_EXPCFG.phase_ns,
  Reg.LNK_EXPCFG.miss_limit, Reg.LNK_DUP.dups, Reg.LNK_DUP.stale,
  Reg.LNK_ROUTE_ERR.misroute, Reg.LNK_ROUTE_ERR.miswire]
/-- Every field of the `LNK_` registers. -/
def regFieldsLnk : List Field := regFieldsLnk0 ++ regFieldsLnk1 ++ regFieldsLnk2

def regFieldsEth0 : List Field := [
  Reg.ETH_CTL.enable, Reg.ETH_CTL.kr, Reg.ETH_CTL.shp_ovh,
  Reg.ETH_CTL.pcp_map, Reg.ETH_STATUS.state, Reg.ETH_STATUS.port_epoch,
  Reg.ETH_STATUS.discard, Reg.ETH_HOLD.port_hold_ns, Reg.ETH_MAC.mac,
  Reg.ETH_SHP_CFG.rate, Reg.ETH_SHP_CFG.burst_kib, Reg.ETH_SHP_CFG.reset_mode,
  Reg.ETH_CFG.rml_udp, Reg.ETH_CFG.miss_action, Reg.ETH_CFG.reasm_us,
  Reg.ETH_PTP.domain, Reg.ETH_PTP.port, Reg.ETH_PTP.boundary,
  Reg.ETH_PTP.state, Reg.ETH_NEIGH.ip0]
def regFieldsEth1 : List Field := [
  Reg.ETH_NEIGH.ip1, Reg.ETH_NEIGH.mac, Reg.ETH_NEIGH.vlan,
  Reg.ETH_NEIGH.valid]
/-- Every field of the `ETH_` registers. -/
def regFieldsEth : List Field := regFieldsEth0 ++ regFieldsEth1

def regFieldsRma0 : List Field := [
  Reg.RMA_CFG.spill_low, Reg.RMA_CFG.fence_limit_us, Reg.RMA_CFG.cnp_interval_us,
  Reg.RMA_CFG.prot_evt, Reg.RMA_CC.cut, Reg.RMA_CC.inc_us,
  Reg.RMA_CC.step_mbps, Reg.RMA_CC.min_mbps, Reg.RMA_PFC.enable,
  Reg.RMA_PFC.xoff_kib, Reg.RMA_PFC.xon_kib, Reg.RMA_PFC.storm_ms,
  Reg.RMA_PFC.paused, Reg.RMA_PFC.storm, Reg.RMA_SPILL_BASE.addr,
  Reg.RMA_SPILL.count, Reg.RMA_SPILL.enable, Reg.RMA_SPILL.spilled,
  Reg.RMA_AREA.units, Reg.RMA_CONN_CTL.go]
def regFieldsRma1 : List Field := [
  Reg.RMA_CONN_CTL.busy, Reg.RMA_CONN_CTL.op, Reg.RMA_CONN_CTL.code,
  Reg.RMA_CONN_CTL.detail, Reg.RMA_CONN_CTL.conn, Reg.RMA_CONN_DATA.word,
  Reg.RMA_MR_CTL.index, Reg.RMA_MR_CTL.go, Reg.RMA_MR_CTL.busy,
  Reg.RMA_MR_CTL.code, Reg.RMA_MR_CTL.gen, Reg.RMA_MR_DATA.valid,
  Reg.RMA_MR_DATA.read, Reg.RMA_MR_DATA.write, Reg.RMA_MR_DATA.pd,
  Reg.RMA_MR_DATA.tag, Reg.RMA_MR_DATA.offset, Reg.RMA_MR_DATA.length,
  Reg.RMA_COUNT.dropped, Reg.RMA_COUNT.dup_acks]
def regFieldsRma2 : List Field := [
  Reg.RMA_COUNT.fetch_drops, Reg.RMA_COUNT.prot_refusals, Reg.RMA_PD.owner,
  Reg.RMA_PD.valid, Reg.RMA_PD.generation, Reg.RMA_POOL.conn,
  Reg.RMA_POOL.valid, Reg.RMA_POOL.key, Reg.RMA_POOL.first_extent,
  Reg.RMA_POOL.extents, Reg.RMA_POOL.lost]
/-- Every field of the `RMA_` registers. -/
def regFieldsRma : List Field := regFieldsRma0 ++ regFieldsRma1 ++ regFieldsRma2

def regFieldsEvt0 : List Field := [
  Reg.EVT_CFG.coalesce_ns, Reg.EVT_CFG.used, Reg.EVT_RATE.c1,
  Reg.EVT_RATE.c2, Reg.EVT_RATE.c3, Reg.EVT_DROP.c1,
  Reg.EVT_DROP.c2, Reg.EVT_DROP.c3, Reg.EVT_DROP.spilled]
/-- Every field of the `EVT_` registers. -/
def regFieldsEvt : List Field := regFieldsEvt0

def regFieldsMnt0 : List Field := [
  Reg.MNT_ACTIVE.running, Reg.MNT_ACTIVE.waiting, Reg.MNT_REQ.go,
  Reg.MNT_REQ.activity, Reg.MNT_REQ.target, Reg.MNT_REQ.fw_slot,
  Reg.MNT_STATUS.busy, Reg.MNT_STATUS.code, Reg.MNT_STATUS.conflict,
  Reg.MNT_WARN_CFG.attic_ce, Reg.MNT_WARN_CFG.store_ce, Reg.MNT_WARN_CFG.ber_exp,
  Reg.MNT_WARN_CFG.temp_margin, Reg.MNT_WARN_CFG.droop, Reg.MNT_WARN_CFG.auto_spare,
  Reg.MNT_WARN_CFG.auto_retrain, Reg.MNT_WARN_STATE.active, Reg.MNT_WARN_STATE.raised]
/-- Every field of the `MNT_` registers. -/
def regFieldsMnt : List Field := regFieldsMnt0

def regFieldsCkp0 : List Field := [
  Reg.CKP_MIR_CFG.witness_us, Reg.CKP_MIR_CFG.apply_steps, Reg.CKP_MIR_CFG.prep_wait_us,
  Reg.CKP_MIR_CFG.sync_mbps, Reg.CKP_MIR_STAT.shadows, Reg.CKP_MIR_STAT.unsynced,
  Reg.CKP_LOST.device, Reg.CKP_LOST.valid, Reg.CKP_LOST.time_us,
  Reg.CKP_DRAIN.mbps, Reg.CKP_DRAIN.keep, Reg.CKP_LOG.flush_us,
  Reg.CKP_LOG.records, Reg.CKP_HANDOVER.go, Reg.CKP_HANDOVER.busy,
  Reg.CKP_HANDOVER.device, Reg.CKP_HANDOVER.moved, Reg.CKP_TRUNK_DEL.serial,
  Reg.CKP_TRUNK_DEL.context]
/-- Every field of the `CKP_` registers. -/
def regFieldsCkp : List Field := regFieldsCkp0

def regFieldsSec0 : List Field := [
  Reg.SEC_CFG.lockdown, Reg.SEC_CFG.meas_evt, Reg.SEC_CFG.trunk_index,
  Reg.SEC_STATE.dk, Reg.SEC_STATE.lmk, Reg.SEC_STATE.trunk,
  Reg.SEC_STATE.enrolled, Reg.SEC_STATE.revoked, Reg.SEC_STATE.sticky,
  Reg.SEC_STATE.lockdown, Reg.SEC_STATE.sessions, Reg.SEC_STATE.meas_gen,
  Reg.SEC_MEAS_SEL.index, Reg.SEC_MEAS_SEL.snap, Reg.SEC_MEAS.value,
  Reg.SEC_COUNT.bar4_dropped, Reg.SEC_COUNT.key_fail, Reg.SEC_COUNT.unwrap_fail,
  Reg.SEC_VDM_ID.vendor, Reg.SEC_CTX.key_id]
def regFieldsSec1 : List Field := [
  Reg.SEC_CTX.valid, Reg.SEC_CTX.dk_index]
/-- Every field of the `SEC_` registers. -/
def regFieldsSec : List Field := regFieldsSec0 ++ regFieldsSec1

def regFieldsClk0 : List Field := [
  Reg.CLK_RESET.warm, Reg.CLK_RESET.cold, Reg.CLK_RESET.key,
  Reg.CLK_START.kind, Reg.CLK_START.cause, Reg.CLK_START.fallback,
  Reg.CLK_START.start_count, Reg.CLK_START.save_us, Reg.CLK_START.orphans,
  Reg.CLK_READY.attic_links, Reg.CLK_READY.store, Reg.CLK_READY.full,
  Reg.CLK_READY.pcie, Reg.CLK_MON.osc_ok, Reg.CLK_MON.osc_lost,
  Reg.CLK_MON.osc_count, Reg.CLK_REF.stable, Reg.CLK_REF.lost,
  Reg.CLK_REF.count, Reg.CLK_REF.ppm]
def regFieldsClk1 : List Field := [
  Reg.CLK_PLL.set_mhz, Reg.CLK_PLL.state, Reg.CLK_PLL.clk_loss,
  Reg.CLK_PLL.clk_unlock, Reg.CLK_PLL.coast_mhz, Reg.CLK_PLL.measured_mhz,
  Reg.CLK_PLL.relocks]
/-- Every field of the `CLK_` registers. -/
def regFieldsClk : List Field := regFieldsClk0 ++ regFieldsClk1

def regFieldsTop0 : List Field := [
  Reg.TOP_ID.pci_device, Reg.TOP_ID.pci_vendor, Reg.TOP_ID.part,
  Reg.TOP_ID.stepping, Reg.TOP_FW.version, Reg.TOP_FW.svn,
  Reg.TOP_CAP_CONTRACT.cap, Reg.TOP_DEVICE.device, Reg.TOP_DEVICE.start_count,
  Reg.TOP_CAP_ATTIC.populated, Reg.TOP_CAP_ATTIC.enabled, Reg.TOP_CAP_DENSE.populated,
  Reg.TOP_CAP_DENSE.usable, Reg.TOP_CAP_LINKS.populated, Reg.TOP_CAP_LINKS.native,
  Reg.TOP_CAP_LINKS.ethernet, Reg.TOP_CAP_MEM.populated, Reg.TOP_CAP_MEM.enabled,
  Reg.TOP_CAP_MEM.gib, Reg.TOP_CAP_LIMITS.shelves]
def regFieldsTop1 : List Field := [
  Reg.TOP_CAP_LIMITS.sessions, Reg.TOP_CAP_SCALE.ring_pairs, Reg.TOP_CAP_SCALE.out_rings,
  Reg.TOP_CAP_SCALE.contexts, Reg.TOP_CAP_SCALE.tallies, Reg.TOP_CAP_SCALE.semaphores,
  Reg.TOP_CAP_ENVELOPE.nbus, Reg.TOP_CAP_ENVELOPE.tiles, Reg.TOP_CAP_ENVELOPE.attic_mhz,
  Reg.TOP_CAP_ENVELOPE.dense_mhz, Reg.TOP_INT_CFG.enable, Reg.TOP_INT_CFG.err_vector,
  Reg.TOP_INT_CFG.vectors, Reg.TOP_INT_CAUSE.fatal, Reg.TOP_INT_CAUSE.evt_overflow,
  Reg.TOP_INT_CAUSE.ring_fault, Reg.TOP_INT_CAUSE.bad_access, Reg.TOP_INT_MASK.mask,
  Reg.TOP_BAD_ACCESS.count, Reg.TOP_BAD_ACCESS.offset]
def regFieldsTop2 : List Field := [
  Reg.TOP_BAD_ACCESS.bar2, Reg.TOP_BAD_ACCESS.write, Reg.TOP_SNAP_CTL.block,
  Reg.TOP_SNAP_CTL.freeze, Reg.TOP_SNAP_CTL.release, Reg.TOP_SNAP_CTL.frozen,
  Reg.TOP_SNAP_TIME.timebase, Reg.TOP_TIMEBASE.timebase, Reg.TOP_RING_SQ_BASE.base,
  Reg.TOP_RING_CQ_BASE.base, Reg.TOP_RING_CFG.sq_log2, Reg.TOP_RING_CFG.cq_log2,
  Reg.TOP_RING_CFG.vector, Reg.TOP_RING_CFG.irq_count, Reg.TOP_RING_CFG.irq_us,
  Reg.TOP_RING_CFG.enable, Reg.TOP_RING_CFG.idle, Reg.TOP_RING_CFG.fault,
  Reg.TOP_RING_CFG.phase, Reg.TOP_RING_STATE.sq_head]
def regFieldsTop3 : List Field := [
  Reg.TOP_RING_STATE.sq_tail, Reg.TOP_RING_STATE.cq_tail, Reg.TOP_RING_STATE.outstanding,
  Reg.TOP_ORING_BASE.base, Reg.TOP_EVT_BASE.base, Reg.TOP_ORING_CFG.log2,
  Reg.TOP_ORING_CFG.kind, Reg.TOP_ORING_CFG.vector, Reg.TOP_ORING_CFG.irq_count,
  Reg.TOP_ORING_CFG.irq_us, Reg.TOP_ORING_CFG.enable, Reg.TOP_ORING_CFG.fault,
  Reg.TOP_ORING_CFG.phase, Reg.TOP_EVT_CFG.log2, Reg.TOP_EVT_CFG.kind,
  Reg.TOP_EVT_CFG.vector, Reg.TOP_EVT_CFG.irq_count, Reg.TOP_EVT_CFG.irq_us,
  Reg.TOP_EVT_CFG.enable, Reg.TOP_EVT_CFG.fault]
def regFieldsTop4 : List Field := [
  Reg.TOP_EVT_CFG.phase, Reg.TOP_ORING_STATE.tail, Reg.TOP_ORING_STATE.head,
  Reg.TOP_ORING_STATE.posted, Reg.TOP_EVT_STATE.tail, Reg.TOP_EVT_STATE.head,
  Reg.TOP_EVT_STATE.posted]
/-- Every field of the `TOP_` registers. -/
def regFieldsTop : List Field := regFieldsTop0 ++ regFieldsTop1 ++ regFieldsTop2 ++ regFieldsTop3 ++ regFieldsTop4

def regFieldsMon0 : List Field := [
  Reg.MON_CFG.baud, Reg.MON_CFG.enable, Reg.MON_STATUS.rom,
  Reg.MON_STATUS.priv, Reg.MON_STATUS.commands]
/-- Every field of the `MON_` registers. -/
def regFieldsMon : List Field := regFieldsMon0

def regFieldsDbg0 : List Field := [
  Reg.DBG_STATUS.level, Reg.DBG_STATUS.slot, Reg.DBG_STATUS.halted,
  Reg.DBG_STATUS.scan_active, Reg.DBG_COUNT.auth_fail, Reg.DBG_COUNT.grants,
  Reg.DBG_COUNT.accesses]
/-- Every field of the `DBG_` registers. -/
def regFieldsDbg : List Field := regFieldsDbg0

/-- The MSI-X table entry of R573, laid out as PCI Express lays it out: message address, low half. -/
def Reg.MSIX.addr_lo : Field := ⟨0x80000, [(2048, 16)], 0, 32, .rw, 0, .any⟩
/-- Message address, high half. -/
def Reg.MSIX.addr_hi : Field := ⟨0x80000, [(2048, 16)], 32, 32, .rw, 0, .any⟩
/-- Message data of an MSI-X entry. -/
def Reg.MSIX.data : Field := ⟨0x80008, [(2048, 16)], 0, 32, .rw, 0, .any⟩
/-- Vector mask bit of an MSI-X entry; PCI Express resets it to 1. -/
def Reg.MSIX.mask : Field := ⟨0x80008, [(2048, 16)], 32, 1, .rw, 1, .any⟩
/-- The pending bit array: 32 words of 64 bits. -/
def Reg.MSIX.pending : Field := ⟨0x88000, [(32, 8)], 0, 64, .ro, 0, .any⟩

/-- Every field of the MSI-X table and pending bit array. -/
def regFieldsMsix : List Field := [Reg.MSIX.addr_lo, Reg.MSIX.addr_hi, Reg.MSIX.data, Reg.MSIX.mask, Reg.MSIX.pending]

/-- Every register field of BAR0 (R573). -/
def regFields : List Field :=
  regFieldsTop ++ regFieldsMsix ++ regFieldsClk ++ regFieldsLay ++ regFieldsSes ++ regFieldsLad ++ regFieldsCrt ++
  regFieldsAtn ++ regFieldsNbu ++ regFieldsDen ++ regFieldsStp ++ regFieldsHat ++ regFieldsInv ++ regFieldsTok ++
  regFieldsSmp ++ regFieldsEmb ++ regFieldsCam ++ regFieldsVsr ++ regFieldsLnk ++ regFieldsEth ++ regFieldsRma ++
  regFieldsEvt ++ regFieldsMnt ++ regFieldsCkp ++ regFieldsSec ++ regFieldsMon ++ regFieldsDbg ++ regFieldsCmd

end Sys2Proof.Machine
end

