-- ==== Sys2Proof/Config.lean ====
section
/-! DEFINITION. Values the spec leaves open or leaves to the implementation: opaque constants without a
body (free values, see notes/assumptions). -/
namespace Sys2Proof

/-- Free value: where inside its bound of R222 the significand of exp2_fixed falls, by the
fraction of the argument in lowest terms. -/
opaque Config.exp2Offset : Dyadic → Nat

/-- Free value: a fresh open value, by the counter that State carries. -/
opaque Config.fresh : Nat → Nat

/-- Free value: where inside its bound of R222 the result of FRCP falls, by its argument. -/
opaque Config.frcpOffset : Dyadic → Nat

/-- Free value: where inside its bound of R222 the result of FRSQ falls, by its argument. -/
opaque Config.frsqOffset : Dyadic → Nat

/-- Free value: where inside its bound of R187 a state-space output falls, by the exact value. -/
opaque Config.ssmOffset : Dyadic → Nat

/-- Free value: the binary32 pattern a state-space result takes where it falls outside binary32, by the exact
value. -/
opaque Config.overflow32 : Dyadic → Nat

/-- Free value: the instruction words of the built-in micro-program store of R215, which the spec lists only in
part. -/
opaque Config.builtinWord : Nat → Nat

/-- Free value: whether operand A of a MATMUL tile command is binary32 (R231, R236 name no field that says so), by M. -/
opaque Config.matmulWide : Nat → Bool

/-- Free value: the credit count in the syndrome of a RoCEv2 acknowledgement (R451 names the syndrome only). -/
opaque Config.aethCredit : Nat

/-- Free value: the timer code in the syndrome of an RNR NAK. -/
opaque Config.rnrTimer : Nat

/-- Free value: the controller's own estimate of its time error (R436), by the offset measured and the parent's error. -/
opaque Config.timeErr : Int → Nat → Nat

/-- Free value: whether the first of two clocks is the better one under the best master clock algorithm (R447), each by its
data set; `none` is this controller's clock, whose data set the spec does not give. -/
opaque Config.betterClock : Option (List Nat) → Option (List Nat) → Bool

/-- Implementation constant: the public key of image key slot 0 in ROM (R521). -/
opaque Config.romKey : Nat × Nat

/-- Implementation constant: Synievo's PCI-SIG vendor ID (the manual does not state it). -/
opaque Config.pciVendor : Nat

/-- Implementation constant: the resident firmware's version and security version (TOP_FW). -/
opaque Config.firmware : Nat × Nat

/-- Implementation constant: the digest of the boot ROM and of the resident firmware (R535). -/
opaque Config.codeDigest : Bool → List Nat

/-- Implementation constant: the vendor ID of provisioning messages (R522). -/
opaque Config.vdmVendor : Nat

/-- Implementation constant: Synievo's JEP106 manufacturer code (R621). -/
opaque Config.jep106 : Nat

/-- Free value: the CRC-32C of the built-in micro-program store, whose words the spec lists only in part. -/
opaque Config.builtinCrc : Nat

/-- Free value: the digest of the built-in micro-program store (R536). -/
opaque Config.builtinDigest : List Nat

/-- Implementation constant: the certificate chain of SPDM slot 0 (R534). -/
opaque Config.certChain : List Nat

/-- Implementation constant: the measurement blocks that count as the trusted computing base in a summary (R534). -/
opaque Config.tcbBlock : Nat → Bool

/-- Free value: a byte of the header page of a slab's copy (R132 gives the page no contents), by the slab's index and the offset. -/
opaque Config.slabHeader : Nat → Nat → Nat

/-- Free value: when a step of the boot sequence completed, in units of 10 µs after t0 (R544 bounds it), by start count and
step; step 0 is the PCIe ready time. -/
opaque Config.readyTime : Nat → Nat → Nat

/-- Implementation constant: the composition field of the built-in image (R80). -/
opaque Config.builtinComposition : Nat

/-- Implementation constant: the layout chain after the built-in image alone: SHA-384 of 48 zero bytes and its digest (R536), which
the spec does not give. -/
opaque Config.builtinChain : List Nat

/-- Free value: whether CLK_REF.ppm rounds a deviation up, by the double of the sum of the last 64 counts: the spec names no rounding. -/
opaque Config.ppmUp : Nat → Bool

/-- Where a job stood that met an exception. -/
structure JobPlace where
  nbu : Nat
  thread : Nat
  pc : Nat
  detail : Nat
  deriving DecidableEq, Repr, Inhabited

/-- Free value: the NBU, the thread, the pc and the detail of the job of an ATN_QKV that met EXP_RANGE (R223), by the number of the
work: the spec does not say which job meets it first. -/
opaque Config.faultJob : Nat → JobPlace

/-- Free value: the trigger that CTX_TORN reports where the reset of an island tore a context down (R21): the spec numbers none. -/
opaque Config.islandTrigger : Nat

/-- Free value: whether a part holds step slots in the image staging area (R520), by step reference: the spec does not say
where the scheduler places slots. -/
opaque Config.inStaging : Nat → Bool

/-- Free value: what a byte of host memory holds when the block reads it by a register write that carries no data: by time and
address. -/
opaque Config.hostByte : Nat → Nat → Nat

/-- Free value: how many instructions a host job has executed, and its NBU cycles, when an abort by a register write takes
effect (R209): by time, NBU and thread. -/
opaque Config.abortAt : Nat → Nat → Nat → Nat × Nat

/-- Implementation constant: where a junction sensor sits: 0 and 1 the dies, 2 + k the logic layer of stack k (R609 only says that
the sensors are spread over them). -/
opaque Config.sensorPlace : Nat → Nat

/-- Free value: what the boundary-scan register captures (R621): its length, given only in the BSDL file of the part, and the
levels in its cell order. -/
opaque Config.boundary : Nat → Nat × Nat

end Sys2Proof
end

