-- ==== Sys2Proof/Machine/Numerics.lean ====
section
/-! DEFINITION. Exact binary arithmetic: decoding the element formats, rounding to nearest even, comparison,
the exp2_fixed function of R222 within its bound. -/
namespace Sys2Proof.Machine

/-- `m · 2^e` brought to exponent `e' ≤ e`. -/
def dScale (d : Dyadic) (e' : Int) : Int := d.m * (2 ^ (d.e - e').toNat : Nat)

/-- Exact sum. -/
def dAdd (a b : Dyadic) : Dyadic :=
  let e := min a.e b.e
  ⟨dScale a e + dScale b e, e⟩

/-- Exact negation. -/
def dNeg (a : Dyadic) : Dyadic := ⟨-a.m, a.e⟩

/-- Exact difference. -/
def dSub (a b : Dyadic) : Dyadic := dAdd a (dNeg b)

/-- Exact product. -/
def dMul (a b : Dyadic) : Dyadic := ⟨a.m * b.m, a.e + b.e⟩

/-- Strict order. -/
def dLt (a b : Dyadic) : Bool :=
  let e := min a.e b.e
  decide (dScale a e < dScale b e)

/-- Equality of value. -/
def dEq (a b : Dyadic) : Bool := !dLt a b && !dLt b a

/-- The greater of two values. -/
def dMax (a b : Dyadic) : Dyadic := if dLt a b then b else a

/-- Zero. -/
def dZero : Dyadic := ⟨0, 0⟩

/-- An integer. -/
def dInt (i : Int) : Dyadic := ⟨i, 0⟩

/-- `⌊x⌋`. -/
def dFloor (d : Dyadic) : Int := if 0 ≤ d.e then d.m * (2 ^ d.e.toNat : Nat) else d.m / (2 ^ (-d.e).toNat : Nat)

/-- The quotient of naturals rounded to nearest, ties to even. -/
def divEven (x y : Nat) : Nat :=
  let q := x / y
  let r := x % y
  if 2 * r < y then q else if y < 2 * r then q + 1 else if q % 2 = 0 then q else q + 1

/-- The rational `a / b · 2^e` (b > 0) as significand and exponent with `prec` bits of precision and least
exponent `emin`, ties to even. -/
def roundRat (prec : Nat) (emin : Int) (a b : Nat) (e : Int) : Nat × Int :=
  if a = 0 then (0, emin)
  else
    let k0 : Int := (Nat.log2 a : Int) - (Nat.log2 b : Int)
    let small : Bool := if 0 ≤ k0 then decide (a < b * 2 ^ k0.toNat) else decide (a * 2 ^ (-k0).toNat < b)
    let k := (if small then k0 - 1 else k0) + e
    let u := max (k - ((prec : Int) - 1)) emin
    let sh := e - u
    if 0 ≤ sh then (divEven (a * 2 ^ sh.toNat) b, u) else (divEven a (b * 2 ^ (-sh).toNat), u)

/-- A floating format: precision, least exponent of the last place, exponent past the largest value. -/
structure FloatFmt where
  prec : Nat
  emin : Int
  emax : Int

/-- binary32. -/
def f32 : FloatFmt := ⟨24, -149, 128⟩
/-- BF16. -/
def bf16 : FloatFmt := ⟨8, -133, 128⟩
/-- binary16. -/
def fp16 : FloatFmt := ⟨11, -24, 16⟩

/-- A rounded result: a finite value, or beyond the range with a sign. -/
inductive Rounded where
  | fin (d : Dyadic)
  | over (neg : Bool)
  deriving DecidableEq, Repr

/-- Round the rational `num / den · 2^e` into a format. -/
def roundTo (f : FloatFmt) (num : Int) (den : Nat) (e : Int) : Rounded :=
  let (m, u) := roundRat f.prec f.emin num.natAbs den e
  let big : Bool := !(dLt ⟨m, u⟩ ⟨1, f.emax⟩)
  if big then .over (decide (num < 0)) else .fin ⟨if num < 0 then -(m : Int) else m, u⟩

/-- rnd32 of an exact value. -/
def rnd32 (d : Dyadic) : Rounded := roundTo f32 d.m 1 d.e

/-- The largest finite binary32 (FLT_MAX). -/
def fltMax : Dyadic := ⟨2 ^ 24 - 1, 104⟩

/-- sat32 of the rational `num / den · 2^e`: beyond the range, FLT_MAX with the sign (R360). -/
def sat32 (num : Int) (den : Nat) (e : Int) : Dyadic :=
  match roundTo f32 num den e with
  | .fin d => d
  | .over neg => if neg then dNeg fltMax else fltMax

/-- A decoded element: finite, infinite with a sign, or not a number. -/
inductive Elem where
  | fin (d : Dyadic)
  | inf (neg : Bool)
  | nan
  deriving DecidableEq, Repr

/-- Decode an IEEE-style pattern with `eb` exponent bits and `mb` significand bits. -/
def decodeFloat (eb mb : Nat) (bits : Nat) : Elem :=
  let neg := bitOf bits (eb + mb)
  let ex := bitsOf bits mb eb
  let fr := bitsOf bits 0 mb
  let bias : Int := 2 ^ (eb - 1) - 1
  if ex = 2 ^ eb - 1 then (if fr = 0 then .inf neg else .nan)
  else
    let m : Nat := if ex = 0 then fr else fr + 2 ^ mb
    let e : Int := (if ex = 0 then 1 else (ex : Int)) - bias - mb
    .fin ⟨if neg then -(m : Int) else m, e⟩

/-- Decode binary32. -/
def decode32 (b : Nat) : Elem := decodeFloat 8 23 b
/-- Decode a 16-bit element: binary16 where `half` holds, else BF16. -/
def decode16 (half : Bool) (b : Nat) : Elem := if half then decodeFloat 5 10 b else decodeFloat 8 7 b

/-- Encode a value already rounded into a format with `eb` exponent and `mb` significand bits. -/
def encodeFloat (eb mb : Nat) (r : Rounded) : Nat :=
  let bias : Int := 2 ^ (eb - 1) - 1
  match r with
  | .over neg => b2n neg * 2 ^ (eb + mb) + (2 ^ eb - 1) * 2 ^ mb
  | .fin d =>
    let a := d.m.natAbs
    let s := b2n (decide (d.m < 0)) * 2 ^ (eb + mb)
    if a = 0 then s
    else
      let k : Int := (Nat.log2 a : Int) + d.e
      let emin : Int := 1 - bias
      if k < emin then s + (dFloor ⟨a, d.e - (emin - mb)⟩).toNat
      else s + (k + bias).toNat * 2 ^ mb + ((dFloor ⟨a, d.e - (k - mb)⟩).toNat - 2 ^ mb)

/-- Lowest terms by halving, at most `fuel` times. -/
def dHalve : Nat → Dyadic → Dyadic
  | 0, d => d
  | n + 1, d => if d.m % 2 = 0 then dHalve n ⟨d.m / 2, d.e + 1⟩ else d

/-- The form of a value whose significand is odd; zero has exponent 0. -/
def dLowest (d : Dyadic) : Dyadic := if d.m = 0 then ⟨0, 0⟩ else dHalve (Nat.log2 d.m.natAbs + 1) d

/-- `2^(2^-i)` for i = 1 to 40, scaled by 2^40. -/
def exp2Table : List Nat := [
  1554944255988, 1307547050779, 1199025932245, 1148191166361, 1123587797336,
  1111484524408, 1105481867187, 1102492706220, 1101001158050, 1100256140847,
  1099883821316, 1099697708800, 1099604664352, 1099558145080, 1099534886182,
  1099523256917, 1099517442331, 1099514535050, 1099513081412, 1099512354594,
  1099511991185, 1099511809480, 1099511718628, 1099511673202, 1099511650489,
  1099511639133, 1099511633454, 1099511630615, 1099511629196, 1099511628486,
  1099511628131, 1099511627953, 1099511627865, 1099511627820, 1099511627798,
  1099511627787, 1099511627782, 1099511627779, 1099511627777, 1099511627777]

/-- `2^f` scaled by 2^40 for `f = num / 2^40`: the product of the table entries of the set bits. -/
def exp2Frac (num : Nat) : Nat :=
  (List.range 40).foldl (fun acc i => if bitOf num (39 - i) then acc * exp2Table.getD i 0 / 2 ^ 40 else acc) (2 ^ 40)

/-- exp2_fixed of R222: a significand in [2^30, 2^31) and an exponent, within relative error 2^-26 of `2^t`;
where in that bound it falls is free. -/
def exp2Fixed (t : Dyadic) : Dyadic :=
  let fl := dFloor t
  let frac := (dFloor ⟨t.m, t.e + 40⟩ - fl * (2 ^ 40 : Nat)).toNat
  let s0 := exp2Frac frac / 2 ^ 10
  let b := s0 / 2 ^ 26 + 1
  let s := s0 - b + Config.exp2Offset (dLowest (dSub t (dInt fl))) % (2 * b + 1)
  ⟨(Nat.max (2 ^ 30) (Nat.min s (2 ^ 31 - 1)) : Nat), fl - 30⟩

end Sys2Proof.Machine
end

