-- ==== Sys2Proof/Machine/Acc.lean ====
section
/-! DEFINITION. Exact accumulators and element forms of the near-bank units and tiles (R199 to R204, R220),
groups in BX8 and BX16 (R126 to R128). -/
namespace Sys2Proof.Machine

/-! ### Elements (R199, R200) -/

/-- An element: `sig · 2^x`, or poisoned. -/
structure Elt where
  sig : Int := 0
  x : Int := 0
  poison : Bool := false
  deriving DecidableEq, Repr

/-- Zero. -/
def eltZero : Elt := ⟨0, 0, false⟩
/-- A poisoned element: exponent 0x8000. -/
def eltPoison : Elt := ⟨0, -32768, true⟩

/-- The value of an element that is not poisoned. -/
def eltVal (u : Elt) : Dyadic := ⟨u.sig, u.x⟩

/-- The element of a decoded 16-bit or binary32 pattern: zero has exponent 0, what is not finite is poisoned. -/
def eltOf (v : Elem) : Elt :=
  match v with
  | .fin d => if d.m = 0 then eltZero else ⟨d.m, d.e, false⟩
  | _ => eltPoison

/-- binary32 as an element. -/
def elt32 (b : Nat) : Elt := eltOf (decode32 b)
/-- BF16 or FP16 as an element. -/
def elt16 (half : Bool) (b : Nat) : Elt := eltOf (decode16 half b)

/-! ### Groups (R126 to R128) -/

/-- A BX group: exponent and integers. -/
structure Group where
  e : Nat
  q : List Int
  deriving DecidableEq, Repr

/-- Bytes of a group. -/
def groupBytes (bx16 : Bool) : Nat := if bx16 then 32 else 16
/-- Bits of an element of a group. -/
def groupBits (bx16 : Bool) : Nat := if bx16 then 15 else 7
/-- The greatest magnitude the controller writes. -/
def groupQmax (bx16 : Bool) : Nat := if bx16 then 16383 else 63

/-- The bytes of a group (R126). -/
def packGroup (bx16 : Bool) (g : Group) : List Nat :=
  let w := groupBits bx16
  let payload := g.q.zipIdx.foldl (fun n x => n + ofSigned w x.1 * 2 ^ (w * x.2)) 0
  [g.e % 256, 0] ++ leBytes (groupBytes bx16 - 2) payload

/-- The group stored in bytes; reserved bits are ignored. -/
def unpackGroup (bx16 : Bool) (b : List Nat) : Group :=
  let w := groupBits bx16
  let payload := leNat (b.drop 2)
  ⟨b.getD 0 0 % 256, (List.range 16).map fun i => toSigned w (bitsOf payload (w * i) w)⟩

/-- Element `i` of a group (R127, R200). -/
def groupElt (g : Group) (i : Nat) : Elt :=
  if g.e = 255 then eltPoison else if g.e = 0 then eltZero else ⟨g.q.getD i 0, (g.e : Int) - 127, false⟩

/-- The nearest integer to a dyadic, ties to even. -/
def roundHalfEven (d : Dyadic) : Int :=
  if 0 ≤ d.e then d.m * (2 ^ d.e.toNat : Nat)
  else
    let q := divEven d.m.natAbs (2 ^ (-d.e).toNat)
    if d.m < 0 then -(q : Int) else q

/-- The magnitude of a dyadic. -/
def dAbs (d : Dyadic) : Dyadic := ⟨d.m.natAbs, d.e⟩

/-- The least `s` with `qmax · 2^s ≥ a`, for a > 0. -/
def scaleFor (qmax : Nat) (a : Dyadic) : Int :=
  let s0 : Int := (Nat.log2 a.m.natAbs : Int) + a.e - (Nat.log2 qmax : Int) - 1
  let ok (s : Int) : Bool := !dLt ⟨(qmax : Int), s⟩ a
  if ok s0 then s0 else if ok (s0 + 1) then s0 + 1 else s0 + 2

/-- quantize_group (R128) of 16 values; `none` among them is not finite. -/
def quantizeGroup (qmax : Nat) (xs : List (Option Dyadic)) : Group :=
  if xs.any (·.isNone) then ⟨255, List.replicate 16 0⟩
  else
    let vs := xs.map fun o => o.getD dZero
    let a := vs.foldl (fun m v => dMax m (dAbs v)) dZero
    if a.m = 0 then ⟨0, List.replicate 16 0⟩
    else
      let s := max (scaleFor qmax a) (-126)
      ⟨(s + 127).toNat, vs.map fun v => roundHalfEven ⟨v.m, v.e - s⟩⟩

/-! ### Accumulators (R201 to R204) -/

/-- One element of an accumulator. -/
structure AccElt where
  m : Int := 0
  sticky : Bool := false
  poison : Bool := false
  cnt : Nat := 0
  deriving DecidableEq, Repr

/-- An accumulator: sixteen elements, shared exponent, flags. -/
structure Acc where
  els : List AccElt := List.replicate 16 {}
  e : Int := 0
  empty : Bool := true
  ix : Bool := false
  deriving DecidableEq, Repr

/-- `v · 2^s` toward minus infinity, and whether bits were lost. -/
def shiftFloor (v : Int) (s : Int) : Int × Bool :=
  if 0 ≤ s then (v * (2 ^ s.toNat : Nat), false)
  else
    if s ≤ -96 then (if v < 0 then -1 else 0, decide (v ≠ 0))
    else
      let q : Int := v / (2 ^ (-s).toNat : Nat)
      (q, decide (q * (2 ^ (-s).toNat : Nat) ≠ v))

/-- Shift one element. -/
def shiftElt (s : Int) (a : AccElt) : AccElt :=
  let (q, lost) := shiftFloor a.m s
  { a with m := q, sticky := a.sticky || lost }

/-- Whether shifting an element loses bits. -/
def shiftLoses (s : Int) (a : AccElt) : Bool := (shiftFloor a.m s).2

/-- Raise the window to exponent `e` (R202). -/
def raiseWindow (a : Acc) (e : Int) : Acc :=
  { a with els := a.els.map (shiftElt (a.e - e)), e := e, ix := a.ix || a.els.any (shiftLoses (a.e - e)) }

/-- Update element `k`. -/
def accMod (a : Acc) (k : Nat) (f : AccElt → AccElt) : Acc := { a with els := modAt f k a.els }

/-- Element `k`. -/
def accAt (a : Acc) (k : Nat) : AccElt := a.els.getD k {}

/-- `term` of R202: add `p · 2^x` to element `k`; `none` where TERM_LIMIT is raised. -/
def accTerm (a : Acc) (k : Nat) (p x : Int) (poisoned : Bool) : Option Acc :=
  let a := accMod a k fun el => { el with cnt := el.cnt + 1 }
  if 65536 < (accAt a k).cnt then none
  else if poisoned then some (accMod a k fun el => { el with poison := true })
  else if p = 0 then some a
  else
    let lead : Int := (Nat.log2 p.natAbs : Int) + x
    let a := if a.empty then { a with e := lead - 88, empty := false }
      else if a.e + 92 ≤ lead then raiseWindow a (lead - 88) else a
    let (q, lost) := shiftFloor p (x - a.e)
    let a := { accMod a k (fun el => { el with m := el.m + q, sticky := el.sticky || lost }) with ix := a.ix || lost }
    some (if 2 ^ 94 ≤ (accAt a k).m.natAbs then raiseWindow a (a.e + 8) else a)

/-- Add an element's value as a term. -/
def accElt (a : Acc) (k : Nat) (u : Elt) : Option Acc := accTerm a k u.sig u.x u.poison

/-- `add_prod` of R221. -/
def accProd (a : Acc) (k : Nat) (u v : Elt) (neg : Bool) : Option Acc :=
  accTerm a k (if neg then -(u.sig * v.sig) else u.sig * v.sig) (u.x + v.x) (u.poison || v.poison)

/-- The value of element `k` as held: `m · 2^e`. -/
def accVal (a : Acc) (k : Nat) : Dyadic := if a.empty then dZero else ⟨(accAt a k).m, a.e⟩

/-- The value that ROUND, QNT and WIDEN round (R204): half a unit below the window is added where bits were lost. -/
def accDelta (a : Acc) (k : Nat) : Dyadic :=
  if a.empty then dZero
  else if (accAt a k).sticky then ⟨2 * (accAt a k).m + 1, a.e - 1⟩ else ⟨(accAt a k).m, a.e⟩

/-- The saved form of an accumulator (R220). -/
def packAcc (a : Acc) : List Nat :=
  (a.els.map fun el => leBytes 12 (ofSigned 96 el.m)).flatten ++ leBytes 4 (ofSigned 32 a.e) ++
    leBytes 2 (b2n a.empty + 2 * b2n a.ix) ++
    leBytes 2 (maskOf ((a.els.zipIdx.filter (·.1.poison)).map (·.2))) ++
    leBytes 2 (maskOf ((a.els.zipIdx.filter (·.1.sticky)).map (·.2))) ++ [0, 0] ++
    leBytes 4 (maxOf (a.els.map (·.cnt)))

/-- The accumulator saved in 208 bytes. -/
def unpackAcc (b : List Nat) : Acc :=
  let fl := leAt b 196 2
  { els := (List.range 16).map fun k =>
      { m := toSigned 96 (leAt b (12 * k) 12), sticky := bitOf (leAt b 200 2) k, poison := bitOf (leAt b 198 2) k,
        cnt := leAt b 204 4 },
    e := toSigned 32 (leAt b 192 4), empty := bitOf fl 0, ix := bitOf fl 1 }

/-- The exact dot product of two element lists as one accumulation in one element, for R181 and R189. -/
def accDot (us vs : List Elt) : Acc :=
  (us.zip vs).foldl (fun a p => (accProd a 0 p.1 p.2 false).getD a) {}

/-- binary32 of a value, quiet NaN where it is poisoned or overflows. -/
def store32 (poison : Bool) (d : Dyadic) : Nat :=
  if poison then 0x7FC00000
  else match rnd32 d with
    | .over _ => 0x7FC00000
    | .fin v => encodeFloat 8 23 (.fin v)

end Sys2Proof.Machine
end

