-- ==== Sys2Proof/Machine/Mem.lean ====
section
/-! DEFINITION. The addressed memories of the block: lists of (address, byte) with addresses strictly rising and
no byte equal to what an unlisted address reads as. -/
namespace Sys2Proof.Machine

/-- A memory: its listed bytes. -/
abbrev Mem := List Host.Cell

/-- What an address that nothing has written reads as (DESIGN CHOICE: the spec gives no power-on contents). -/
def unlisted : Byte := 0

/-- The byte at an address. -/
def readByte : Mem → Nat → Byte
  | [], _ => unlisted
  | (j, b) :: t, a => if j = a then b else readByte t a

/-- The memory with no entry at an address. -/
def dropByte : Mem → Nat → Mem
  | [], _ => []
  | (j, b) :: t, a => if j = a then t else if a < j then (j, b) :: t else (j, b) :: dropByte t a

/-- The memory with an entry at an address. -/
def putByte : Mem → Nat → Byte → Mem
  | [], a, v => [(a, v)]
  | (j, b) :: t, a, v =>
    if a < j then (a, v) :: (j, b) :: t
    else if a = j then (a, v) :: t
    else (j, b) :: putByte t a v

/-- Write a byte: a byte equal to the unlisted value is not listed. -/
def writeByte (m : Mem) (a : Nat) (v : Byte) : Mem := if v = unlisted then dropByte m a else putByte m a v

/-- Every entry of the memory lies above `a`, addresses rise strictly, no entry holds the unlisted value. -/
def wfAbove : Nat → Mem → Bool
  | _, [] => true
  | a, (j, b) :: t => decide (a < j) && decide (b ≠ unlisted) && wfAbove j t

/-- The canonical form of a memory. -/
def Mem.wf : Mem → Bool
  | [] => true
  | (j, b) :: t => decide (b ≠ unlisted) && wfAbove j t

/-- `n` bytes from an address, as numbers. -/
def readBytes (m : Mem) : Nat → Nat → List Nat
  | _, 0 => []
  | a, n + 1 => (readByte m a).toNat :: readBytes m (a + 1) n

/-- The little-endian number of `n` bytes at an address. -/
def readLE (m : Mem) (a n : Nat) : Nat := leNat (readBytes m a n)

/-- Write bytes from an address on. -/
def writeBytes : Mem → Nat → List Nat → Mem
  | m, _, [] => m
  | m, a, b :: t => writeBytes (writeByte m a (BitVec.ofNat 8 b)) (a + 1) t

/-- Write a number as `n` little-endian bytes. -/
def writeLE (m : Mem) (a n v : Nat) : Mem := writeBytes m a (leBytes n v)

/-- The listed bytes of a range, addressed from its start. -/
def memRange (m : Mem) (a n : Nat) : Mem :=
  (m.filter fun c => decide (a ≤ c.1) && decide (c.1 < a + n)).map fun c => (c.1 - a, c.2)

/-- The memory with a range read as unlisted. -/
def clearRange (m : Mem) (a n : Nat) : Mem := m.filter fun c => !(decide (a ≤ c.1) && decide (c.1 < a + n))

/-- Write the listed bytes of a piece at an address. -/
def writeCells : Mem → Nat → Mem → Mem
  | m, _, [] => m
  | m, a, (j, b) :: t => writeCells (writeByte m (a + j) b) a t

/-- Replace a range of `n` bytes at `a` by a piece addressed from its start. -/
def putRange (m : Mem) (a n : Nat) (piece : Mem) : Mem := writeCells (clearRange m a n) a piece

end Sys2Proof.Machine
end

