-- ==== Sys2Proof/Machine/StateLay.lean ====
section
/-! DEFINITION. The layout image in force, the staged and flashed images, loads in progress (chapter
"The layout image"). -/
namespace Sys2Proof.Machine

/-- A partition entry (R65). -/
structure Partition where
  enable : Bool := false
  classMask : Nat := 0
  maxContexts : Nat := 0
  atticShare : Nat := 0
  stepShare : Nat := 0
  affinity : Nat := 0
  deriving DecidableEq, Repr

/-- The ATTIC section (R66, R67), sizes in KiB per bank pair. -/
structure AtticSec where
  stackMask : Nat := 0
  crateKib : Nat := 0
  slabKib : Nat := 0
  invKib : Nat := 0
  vsrKib : Nat := 0
  spareKib : Nat := 0
  deriving DecidableEq, Repr

/-- The SRAM section (R68), regions in MiB. -/
structure SramSec where
  step : Nat := 96
  embed : Nat := 64
  map : Nat := 32
  vocab : Nat := 24
  desc : Nat := 16
  queue : Nat := 24
  deriving DecidableEq, Repr

/-- The STORE_ROOM section. -/
structure StoreSec where
  chanMask : Nat := 0
  rate : Nat := 4800
  spillUnits : Nat := 0
  deriving DecidableEq, Repr

/-- A bay entry (R69). -/
structure Bay where
  personality : Nat := 0
  linkMask : Nat := 0
  integrityOnly : Bool := false
  holdMs : Nat := 0
  deriving DecidableEq, Repr

/-- A regulator entry (R71). -/
structure Regulator where
  rate : Nat := 0
  burstKib : Nat := 0
  deriving DecidableEq, Repr

/-- The PLACEMENT section (R631). -/
structure PlaceSec where
  crateStacks : Nat := 0
  slabStacks : Nat := 0
  spread : Nat := 0
  seed : Nat := 0
  deriving DecidableEq, Repr

/-- A MICROPROG section (R72). -/
structure MicroSec where
  stackMask : Nat
  entries : List Nat
  code : List Nat
  deriving DecidableEq, Repr

/-- A CAM rule record (R73). -/
structure CamRule where
  bank : Nat
  width : Nat
  priority : Nat
  action : Nat
  key : Nat
  mask : Nat
  deriving DecidableEq, Repr

/-- A role entry (R74). -/
structure Role where
  kind : Nat
  epoch : Nat
  device : Nat
  key : Nat
  deriving DecidableEq, Repr

/-- A route entry (R76). -/
structure Route where
  links : Nat := 0
  ethPorts : Nat := 0
  policy : Nat := 0
  valid : Bool := false
  deriving DecidableEq, Repr

/-- The sections of an image (R64); in a partial image those it omits are absent. -/
structure Sections where
  partitions : Option (List Partition) := none
  attic : Option AtticSec := none
  sram : Option SramSec := none
  store : Option StoreSec := none
  bays : Option (List Bay) := none
  clocks : Option (List Nat) := none
  regulators : Option (List Regulator) := none
  placement : Option PlaceSec := none
  micro : Option (List MicroSec) := none
  cam : Option (List CamRule) := none
  roles : Option (List Role) := none
  routes : Option (List (Nat × List Route)) := none
  deriving DecidableEq, Repr

/-- The layout in force: every section at its active value. -/
structure Layout where
  partitions : List Partition := []
  attic : AtticSec := {}
  sram : SramSec := {}
  store : StoreSec := {}
  bays : List Bay := []
  clocks : List Nat := []
  regulators : List Regulator := []
  placement : PlaceSec := {}
  roles : List Role := []
  routes : Tbl Route := []
  /-- the built-in image of R80 is running -/
  builtin : Bool := false
  serial : Nat := 0
  composition : Nat := 0
  deriving DecidableEq, Repr

/-- An accepted image: header fields, sections and digest. -/
structure Image where
  flags : Nat
  serial : Nat
  baseSerial : Nat
  composition : Nat
  digest : Nat
  /-- the image key slot that signed it (R77) -/
  keySlot : Nat
  sections : Sections
  deriving DecidableEq, Repr

/-- A fast recomposition in progress (R86). -/
structure FastRecomp where
  image : Image
  /-- step descriptors that arrived meanwhile -/
  descs : List StepDesc := []
  deriving DecidableEq, Repr

/-- A micro-program reload in progress (R214): the stacks that have not yet taken the new store. -/
structure Reload where
  section_ : MicroSec
  left : List Nat
  serial : Nat
  deriving DecidableEq, Repr

/-- The layout unit: the layout in force, the two SPI slots, loads in progress. -/
structure LayUnit where
  active : Layout := {}
  /-- the image booted from flash at the last start, for the rules of R547 -/
  booted : Option Image := none
  slotA : Option Image := none
  slotB : Option Image := none
  fast : Option FastRecomp := none
  reloads : List Reload := []
  /-- an image whose sections after MICROPROG wait for a reload -/
  tail : Option Image := none
  /-- the digest chain of accepted images since the start (R536) -/
  chain : List Nat := []
  /-- the firmware in SPI flash passes verification at a start -/
  firmwareOk : Bool := true
  deriving DecidableEq, Repr

end Sys2Proof.Machine
end

