-- ==== Sys2Proof/Machine/NbuIsa.lean ====
section
/-! DEFINITION. The instruction set of the near-bank units: encoding and load checks (R213, R216, R217), one
thread's instruction step (R218 to R222), exceptions (R223). -/
namespace Sys2Proof.Machine

/-! ### Instruction words (R216) -/

/-- A decoded instruction word. -/
structure NbuInstr where
  op : Nat
  cond : Nat
  rsv : Nat
  d : Nat
  a : Nat
  b : Nat
  c : Nat
  m : Nat
  imm : Nat
  deriving DecidableEq, Repr

/-- The fields of an instruction word. -/
def nbuFields (w : Nat) : NbuInstr :=
  ⟨bitsOf w 56 8, bitsOf w 54 2, bitsOf w 52 2, bitsOf w 48 4, bitsOf w 44 4, bitsOf w 40 4, bitsOf w 36 4,
    bitsOf w 32 4, bitsOf w 0 32⟩

/-- What a register field names. `s4` is the first of four S registers, `base` allows 0xF, `pair` is wide where m
bit 2 is set. -/
inductive RegKind where
  | no | s | base | s4 | a | v | w | pair | p
  deriving DecidableEq, Repr

/-- Whether a register field is in range for its kind (R213); a field not used is 0. -/
def kindOk (k : RegKind) (m n : Nat) : Bool :=
  match k with
  | .no => n = 0
  | .s => decide (n < 8)
  | .base => decide (n < 8) || n = 15
  | .s4 => decide (n ≤ 4)
  | .a => decide (n < 4)
  | .v => true
  | .w => n % 2 = 0
  | .pair => !bitOf m 2 || n % 2 = 0
  | .p => decide (n < 2)

/-- Which fields an opcode uses: d, a, b, c, defined modes, bits of the immediate (R217). -/
structure OpForm where
  op : Nat
  d : RegKind
  a : RegKind
  b : RegKind
  c : RegKind
  modes : List Nat
  imm : Nat
  deriving DecidableEq, Repr

/-- Control and scalar opcodes. -/
def opForms0 : List OpForm := [
  ⟨0x00, .no, .no, .no, .no, [0], 0⟩, ⟨0x01, .no, .no, .no, .no, [0], 8⟩, ⟨0x02, .no, .no, .no, .no, [0], 10⟩,
  ⟨0x03, .s, .no, .no, .no, [0], 10⟩, ⟨0x04, .no, .no, .no, .no, [0], 0⟩, ⟨0x05, .no, .no, .no, .no, [0], 16⟩,
  ⟨0x10, .s, .no, .no, .no, [0], 32⟩, ⟨0x11, .s, .s, .no, .no, [0], 32⟩, ⟨0x12, .s, .s, .s, .no, [0], 0⟩,
  ⟨0x13, .s, .s, .s, .no, [0], 0⟩, ⟨0x14, .s, .s, .s, .no, [0], 0⟩, ⟨0x15, .s, .s, .no, .no, [0], 5⟩,
  ⟨0x16, .s, .s, .no, .no, [0], 5⟩, ⟨0x17, .s, .s, .no, .no, [0], 32⟩, ⟨0x18, .s, .s, .s, .no, [0], 0⟩,
  ⟨0x19, .s, .no, .no, .no, [0], 5⟩, ⟨0x1A, .no, .s, .no, .no, [0], 5⟩, ⟨0x1B, .p, .s, .s, .no, [0], 0⟩,
  ⟨0x1C, .p, .s, .s, .no, [0], 0⟩, ⟨0x1D, .p, .s, .no, .no, [0], 32⟩]

/-- Load, store and stream opcodes. -/
def opForms1 : List OpForm := [
  ⟨0x20, .s, .base, .no, .no, [0], 16⟩, ⟨0x21, .s, .base, .no, .no, [0], 16⟩,
  ⟨0x22, .v, .base, .base, .base, [0, 1, 2, 3, 4, 5], 28⟩, ⟨0x23, .v, .base, .no, .no, [0, 1], 16⟩,
  ⟨0x24, .w, .base, .no, .no, [0, 1], 24⟩, ⟨0x25, .w, .base, .no, .no, [0], 16⟩, ⟨0x26, .v, .base, .no, .no, [0, 1], 16⟩,
  ⟨0x27, .pair, .base, .no, .no, [0, 4], 16⟩, ⟨0x28, .pair, .base, .no, .no, [0, 4], 16⟩,
  ⟨0x29, .a, .base, .no, .no, [0], 16⟩, ⟨0x2A, .a, .base, .no, .no, [0], 16⟩, ⟨0x2B, .s4, .base, .no, .no, [0], 16⟩,
  ⟨0x2C, .s, .s, .no, .no, [0], 32⟩, ⟨0x2D, .s, .s, .no, .no, [0], 32⟩]

/-- Array, accumulator and function opcodes. -/
def opForms2 : List OpForm := [
  ⟨0x30, .a, .pair, .v, .no, [0, 1, 2, 4, 5, 6, 8, 9, 10, 12, 13, 14], 0⟩, ⟨0x31, .a, .no, .no, .no, [0], 0⟩,
  ⟨0x32, .a, .pair, .no, .no, [0, 4], 0⟩, ⟨0x33, .a, .a, .a, .no, [0], 0⟩, ⟨0x34, .a, .a, .no, .base, [0, 1], 0⟩,
  ⟨0x35, .a, .base, .no, .no, [0], 16⟩, ⟨0x36, .pair, .no, .no, .base, [0, 4], 0⟩,
  ⟨0x37, .pair, .pair, .no, .no, [0, 4], 0⟩, ⟨0x38, .v, .no, .no, .no, [0], 32⟩, ⟨0x39, .w, .s, .no, .no, [0], 0⟩,
  ⟨0x40, .s4, .a, .s, .no, [0], 0⟩, ⟨0x41, .w, .a, .s4, .s, [0], 0⟩, ⟨0x42, .w, .a, .no, .no, [0], 0⟩,
  ⟨0x43, .v, .a, .no, .no, [0, 1], 0⟩, ⟨0x44, .w, .a, .no, .no, [0], 0⟩, ⟨0x45, .v, .w, .no, .v, [0], 0⟩,
  ⟨0x46, .w, .w, .w, .no, [0], 0⟩, ⟨0x47, .w, .w, .w, .no, [0], 0⟩, ⟨0x48, .w, .w, .no, .no, [0], 0⟩,
  ⟨0x49, .w, .w, .no, .no, [0], 0⟩]

/-- The opcodes of R217. -/
def opForms : List OpForm := opForms0 ++ opForms1 ++ opForms2

/-- Registers of an instruction are in range for their kinds. -/
def nbuRegsOk (f : OpForm) (i : NbuInstr) : Bool :=
  kindOk f.d i.m i.d && kindOk f.a i.m i.a && kindOk f.b i.m i.b && kindOk f.c i.m i.c

/-- Opcode, modes and unused fields of an instruction are as R213 asks. -/
def nbuFieldsOk (f : OpForm) (i : NbuInstr) : Bool :=
  f.modes.contains i.m && i.rsv = 0 && decide (i.imm < 2 ^ f.imm) &&
    (f.d ≠ .no || i.d = 0) && (f.a ≠ .no || i.a = 0) && (f.b ≠ .no || i.b = 0) && (f.c ≠ .no || i.c = 0) &&
    (i.op ≠ 0x01 || i.imm = 0 || decide (0x80 ≤ i.imm)) &&
    (!(i.op = 0x2C || i.op = 0x2D) || (i.imm % 32 = 0 && decide (i.imm ≤ 65536)))

/-- The form of an opcode. -/
def opForm (op : Nat) : Option OpForm := opForms.find? (·.op = op)

/-- The load check of R213 on one instruction of a program of `count`. -/
def nbuLoadOk (count w : Nat) : Bool :=
  let i := nbuFields w
  match opForm i.op with
  | none => false
  | some f => nbuRegsOk f i && nbuFieldsOk f i && (!(i.op = 0x02 || i.op = 0x03) || decide (i.imm < count))

/-! ### A thread's job -/

/-- A job in execution: registers (R198), argument halves, the memories with the job's windows. -/
structure NbuJob where
  v : List (List (Int × Int)) := List.replicate 16 (List.replicate 16 (0, 0))
  a : List Acc := List.replicate 4 {}
  s : List Nat := List.replicate 8 0
  p : List Bool := [false, false]
  pc : Nat := 0
  args : List Nat := []
  near : Mem
  nearBase : Nat
  nearLen : Nat
  bank : Mem
  bankBase : Nat
  bankLen : Nat
  inexact : Bool := false
  poison : Bool := false
  deriving DecidableEq, Repr

/-- How an instruction leaves its thread. -/
inductive NbuStep where
  | go (j : NbuJob)
  | stop (j : NbuJob) (code pc detail : Nat)
  deriving DecidableEq, Repr

/-- The result of an operation that can raise an exception code. -/
abbrev NbuM (α : Type) := Except Nat α

/-- `S[n]`. -/
def NbuJob.sAt (j : NbuJob) (n : Nat) : Nat := j.s.getD n 0
/-- `S[n]` as a signed number. -/
def NbuJob.sInt (j : NbuJob) (n : Nat) : Int := toSigned 32 (j.sAt n)
/-- Write `S[n]`. -/
def NbuJob.setS (j : NbuJob) (n v : Nat) : NbuJob := { j with s := modAt (fun _ => v % 2 ^ 32) n j.s }
/-- Write `S[n]` with a signed number. -/
def NbuJob.setI (j : NbuJob) (n : Nat) (v : Int) : NbuJob := j.setS n (ofSigned 32 v)
/-- `A[n]`. -/
def NbuJob.aAt (j : NbuJob) (n : Nat) : Acc := j.a.getD n {}
/-- Write `A[n]`; an inexact flag is remembered for the status word. -/
def NbuJob.setA (j : NbuJob) (n : Nat) (x : Acc) : NbuJob :=
  { j with a := modAt (fun _ => x) n j.a, inexact := j.inexact || x.ix }
/-- `S[c]`, or 16 where no limit register is named (R219). -/
def NbuJob.lim (j : NbuJob) (c : Nat) : Int := if c = 15 then 16 else j.sInt c

/-- Element `k` of narrow register `n` (R199). -/
def NbuJob.narrow (j : NbuJob) (n k : Nat) : Elt :=
  let e := (j.v.getD n []).getD k (0, 0)
  if e.2 = -32768 then eltPoison else ⟨e.1, e.2, false⟩

/-- Element `k` of the wide pair at even register `n` (R199). -/
def NbuJob.wide (j : NbuJob) (n k : Nat) : Elt :=
  let hi := (j.v.getD n []).getD k (0, 0)
  let lo := (j.v.getD (n + 1) []).getD k (0, 0)
  if hi.2 = -32768 then eltPoison else ⟨hi.1 * 65536 + (ofSigned 16 lo.1 : Nat), hi.2, false⟩

/-- Element `k` of a register, wide where `w`. -/
def NbuJob.elt (j : NbuJob) (w : Bool) (n k : Nat) : Elt := if w then j.wide n k else j.narrow n k

/-- A register's raw narrow content. -/
def narrowRaw (u : Elt) : Int × Int := if u.poison then (0, -32768) else (toSigned 16 (ofSigned 16 u.sig), u.x)

/-- Write a narrow register. -/
def NbuJob.setNarrow (j : NbuJob) (n : Nat) (es : List Elt) : NbuJob :=
  { j with v := modAt (fun _ => es.map narrowRaw) n j.v }

/-- Write a wide pair: upper and lower 16 bits of the significand. -/
def NbuJob.setWide (j : NbuJob) (n : Nat) (es : List Elt) : NbuJob :=
  let hi := es.map fun u => if u.poison then ((0 : Int), (-32768 : Int)) else (toSigned 32 (ofSigned 32 u.sig) / 65536, u.x)
  let lo := es.map fun u => if u.poison then ((0 : Int), (0 : Int)) else (toSigned 16 (ofSigned 16 u.sig), 0)
  { j with v := modAt (fun _ => lo) (n + 1) (modAt (fun _ => hi) n j.v) }

/-- Check a near-buffer access: NEAR_RANGE outside the window or misaligned. -/
def NbuJob.checkNear (j : NbuJob) (addr n align : Nat) : NbuM Unit :=
  if addr + n ≤ j.nearLen ∧ addr % align = 0 then .ok () else .error 0x04

/-- Check a bank access. -/
def NbuJob.checkBank (j : NbuJob) (addr n : Nat) : NbuM Unit :=
  if addr + n ≤ j.bankLen ∧ addr % 32 = 0 then .ok () else .error 0x05

/-- Bytes of the near window. -/
def NbuJob.nearBytes (j : NbuJob) (addr n : Nat) : List Nat := readBytes j.near (j.nearBase + addr) n
/-- A 32-bit word of the near window. -/
def NbuJob.near32 (j : NbuJob) (addr : Nat) : Nat := readLE j.near (j.nearBase + addr) 4
/-- Write bytes into the near window. -/
def NbuJob.putNear (j : NbuJob) (addr : Nat) (b : List Nat) : NbuJob :=
  { j with near := writeBytes j.near (j.nearBase + addr) b }

/-- The near address of an operand `[a+off]`. -/
def NbuJob.ea (j : NbuJob) (i : NbuInstr) : Nat :=
  ((if i.a = 15 then 0 else j.sAt i.a) + i.imm % 2 ^ 16) % 2 ^ 32

/-- The sixteen indices of a tile. -/
def idx16 : List Nat := List.range 16

/-- INT_MIN. -/
def intMin : Int := -(2 ^ 31)

/-- LDT: one element of the tile (R219). -/
def ldtElt (j : NbuJob) (i : NbuInstr) (k : Nat) : NbuM Elt :=
  let addr := j.ea i
  let el : Int := (if i.b = 15 then 0 else j.sInt i.b) + (bitsOf i.imm 24 4 : Nat)
  let str := bitsOf i.imm 16 8 * 16
  let bx16 := bitOf i.m 0
  let r := k / 4
  let col := k % 4
  let (tok, ei, at_) : Nat × Int × Nat := match i.m / 2 with
    | 0 => (0, (k : Int), addr)
    | 1 => (col, el + r, addr + col * str)
    | _ => (r, el + col, addr + r * str)
  if ei < 0 ∨ 15 < ei then .error 0x07
  else if i.m / 2 ≠ 0 ∧ j.lim i.c ≤ tok then .ok eltZero
  else do
    j.checkNear at_ (groupBytes bx16) (groupBytes bx16)
    .ok (groupElt (unpackGroup bx16 (j.nearBytes at_ (groupBytes bx16))) ei.toNat)

/-- STQ: the group that a narrow register holds, or FORM. -/
def stqGroup (bx16 : Bool) (es : List Elt) : NbuM Group :=
  let u := es.getD 0 eltZero
  if es.all (·.poison) then .ok ⟨255, List.replicate 16 0⟩
  else if es.any (·.poison) then .error 0x07
  else if es.all (·.sig = 0) then .ok ⟨0, List.replicate 16 0⟩
  else if es.all (fun x => x.x = u.x && decide (x.sig.natAbs ≤ groupQmax bx16)) && decide (1 ≤ u.x + 127) &&
      decide (u.x + 127 ≤ 254) then .ok ⟨(u.x + 127).toNat, es.map (·.sig)⟩
  else .error 0x07

/-- One MMA output element's terms, in ascending inner index (R221). -/
def mmaTerms (m k t : Nat) : Nat × Nat :=
  if m % 4 = 0 then (4 * (k / 4) + t, 4 * t + k % 4)
  else if m % 4 = 1 then (4 * (k / 4) + t, 4 * (k % 4) + t)
  else (k, k)

/-- TERM_LIMIT where a term did not fit. -/
def orLimit (o : Option Acc) : NbuM Acc := match o with | some a => .ok a | none => .error 0x09

/-- MMA (R221). -/
def mma (j : NbuJob) (i : NbuInstr) : NbuM Acc :=
  let w := bitOf i.m 2
  let neg := bitOf i.m 3
  let inner := if i.m % 4 = 2 then 1 else 4
  idx16.foldlM (fun a k =>
    (List.range inner).foldlM (fun a t =>
      let (x, y) := mmaTerms i.m k t
      orLimit (accProd a k (j.elt w i.a x) (j.narrow i.b y) neg)) a) (j.aAt i.d)

/-- The value of an accumulator element as an element; none for minus infinity (an empty accumulator in AMAX). -/
def accAsElt (a : Acc) (k : Nat) : Elt :=
  if (accAt a k).poison then eltPoison else ⟨(accAt a k).m, if a.empty then 0 else a.e, false⟩

/-- The greater of two accumulators' elements, an empty one below every value. -/
def exactMax (t u : Acc) (k : Nat) : Elt :=
  if (accAt t k).poison || (accAt u k).poison then eltPoison
  else if t.empty then accAsElt u k
  else if u.empty then accAsElt t k
  else if dLt (accVal t k) (accVal u k) then accAsElt u k else accAsElt t k

/-- AMAX. -/
def amax (t u : Acc) : NbuM Acc :=
  if t.empty && u.empty && !idx16.any (fun k => (accAt t k).poison || (accAt u k).poison) then .ok {}
  else idx16.foldlM (fun a k => orLimit (accElt a k (exactMax t u k))) {}

/-- REDS: one row's terms. -/
def redsRow (t : Acc) (m n i : Nat) : List Elt :=
  let row := (List.range n).map fun c => accAsElt t (4 * i + c)
  if m = 0 then row
  else if row.any (·.poison) then [eltPoison]
  else match row with
    | [] => []
    | u :: us => [us.foldl (fun b x => if dLt (eltVal b) (eltVal x) then x else b) u]

/-- REDS (R221). -/
def reds (t : Acc) (m : Nat) (lim : Int) : NbuM Acc :=
  let n := min lim 4
  if m = 1 ∧ n ≤ 0 then .error 0x07
  else (List.range 4).foldlM (fun a i =>
    (redsRow t m n.toNat i).foldlM (fun a u => orLimit (accElt a (4 * i) u)) a) {}

/-- ASCL: scale the rows of an accumulator down by powers of two. -/
def ascl (a : Acc) (sh : List Int) : NbuM Acc :=
  if sh.any (fun x => decide (x < 0)) then .error 0x07
  else if a.empty then .ok a
  else
    let f (el : AccElt × Nat) : AccElt := shiftElt (-(sh.getD (el.2 / 4) 0)) el.1
    let lost := a.els.zipIdx.any fun el => shiftLoses (-(sh.getD (el.2 / 4) 0)) el.1
    .ok { a with els := a.els.zipIdx.map f, ix := a.ix || lost }

/-- `⌈λ · m⌉` of an exact value. -/
def dCeil (d : Dyadic) : Int := -dFloor (dNeg d)

/-- The finite value of a binary32 pattern, 0 where it has none. -/
def val32 (b : Nat) : Dyadic := match decode32 b with | .fin d => d | _ => dZero

/-- One reference of RREF (R222). -/
def rrefOne (a : Acc) (lam : Dyadic) (i : Nat) : NbuM Int :=
  if (accAt a (4 * i)).poison then .ok intMin
  else if a.empty then .ok (-(2 ^ 30))
  else
    let r := dCeil (dMul lam (accVal a (4 * i)))
    if r ≤ -(2 ^ 30) ∨ 2 ^ 30 ≤ r then .error 0x08 else .ok r

/-- One weight of EXP2 (R222). -/
def exp2One (j : NbuJob) (i : NbuInstr) (lam : Dyadic) (k : Nat) : NbuM Elt :=
  let ref := j.sInt (i.b + k / 4)
  if (accAt (j.aAt i.a) k).poison ∨ ref = intMin then .ok eltPoison
  else
    let t := dSub (dMul lam (accVal (j.aAt i.a) k)) (dInt ref)
    if dLt (dInt 64) t then .error 0x08
    else if dLt t (dInt (-64)) then .ok eltZero
    else
      let r := exp2Fixed t
      .ok ⟨r.m, r.e, false⟩

/-- A value rounded to nearest binary32 as an element, poison on overflow. -/
def round32Elt (d : Dyadic) : Elt := roundElt d
where
  /-- the rounding itself -/
  roundElt (d : Dyadic) : Elt :=
    match rnd32 d with
    | .over _ => eltPoison
    | .fin v => if v.m = 0 then eltZero else ⟨v.m, v.e, false⟩

/-- WIDEN of one value: 31 bits of magnitude, and whether it was exact. -/
def widenOne (d : Dyadic) : Elt × Bool :=
  let (m, e) := roundRat 31 (-100000) d.m.natAbs 1 d.e
  let r : Dyadic := ⟨if d.m < 0 then -(m : Int) else m, e⟩
  (if d.m = 0 then eltZero else ⟨r.m, r.e, false⟩, dEq r d)

/-- `⌊√n⌋`, by bits from the top. -/
def isqrt (n : Nat) : Nat :=
  (List.range (Nat.log2 n / 2 + 1)).foldl (fun r i =>
    let b := r + 2 ^ (Nat.log2 n / 2 - i)
    if b * b ≤ n then b else r) 0

/-- A significand moved inside a relative bound of 2^-24 by a free offset. -/
def freeNear (m off : Nat) : Nat :=
  let b := m / 2 ^ 24
  m - b + off % (2 * b + 1)

/-- FRCP of one element: within 2^-23 of 1/v, which value is free. -/
def frcpOne (u : Elt) : Elt :=
  if u.poison || u.sig = 0 then eltPoison
  else
    let (m, e) := roundRat 31 (-100000) 1 u.sig.natAbs (-u.x)
    let m := freeNear m (Config.frcpOffset (eltVal u))
    if dLt fltMax ⟨(m : Int), e⟩ then eltPoison else ⟨if u.sig < 0 then -(m : Int) else m, e, false⟩

/-- FRSQ of one element: within 2^-23 of 1/√v, which value is free. -/
def frsqOne (u : Elt) : Elt :=
  if u.poison || decide (u.sig ≤ 0) then eltPoison
  else
    let sh : Int := if u.x % 2 = 0 then 0 else 1
    let n := u.sig.toNat * 2 ^ sh.toNat
    let ex := (u.x - sh) / 2
    let r := isqrt (2 ^ 200 / n)
    let (m, e) := roundRat 31 (-100000) r 1 (-100 - ex)
    let m := freeNear m (Config.frsqOffset (eltVal u))
    if dLt fltMax ⟨(m : Int), e⟩ then eltPoison else ⟨(m : Int), e, false⟩

/-- A binary32 operation on two elements. -/
def fbin (f : Dyadic → Dyadic → Dyadic) (u v : Elt) : Elt :=
  if u.poison || v.poison then eltPoison else round32Elt (f (eltVal u) (eltVal v))

/-- SPLIT of one element, or FORM. -/
def splitOne (u : Elt) : NbuM (Elt × Elt) :=
  if u.poison then .ok (eltPoison, eltPoison)
  else if 2 ^ 30 ≤ u.sig.natAbs then .error 0x07
  else
    let hi := u.sig / 32768
    .ok (⟨hi, u.x + 15, false⟩, ⟨u.sig - hi * 32768, u.x, false⟩)

/-- VLD and VSAV: the bytes of a register or pair (R219). -/
def vsavBytes (j : NbuJob) (n : Nat) (pair : Bool) : List Nat :=
  if pair then (idx16.map fun k =>
    let hi := (j.v.getD n []).getD k (0, 0)
    let lo := (j.v.getD (n + 1) []).getD k (0, 0)
    leBytes 2 (ofSigned 16 lo.1) ++ leBytes 2 (ofSigned 16 hi.1) ++ leBytes 2 (ofSigned 16 hi.2) ++ [0, 0]).flatten
  else (idx16.map fun k =>
    let e := (j.v.getD n []).getD k (0, 0)
    leBytes 2 (ofSigned 16 e.1) ++ leBytes 2 (ofSigned 16 e.2)).flatten

/-- Load a raw register or pair. -/
def vldRaw (j : NbuJob) (n : Nat) (pair : Bool) (b : List Nat) : NbuJob :=
  if pair then
    let hi := idx16.map fun k => (toSigned 16 (leAt b (8 * k + 2) 2), toSigned 16 (leAt b (8 * k + 4) 2))
    let lo := idx16.map fun k => (toSigned 16 (leAt b (8 * k) 2), (0 : Int))
    { j with v := modAt (fun _ => lo) (n + 1) (modAt (fun _ => hi) n j.v) }
  else
    { j with v := modAt (fun _ => idx16.map fun k => (toSigned 16 (leAt b (4 * k) 2), toSigned 16 (leAt b (4 * k + 2) 2))) n j.v }

/-- Control, scalar and stream instructions (R218). -/
def nbuScalar (j : NbuJob) (i : NbuInstr) : NbuM NbuJob :=
  match i.op with
  | 0x03 =>
    let j := j.setI i.d (j.sInt i.d - 1)
    .ok (if j.sAt i.d ≠ 0 then { j with pc := i.imm % 2 ^ 10 } else j)
  | 0x10 => .ok (j.setS i.d i.imm)
  | 0x11 => .ok (j.setS i.d (j.sAt i.a + i.imm))
  | 0x12 => .ok (j.setS i.d (j.sAt i.a + j.sAt i.b))
  | 0x13 => .ok (j.setI i.d (j.sInt i.a - j.sInt i.b))
  | 0x14 => .ok (j.setS i.d (j.sAt i.a * j.sAt i.b))
  | 0x15 => .ok (j.setS i.d (j.sAt i.a * 2 ^ (i.imm % 32)))
  | 0x16 => .ok (j.setS i.d (j.sAt i.a / 2 ^ (i.imm % 32)))
  | 0x17 => .ok (j.setS i.d (Nat.land (j.sAt i.a) i.imm))
  | 0x18 => .ok (j.setI i.d (max (j.sInt i.a) (j.sInt i.b)))
  | 0x19 => if 25 < i.imm % 32 then .error 0x07 else .ok (j.setS i.d (j.args.getD (i.imm % 32) 0))
  | 0x1A => if 25 < i.imm % 32 then .error 0x07
            else .ok { j with args := modAt (fun _ => j.sAt i.a) (i.imm % 32) j.args }
  | 0x1B => .ok { j with p := modAt (fun _ => decide (j.sInt i.a < j.sInt i.b)) i.d j.p }
  | 0x1C => .ok { j with p := modAt (fun _ => j.sAt i.a = j.sAt i.b) i.d j.p }
  | 0x1D => .ok { j with p := modAt (fun _ => decide (j.sInt i.a < toSigned 32 i.imm)) i.d j.p }
  | 0x2C => do
    j.checkNear (j.sAt i.d) i.imm 32
    j.checkBank (j.sAt i.a) i.imm
    .ok { j with near := putRange j.near (j.nearBase + j.sAt i.d) i.imm (memRange j.bank (j.bankBase + j.sAt i.a) i.imm) }
  | 0x2D => do
    j.checkBank (j.sAt i.d) i.imm
    j.checkNear (j.sAt i.a) i.imm 32
    .ok { j with bank := putRange j.bank (j.bankBase + j.sAt i.d) i.imm (memRange j.near (j.nearBase + j.sAt i.a) i.imm) }
  | _ => .ok j

/-- Load and store instructions (R219). -/
def nbuMemory (j : NbuJob) (i : NbuInstr) : NbuM NbuJob := do
  let addr := j.ea i
  match i.op with
  | 0x20 => j.checkNear addr 4 4; .ok (j.setS i.d (j.near32 addr))
  | 0x21 => j.checkNear addr 4 4; .ok (j.putNear addr (leBytes 4 (j.sAt i.d)))
  | 0x22 => let es ← idx16.mapM (ldtElt j i); .ok (j.setNarrow i.d es)
  | 0x23 => j.checkNear addr 32 2
            .ok (j.setNarrow i.d (idx16.map fun k => elt16 (i.m = 1) (leNat (j.nearBytes (addr + 2 * k) 2))))
  | 0x24 =>
    let str := bitsOf i.imm 16 8 * 16
    let at_ (k : Nat) : Nat := if i.m = 1 then addr + k / 4 * str + 4 * (k % 4) else addr + 4 * k
    j.checkNear addr 4 4
    let _ ← idx16.mapM fun k => j.checkNear (at_ k) 4 4
    .ok (j.setWide i.d (idx16.map fun k => elt32 (j.near32 (at_ k))))
  | 0x25 => j.checkNear addr 64 4
            let es := idx16.map (j.wide i.d)
            .ok { j.putNear addr (es.map fun u => leBytes 4 (if u.poison then 0x7FC00000
              else encodeFloat 8 23 (rnd32 (eltVal u)))).flatten with poison := j.poison || es.any (·.poison) }
  | 0x26 => j.checkNear addr (groupBytes (i.m = 1)) (groupBytes (i.m = 1))
            let g ← stqGroup (i.m = 1) (idx16.map (j.narrow i.d))
            .ok { j.putNear addr (packGroup (i.m = 1) g) with poison := j.poison || g.e = 255 }
  | 0x27 => let n := if bitOf i.m 2 then 128 else 64
            j.checkNear addr n 16; .ok (vldRaw j i.d (bitOf i.m 2) (j.nearBytes addr n))
  | 0x28 => let n := if bitOf i.m 2 then 128 else 64
            j.checkNear addr n 16
            .ok { j.putNear addr (vsavBytes j i.d (bitOf i.m 2)) with
              poison := j.poison || idx16.any fun k => (j.narrow i.d k).poison }
  | 0x29 => j.checkNear addr 208 16; .ok (j.setA i.d (unpackAcc (j.nearBytes addr 208)))
  | 0x2A => j.checkNear addr 208 16
            .ok { j.putNear addr (packAcc (j.aAt i.d)) with poison := j.poison || (j.aAt i.d).els.any (·.poison) }
  | _ => -- REFM
    j.checkNear addr 32 16
    .ok ((List.range 4).foldl (fun j k =>
      let old := toSigned 32 (j.near32 (addr + 4 * k))
      let cur := j.sInt (i.d + k)
      let nw := if old = intMin ∨ cur = intMin then intMin else max old cur
      let j := j.putNear (addr + 4 * k) (leBytes 4 (ofSigned 32 nw))
      let j := j.putNear (addr + 16 + 4 * k) (leBytes 4 (ofSigned 32 (if nw = intMin then 0 else nw - old)))
      j.setI (i.d + k) nw) j)

/-- Array and accumulator instructions (R221). -/
def nbuArray (j : NbuJob) (i : NbuInstr) : NbuM NbuJob := do
  match i.op with
  | 0x30 => let a ← mma j i; .ok (j.setA i.d a)
  | 0x31 => .ok (j.setA i.d {})
  | 0x32 => let a ← idx16.foldlM (fun a k => orLimit (accElt a k (j.elt (bitOf i.m 2) i.a k))) (j.aAt i.d); .ok (j.setA i.d a)
  | 0x33 => let a ← amax (j.aAt i.a) (j.aAt i.b); .ok (j.setA i.d a)
  | 0x34 => let a ← reds (j.aAt i.a) i.m (j.lim i.c); .ok (j.setA i.d a)
  | 0x35 => j.checkNear (j.ea i) 16 16
            let a ← ascl (j.aAt i.d) ((List.range 4).map fun k => toSigned 32 (j.near32 (j.ea i + 4 * k)))
            .ok (j.setA i.d a)
  | 0x36 =>
    let keep (k : Nat) : Bool := decide ((k % 4 : Nat) < j.lim i.c)
    let z (r : List (Int × Int)) : List (Int × Int) := r.zipIdx.map fun x => if keep x.2 then x.1 else (0, 0)
    .ok { j with v := if bitOf i.m 2 then modAt z (i.d + 1) (modAt z i.d j.v) else modAt z i.d j.v }
  | 0x37 =>
    let v := modAt (fun _ => j.v.getD i.a []) i.d j.v
    .ok { j with v := if bitOf i.m 2 then modAt (fun _ => j.v.getD (i.a + 1) []) (i.d + 1) v else v }
  | 0x38 => .ok { j with v := modAt (fun _ => List.replicate 16 (toSigned 16 (bitsOf i.imm 0 16), toSigned 16 (bitsOf i.imm 16 16))) i.d j.v }
  | _ => .ok (j.setWide i.d (List.replicate 16 (elt32 (j.sAt i.a))))

/-- Function-unit instructions (R222). -/
def nbuFunction (j : NbuJob) (i : NbuInstr) : NbuM NbuJob := do
  let acc := j.aAt i.a
  let anyPoison := acc.els.any (·.poison)
  match i.op with
  | 0x40 => let rs ← (List.range 4).mapM (rrefOne acc (val32 (j.sAt i.b)))
            .ok (rs.zipIdx.foldl (fun j x => j.setI (i.d + x.2) x.1) j)
  | 0x41 => let es ← idx16.mapM (exp2One j i (val32 (j.sAt i.c))); .ok (j.setWide i.d es)
  | 0x42 => .ok (j.setWide i.d (idx16.map fun k => if (accAt acc k).poison then eltPoison else round32Elt (accDelta acc k)))
  | 0x43 =>
    let g := quantizeGroup (groupQmax (i.m = 1)) (idx16.map fun k => if anyPoison then none else some (accDelta acc k))
    .ok (j.setNarrow i.d (idx16.map fun k => if g.e = 255 then eltPoison else ⟨g.q.getD k 0, (g.e : Int) - 127, false⟩))
  | 0x44 =>
    let rs := idx16.map fun k => if (accAt acc k).poison then (eltPoison, true) else widenOne (accDelta acc k)
    let j := if rs.all (·.2) then j else j.setA i.a { acc with ix := true }
    .ok (j.setWide i.d (rs.map (·.1)))
  | 0x45 => let rs ← idx16.mapM fun k => splitOne (j.wide i.a k)
            .ok ((j.setNarrow i.d (rs.map (·.1))).setNarrow i.c (rs.map (·.2)))
  | 0x46 => .ok (j.setWide i.d (idx16.map fun k => fbin dMul (j.wide i.a k) (j.wide i.b k)))
  | 0x47 => .ok (j.setWide i.d (idx16.map fun k => fbin dAdd (j.wide i.a k) (j.wide i.b k)))
  | 0x48 => .ok (j.setWide i.d (idx16.map fun k => frcpOne (j.wide i.a k)))
  | _ => .ok (j.setWide i.d (idx16.map fun k => frsqOne (j.wide i.a k)))

/-- The effect of an instruction whose condition holds. -/
def nbuExec (j : NbuJob) (i : NbuInstr) : NbuM NbuJob :=
  if i.op < 0x20 ∨ i.op = 0x2C ∨ i.op = 0x2D then nbuScalar j i
  else if i.op < 0x30 then nbuMemory j i
  else if i.op < 0x40 then nbuArray j i
  else nbuFunction j i

/-- Whether an instruction's condition holds (R216). -/
def nbuCond (j : NbuJob) (c : Nat) : Bool :=
  match c with
  | 0 => true
  | 1 => j.p.getD 0 false
  | 2 => j.p.getD 1 false
  | _ => !j.p.getD 0 false

/-- One instruction of a job under a store of `code` (R209, R213, R223). -/
def nbuStep (code : List Nat) (j : NbuJob) : NbuStep :=
  if code.length ≤ j.pc then .stop j 0x02 j.pc 0
  else
    let i := nbuFields (code.getD j.pc 0)
    match opForm i.op with
    | none => .stop j 0x01 j.pc 0
    | some f =>
      if !nbuCond j i.cond then .go { j with pc := j.pc + 1 }
      else if !nbuRegsOk f i then .stop j 0x0C j.pc 0
      else if !nbuFieldsOk f i then .stop j 0x01 j.pc 0
      else if i.op = 0x01 then .stop j (i.imm % 2 ^ 8) j.pc 0
      else if i.op = 0x05 then .stop j 0x0F j.pc (i.imm % 2 ^ 16)
      else if i.op = 0x02 then .go { j with pc := i.imm % 2 ^ 10 }
      else match nbuExec { j with pc := j.pc + 1 } i with
        | .ok j' => .go j'
        | .error e => .stop j e j.pc 0

/-- Run up to `n` instructions. -/
def nbuRun (code : List Nat) : Nat → NbuJob → NbuStep
  | 0, j => .go j
  | n + 1, j => match nbuStep code j with
    | .go j' => nbuRun code n j'
    | .stop j' c p d => .stop j' c p d

end Sys2Proof.Machine
end

