-- ==== Sys2Proof/Machine/StateAtn.lean ====
section
/-! DEFINITION. State of the attention front ends, the near-bank units and the dense engine (chapters "The
attention service", "Near-bank units", "The dense engine"). -/
namespace Sys2Proof.Machine

/-! ### Near-bank units -/

/-- Who issued a job: host software, or an attention front end, the vector search walker, for a request. -/
inductive Issuer where
  | host
  | frontEnd (work : Nat)
  | walker (query node : Nat)
  deriving DecidableEq, Repr

/-- A thread's command area and the job running on it (R206 to R209). `store` is the program the job started
under (R214), `builtin` whether it was the built-in store. -/
structure NbuThread where
  entry : Nat := 0
  tag : Nat := 0
  ctx : Nat := 0
  nearBase : Nat := 0
  nearLen : Nat := 0
  args : List Nat := List.replicate 26 0
  bankBase : Nat := 0
  bankLen : Nat := 0
  cycleLimit : Nat := 0
  busy : Bool := false
  inexact : Bool := false
  poison : Bool := false
  collide : Bool := false
  code : Nat := 0
  pc : Nat := 0
  detail : Nat := 0
  cycles : Nat := 0
  issuer : Issuer := .host
  startPc : Nat := 0
  store : List Nat := []
  builtin : Bool := true
  deriving DecidableEq, Repr

/-- A job waiting for a free thread of its NBU. -/
structure NbuQueued where
  nbu : Nat
  entry : Nat
  ctx : Nat
  issuer : Issuer
  /-- bytes that the job streams from and to its bank (R260) -/
  bytes : Nat := 0
  /-- a C0 part's job (R303) -/
  c0 : Bool := false
  deriving DecidableEq, Repr

/-- A stack's micro-program store (R213): code and entry points. -/
structure NbuStoreState where
  code : List Nat
  entries : List Nat
  deriving DecidableEq, Repr

/-- The near-bank units. `stores` lists the stacks whose store an image replaced. -/
structure NbuUnit where
  threads : Tbl NbuThread := []
  queued : List NbuQueued := []
  stores : Tbl NbuStoreState := []
  near : Mem := []
  attic : Mem := []
  eccCorr : Tbl Nat := []
  deriving DecidableEq, Repr

/-! ### Attention messages in work -/

/-- Why an ATN_QKV is held (R170, R629). -/
inductive AtnHold where
  | no | part | descriptor | seal | room
  deriving DecidableEq, Repr

/-- An ATN_QKV accepted or held: its jobs outstanding, objects it waits for, ended outcome of a job. -/
structure AtnWork where
  id : Nat
  msg : AtnQkv
  arrival : Nat
  hold : AtnHold := .no
  waits : List Nat := []
  /-- keys and values appended, selection made -/
  appended : Bool := false
  /-- jobs issued -/
  issued : Bool := false
  jobs : Nat := 0
  /-- tile commands outstanding of the phase of R239 in progress, 3 when every phase is over -/
  tiles : Nat := 0
  phase : Nat := 0
  /-- requests of R245 outstanding: request, epoch, KV head, sub-block, first head of the set, part -/
  dlg : List (Nat × Nat × Nat × Nat × Nat × Nat) := []
  failed : Option (Status × Nat) := none
  /-- O rows of delegated commands: KV head, sub-block, first head of the set, part, status and payload (R245) -/
  rows : List (Nat × Nat × Nat × Nat × List Nat) := []
  /-- the half on whose links the message arrived -/
  half : Nat := 0
  /-- the DLG_BLOCK messages of the block have gone -/
  dlgSent : Bool := false
  deriving DecidableEq, Repr

/-- Coverage of one layer of a session's part (R166, R168): tokens received and answered per KV head and
state-space head. -/
structure AtnCover where
  stepRef : Nat
  handle : Nat
  layer : Nat
  kvSeen : Tbl Nat := []
  kvDone : Tbl Nat := []
  ssmSeen : Tbl Nat := []
  ssmDone : Tbl Nat := []
  /-- tokens that earlier messages of one head range have taken, by range (R170) -/
  ranges : Tbl Nat := []
  deriving DecidableEq, Repr

/-- The attention service. `selected`: last selected set by session and layer, per KV head (R182); `newSel`: the
selection of the step in flight. -/
structure AtnUnit where
  work : List AtnWork := []
  nextWork : Nat := 1
  cover : List AtnCover := []
  selected : Tbl (List (List Nat)) := []
  newSel : Tbl (List (List Nat)) := []
  /-- S′ written as NaN in the step in flight: layer key to state-space head mask (R193) -/
  slabPoison : Tbl Nat := []
  inexactAt : Option Nat := none
  inexactCount : Nat := 0
  malformedAt : Tbl Nat := []
  /-- crate-heads visited and skipped, whole -/
  visited : Nat := 0
  skipped : Nat := 0
  deriving DecidableEq, Repr

/-! ### Dense engine -/

/-- A tile command in a dispatch queue or on a tile (R229, R241). The fields of a front end's command are those
of the block message it belongs to. -/
structure TileCmd where
  work : Nat
  half : Nat
  cls : Nat
  ctx : Nat
  handle : Nat
  stepRef : Nat := 0
  /-- a command of a DLG_BLOCK that this controller serves: `work` is the number of the request -/
  serve : Bool := false
  /-- bytes moved to and from the attic (R227) -/
  bytes : Nat := 0
  deriving DecidableEq, Repr

/-- A DLG_BLOCK this controller serves as a delegate, with the commands left (R249). -/
structure DlgServe where
  id : Nat
  msg : DlgBlock
  left : Nat
  /-- step-buffer KiB its payload holds -/
  kib : Nat := 0
  deriving DecidableEq, Repr

/-- The dense engine: queues (by 4·half + class), running commands by tile, delegation. -/
structure DenseUnit where
  queues : Tbl (List TileCmd) := []
  running : Tbl TileCmd := []
  serving : List DlgServe := []
  nextServe : Nat := 1
  nextDlg : Nat := 1
  failAt : Option Nat := none
  failCount : Nat := 0
  /-- the host command in progress: its tile and its 64 bytes (R251) -/
  hostCmd : Option (Nat × List Nat) := none
  gmacRest : Nat := 0
  deriving DecidableEq, Repr

end Sys2Proof.Machine
end

