-- ==== Sys2Proof/Machine/StateClk.lean ====
section
/-! DEFINITION. Power, starts, clocks, temperature, rails (chapters "Power-up, cold and warm start, clocks"
and "Electrical, thermal and package"). -/
namespace Sys2Proof.Machine

/-- What the controller is doing as a whole (R541, R543, R546, R610): powered down; held by SYS_RST_N before a cold start; the
save of a warm start; internal reset held after it; reset released, the warm boot under way; stopped in boot ROM, where the
firmware in flash fails verification; full service; thermal trip. -/
inductive Phase where
  | off | held | saving | saved | warm | rom | service | tripped
  deriving DecidableEq, Repr

/-- The islands that a reset or a PLL names, by CLOCKS index 0 to 23 (R18). -/
abbrev Island := Nat

/-- A reference input as its monitor judges it (R556). -/
structure RefMon where
  stable : Bool := true
  goodWindows : Nat := 64
  counts : List Nat := []
  deriving DecidableEq, Repr

/-- The state of a PLL (R557, R558, R562). -/
inductive PllState where
  | off | locking | locked | coasting
  deriving DecidableEq, Repr

/-- A PLL: its state, whether its output has left tolerance, its measured frequency and relock count. -/
structure Pll where
  state : PllState := .locked
  unlocked : Bool := false
  measured : Option Nat := none
  relocks : Nat := 0
  deriving DecidableEq, Repr

/-- What the last save wrote (R543): the fields a warm start compares (R547). -/
structure WarmRec where
  store : StoreSec
  /-- the save was over within 10 ms -/
  done : Bool
  saveUs : Nat
  deriving DecidableEq, Repr

/-- The pins of the management group (R592): levels seen, levels driven. -/
structure Pins where
  pwrOk : Bool := true
  sysRstN : Bool := true
  perstN : Bool := true
  prochotN : Bool := true
  mfgMode : Bool := false
  thermTripN : Bool := true
  cePerstN : Nat := 15
  /-- the device-ID straps, sampled at each start (R596) -/
  devid : Nat := 0
  deriving DecidableEq, Repr

/-- Start-up, clock and thermal state. -/
structure Clocks where
  phase : Phase := .service
  /-- row of the start trigger, in table order from 1 (R541) -/
  cause : Nat := 1
  warm : Option WarmRec := none
  pins : Pins := {}
  refs : Tbl RefMon := []
  plls : Tbl Pll := []
  oscOk : Bool := true
  oscGood : Nat := 64
  /-- islands held in reset (R20) -/
  inReset : List Island := []
  /-- clock reduction of attic and dense islands in sixteenths of nominal, by PLL (R609) -/
  throttle : Tbl Nat := []
  /-- last readings of the junction sensors in °C (R609) -/
  sensors : List Nat := []
  /-- last samples of the rails in mV, in table order, where a rail was sampled off its nominal (R602) -/
  rails : Tbl Nat := []
  /-- droop events since the start -/
  droops : Nat := 0
  /-- cellar root ports with a drive attached to them -/
  drives : Nat := 15
  /-- GiB of the DIMMs of each store-room channel, by their SPD (R606) -/
  dimms : List Nat := List.replicate 16 128
  /-- the PCIe SerDes PLL holds the host port in reset (R559) -/
  pcieDown : Bool := false
  deriving DecidableEq, Repr

end Sys2Proof.Machine
end

