-- ==== Sys2Proof/Machine/StateSess.lean ====
section
/-! DEFINITION. State of sessions, contexts, the hatch and the token services (chapters "Sessions",
"Admission, latency bounds and budgets", "Tokens, sampling and embeddings"). -/
namespace Sys2Proof.Machine

/-- Where a descriptor lies (R96 to R100); `waiting` for the shelf that the next spill frees. -/
inductive Place where
  | shelf | waiting | spilling | spilled | fetching
  deriving DecidableEq, Repr

/-- The pending SES_OPEN or SES_RESUME of a session (R95 cmd fields, R119). -/
structure PendVerb where
  sub : Sub
  resume : Bool
  /-- the input was cut under R354 -/
  truncated : Bool := false
  /-- tokens the inventory supplied -/
  supplied : Nat := 0
  appended : Nat := 0
  deriving DecidableEq, Repr

/-- An input being tokenized (R355). -/
structure Input where
  isTokens : Bool
  inLen : Nat
  data : List Nat
  order : Nat
  deriving DecidableEq, Repr

/-- What an in-flight step of the home has fixed and not committed (R107, R365, R366). -/
structure Fixing where
  step : Nat
  token : Nat
  nextAuto : Nat
  holdAfter : List Nat
  text : List Nat
  parts : Nat
  deriving DecidableEq, Repr

/-- Cover of logits in the current attempt (R358): first token, the logits as bit patterns with format. -/
structure LogitSlice where
  first : Nat
  fmt : Nat
  values : List Nat
  deriving DecidableEq, Repr

/-- An inventory lookup in progress at the home (R327): answers are value and listed points, by device. -/
structure Lookup where
  req : Nat
  probed : List Nat
  waitingFor : List Nat
  answers : List (Nat × Nat × Option (List Nat))
  committing : Bool
  t : Nat
  deriving DecidableEq, Repr

/-- A session: its descriptor (R95) and what the controller keeps beside it. -/
structure Session where
  handle : Nat
  state : SesState := .free
  cls : Nat := 0
  fullAttn : Bool := false
  bx16 : Bool := false
  cancelPending : Bool := false
  fixed : Bool := false
  posted : Bool := false
  fault : Status := .ok
  customer : Nat := 0
  partition : Nat := 0
  outRing : Nat := 0
  step : Nat := 0
  length : Nat := 0
  maxTokens : Nat := 0xFFFFFFFF
  pendingToken : Nat := 0
  seed : Nat := 0
  parkToken : Option Nat := none
  endToken : Option Nat := none
  homeDev : Nat := 0
  homeEpoch : Nat := 1
  mirrorDev : Nat := 0x7FF
  mirrorEpoch : Nat := 0
  mirrorAcked : Nat := 0xFFFFFFFF
  shadowOf : SesState := .free
  holdBytes : List Nat := []
  prefixRef : Nat := 0
  tOpen : Nat := 0
  tStart : Nat := 0
  tLast : Nat := 0
  tTouch : Nat := 0
  sampler : Sampler := {}
  latency : Latency := {}
  place : Place := .shelf
  verb : Option PendVerb := none
  input : Option Input := none
  /-- the tokens of the pending open or resume, once known -/
  inTokens : List Nat := []
  /-- context tokens in order, as committed -/
  tokens : List Nat := []
  /-- the tokens whose keys and values are committed, by position, as far as this controller knows them -/
  kv : List Nat := []
  lastToken : Nat := 0
  fixing : Option Fixing := none
  /-- the chunk of the last committed step: token text and parts (R106) -/
  lastText : List Nat := []
  lastPart : Nat := 0
  heldChunks : List Chunk := []
  stalled : Bool := false
  cancels : List Sub := []
  waiting : List SessVerb := []
  headroom : Headroom := {}
  /-- tally tokens held for input and for output (R313) -/
  heldIn : Nat := 0
  heldOut : Nat := 0
  tallyEmpty : Bool := false
  logits : List LogitSlice := []
  covered : Bool := false
  lookup : Option Lookup := none
  /-- tail copies and prefix nodes linked at open, see the inventory -/
  supplied : Nat := 0
  unmirrored : Bool := false
  /-- mirror messages awaiting acknowledgement: state changes and notes by sequence (R104) -/
  noteAcked : Bool := false
  lastNoteAt : Nat := 0
  publish : Option (Sub × Nat × Bool) := none
  publishing : Bool := false
  /-- arrival order of logits coverage (R363) -/
  coveredAt : Option Nat := none
  rejoin : Bool := false
  promoted : Bool := false
  /-- a participant's record of a session homed elsewhere -/
  guest : Bool := false
  /-- the state that a trunk restore's step leads to (R503) -/
  restoring : Option SesState := none
  /-- objects this session holds (R143) -/
  held : List Nat := []
  deriving DecidableEq, Repr

/-- The bind block of a context (R349). -/
structure Binding where
  vocab : Option Nat
  embed : Option Nat
  constr : Option Nat
  dests : List Nat
  slice : Bool
  deriving DecidableEq, Repr

/-- A tracking table entry (R309). -/
structure Track where
  handle : Nat
  ttftNs : Nat := 0
  tokens : Nat := 0
  outside : Nat := 0
  tbtSum : Nat := 0
  tbtMax : Nat := 0
  resMax : Nat := 0
  buckets : Tbl Nat := []
  deriving DecidableEq, Repr

/-- A C0 cost an admitted part contributes to the ledgers (R301, R302): per layer, the largest scoring and
visit entries with their NBU, and tile cycles. -/
structure LedgerCost where
  layer : Nat
  nbu : Nat
  scoring : Nat
  visit : Nat
  tile : Nat
  tileMax : Nat
  deriving DecidableEq, Repr

/-- The contribution of one admitted C0 request. -/
structure LedgerItem where
  handle : Nat
  stepRef : Option Nat
  costs : List LedgerCost
  deriving DecidableEq, Repr

/-- The hatch: ledgers, tracking table, histograms, replenishment fractions, event rate limits. -/
structure Hatch where
  ledger : List LedgerItem := []
  track : Tbl Track := []
  hist : Tbl (Tbl Nat) := []
  fraction : Tbl Nat := []
  /-- lowest values firmware allows in HAT_PROJ (R363) -/
  floorBase : Nat := 40000
  floorPer : Nat := 150
  refuseAt : Tbl Nat := []
  refuseCount : Tbl Nat := []
  outsideAt : Tbl Nat := []
  outsideCount : Tbl Nat := []
  deriving DecidableEq, Repr

/-- A vocabulary as accepted (R351, R352): strings and special marks in token order. -/
structure Vocab where
  marker : Nat
  strings : List (List Nat)
  special : List Bool
  deriving DecidableEq, Repr

/-- A state of a constraint automaton (R364): mask, default next state, transitions. -/
structure AutoState where
  mask : Nat
  dflt : Nat
  trans : List (Nat × Nat)
  deriving DecidableEq, Repr

/-- A constraint table: automata as (first state, states), states, masks as bit sets. -/
structure Constr where
  v : Nat
  autos : List (Nat × Nat)
  states : List AutoState
  masks : List Nat
  deriving DecidableEq, Repr

/-- A row of an embedding table: cold rows carry a binary32 scale. -/
structure EmbRow where
  absent : Bool
  cold : Bool
  scale : Nat
  elems : List Nat
  deriving DecidableEq, Repr

/-- An embedding table (R367): `rows` ends with the default row. -/
structure EmbTable where
  width : Nat
  fmt : Nat
  stored : Bool
  rows : List EmbRow
  deriving DecidableEq, Repr

/-- The content of a table slot. -/
inductive TableBody where
  | vocab (v : Vocab)
  | embed (e : EmbTable)
  | constr (c : Constr)
  deriving DecidableEq, Repr

/-- A loaded table (R347). `space` is in 4 KiB units. -/
structure Table where
  body : TableBody
  digest : Nat
  shared : Bool
  owner : Option Nat
  space : Nat
  deriving DecidableEq, Repr

/-- What a table swap in progress will do at its switch (R373). -/
inductive SwapTo where
  | load (slot : Nat) (t : Table)
  | bind (ctx : Nat) (b : Binding)
  | free (slot : Nat)
  deriving DecidableEq, Repr

/-- A table swap in progress. -/
structure Swap where
  sub : Sub
  target : SwapTo
  ctxs : List Nat
  /-- the arbiter's scope (R511) -/
  scope : List Nat
  deriving DecidableEq, Repr

/-- A row of the embedding row cache (R371). -/
structure CacheRow where
  slot : Nat
  row : Nat
  bytes : Nat
  uses : Nat
  touched : Nat
  deriving DecidableEq, Repr

/-- The token services. -/
structure Tokens where
  slots : Tbl Table := []
  swaps : List Swap := []
  /-- session verbs that wait for a swap (R41, R373), oldest first -/
  paused : List SessVerb := []
  tokCount : Nat := 0
  nextInput : Nat := 0
  /-- the input that the tokenizer serves, by its order (R355) -/
  serving : Option Nat := none
  cache : List CacheRow := []
  cacheClock : Nat := 0
  hitCount : Nat := 0
  missCount : Nat := 0
  masks : List (Nat × Nat) := []
  defaultAt : Option Nat := none
  defaultCount : Nat := 0
  deriving DecidableEq, Repr

/-- Serial assignment (R89): freed serials, least recently freed first (a serial never freed lies between
`nextFresh` and the limit), and the generation array. -/
structure Serials where
  nextFresh : Nat := 0
  freed : List Nat := []
  generation : Tbl Nat := []
  deriving DecidableEq, Repr

/-- The session unit: descriptors by origin device and serial. -/
structure Sessions where
  table : Tbl Session := []
  serials : Serials := {}
  fetches : Nat := 0
  spillFullAt : Option Nat := none
  deriving DecidableEq, Repr

end Sys2Proof.Machine
end

