-- ==== Sys2Proof/Machine/StateCtx.lean ====
section
/-! DEFINITION. Contexts, their attention parameter block (R158 to R162) and key (R517 to R519). -/
namespace Sys2Proof.Machine

/-- A layer entry (R159). -/
structure LayerEntry where
  attn : Bool
  ssm : Bool
  full : Bool
  noRope : Bool
  deriving DecidableEq, Repr

/-- The state-space parameter record of a layer (R160), binary32 bit patterns. -/
structure SsmRec where
  a : List Nat
  d : List Nat
  gamma : List Nat
  deriving DecidableEq, Repr

/-- The attention parameter block as accepted (R158). -/
structure Params where
  kvHeads : Nat
  group : Nat
  headDim : Nat
  layers : List LayerEntry
  inFp16 : Bool
  outBf16 : Bool
  lambda : Nat
  rotDims : Nat
  rotAdjacent : Bool
  rates : List Nat
  kSel : Nat
  window : Nat
  ssmHeads : Nat
  ssmP : Nat
  ssmN : Nat
  ssmEps : Nat
  gateAfter : Bool
  noNorm : Bool
  ssm : List SsmRec
  deriving DecidableEq, Repr

/-- Why a context is being torn down (R287), for CTX_TORN: the trigger, and for a job fault the unit and code. -/
structure Torn where
  trigger : Nat
  unit : Nat
  code : Nat
  deriving DecidableEq, Repr

/-- A context: partition, parameter block, key (R519), bindings (R349), teardown. -/
structure Ctx where
  partition : Nat
  params : Params
  keyId : Nat
  dkIndex : Nat
  key : List Nat
  binding : Option Binding := none
  torn : Option Torn := none
  /-- the CTX_DESTROY that completes when the slot is freed (R287 step 6) -/
  destroyer : Option Sub := none
  trunkSerial : Nat := 1
  outsideAt : Option Nat := none
  deriving DecidableEq, Repr

end Sys2Proof.Machine
end

