-- ==== Sys2Proof/Machine/StateDbg.lean ====
section
/-! DEFINITION. State of the Criti monitor, of JTAG and of debug access (chapter "Criti monitor and debug access"). -/
namespace Sys2Proof.Machine

/-- Challenge and response on one interface (R617): the latest challenge, consecutive failures, the time before which no new
challenge is issued. -/
structure AuthSide where
  challenge : Option (List Nat) := none
  failures : Nat := 0
  notBefore : Nat := 0
  deriving DecidableEq, Repr

/-- The monitor, the TAP and the debug port. -/
structure Debug where
  priv : Bool := false
  commands : Nat := 0
  /-- rate of the line in force, as MON_CFG.baud codes it -/
  baud : Nat := 0
  criti : AuthSide := {}
  jtag : AuthSide := {}
  /-- instruction register (R620), and whether the last instruction was refused under R622 -/
  ir : Nat := 2
  refused : Bool := false
  /-- level granted and the slot of the grant (R623) -/
  level : Nat := 0
  slot : Nat := 0
  /-- an instruction of R622 in effect -/
  scan : Option Nat := none
  /-- what the next Capture-DR of DBG_ACCESS returns: status and data (R624) -/
  result : Nat × Nat := (0, 0)
  /-- steward cores halted, and the registers that debug writes have set, by 64 · core + register -/
  halted : List Nat := []
  cores : Tbl Nat := []
  deriving DecidableEq, Repr

end Sys2Proof.Machine
end

