-- ==== Sys2Proof/Machine/StateHost.lean ====
section
/-! DEFINITION. State of the host port: ring engines, MSI-X, the register file's reading state, events
(chapters "Register conventions and map" and "Mirrors, trunks and maintenance"). -/
namespace Sys2Proof.Machine

/-- A ring pair's engine (R578 to R581): indices, reserved and unreleased completion slots, the tags
outstanding (R37), completions held across a fault (R585). -/
structure Ring where
  sqHead : Nat := 0
  sqTail : Nat := 0
  cqTail : Nat := 0
  cqHead : Nat := 0
  phase : Bool := true
  outstanding : Nat := 0
  reserved : Nat := 0
  unstarted : Nat := 0
  tags : List Nat := []
  held : List Completion := []
  fault : Bool := false
  armed : Bool := true
  unsignalled : Nat := 0
  deriving DecidableEq, Repr

/-- An output ring's engine (R582), and the event ring's (R583). -/
structure ORing where
  tail : Nat := 0
  head : Nat := 0
  posted : Nat := 0
  phase : Bool := true
  fault : Bool := false
  armed : Bool := true
  unsignalled : Nat := 0
  deriving DecidableEq, Repr

/-- An entry of the event aggregation table (R508). -/
structure AggEntry where
  source : Nat
  code : Nat
  epoch : Nat
  cls : Nat
  count : Nat
  first : Nat
  last : Nat
  deriving DecidableEq, Repr

/-- Event posting: the aggregation table, the class allowances in thousandths of a record (R509), the
records held for the ring (R545, R583), whether the ring was ever enabled since the start. -/
structure Events where
  agg : List AggEntry := []
  allow1 : Nat := 1000000
  allow2 : Nat := 100000
  allow3 : Nat := 10000
  held : List EventRec := []
  setUp : Bool := false
  displaced : Nat := 0
  dropped : Nat := 0
  recent : List EventRec := []
  badAccessAt : Option Nat := none
  deriving DecidableEq, Repr

/-- The 32-bit read shadow of R570: the register and the upper half it holds. -/
structure Shadow where
  off : Nat
  high : Nat
  deriving DecidableEq, Repr

/-- The frozen block of R571: its own number, and its RO fields as they stood, by register file key. -/
structure Frozen where
  block : Nat
  values : List (Nat × Nat)
  deriving DecidableEq, Repr

/-- The host port. -/
structure HostPort where
  rings : Tbl Ring := []
  orings : Tbl ORing := []
  evtRing : ORing := {}
  inReset : Bool := false
  shadow : Option Shadow := none
  frozen : Option Frozen := none
  errArmed : Bool := true
  deriving DecidableEq, Repr

end Sys2Proof.Machine
end

