-- ==== Sys2Proof/Machine/StateInv.lean ====
section
/-! DEFINITION. State of the prefix inventory (chapter "The prefix inventory"). -/
namespace Sys2Proof.Machine

/-- An inventory record (R321, R322). `crates` and `slabs` name the shared objects by layer; a node's reference
count is computed from what names it (R324). -/
structure InvNode where
  hash : Nat
  parent : Option Nat
  ctx : Nat
  fmt : Nat
  depth : Nat
  gen : Nat
  indexed : Bool := true
  pinned : Bool := false
  slabPoint : Bool := false
  tUse : Nat
  /-- creation order: children are listed newest first -/
  born : Nat
  tokens : List Nat
  crates : List (Nat × Nat)
  slabs : List (Nat × Nat) := []
  deriving DecidableEq, Repr

/-- The pins of one request (R326, R328): nodes pinned from the root on, and the node of a partial match. -/
structure InvPin where
  src : Nat
  request : Nat
  handle : Nat
  nodes : List Nat
  /-- the prompt asked for -/
  tokens : List Nat := []
  partial_ : Option Nat
  since : Nat
  deriving DecidableEq, Repr

/-- What a coordinated request waits for at the home: PUBLISH of PFX_INSERT, WITHDRAW of PFX_REMOVE. -/
structure InvOp where
  request : Nat
  sub : Sub
  publish : Bool
  handle : Nat
  waitingFor : List Nat
  status : Option (Status × Nat) := none
  indexed : Nat := 0
  created : List Nat := []
  linked : Nat := 0
  slabPoint : Bool := false
  withdrawn : Nat := 0
  deriving DecidableEq, Repr

/-- The inventory. `gens` holds the generation of every record ever used. -/
structure InvUnit where
  nodes : Tbl InvNode := []
  gens : Tbl Nat := []
  pins : List InvPin := []
  ops : List InvOp := []
  nextReq : Nat := 1
  nextBorn : Nat := 0
  suppliedTokens : Nat := 0
  reclaimAt : Option Nat := none
  reclaimCount : Nat := 0
  noAnswerAt : Option Nat := none
  noAnswerCount : Nat := 0
  deriving DecidableEq, Repr

end Sys2Proof.Machine
end

