-- ==== Sys2Proof/Machine/StateLink.lean ====
section
/-! DEFINITION. State of the links, of the Ethernet ports and of transactions (chapter "Rammibor Link and egress
scheduling"). A port number below 48 is a native link, 48 + p Ethernet port p. -/
namespace Sys2Proof.Machine

/-- Port states (R426). -/
inductive PortState where
  | down | training | up | held
  deriving DecidableEq, Repr

/-- The value of a port state in LNK_STATUS. -/
def PortState.code : PortState → Nat
  | .down => 0 | .training => 1 | .up => 2 | .held => 3

/-- The key of one direction (R432): frame counter and KEY_PHASE with it. -/
structure DirKey where
  key : Nat
  salt : Nat
  counter : Nat := 0
  phase : Bool := false
  seq : Nat := 0
  deriving DecidableEq, Repr

/-- Key setup of a link or of a tunnel to a device (R530 to R533). -/
structure KeySide where
  lmk : Nat := 0
  /-- the nonce sent and the one received in this training -/
  mine : Option Nat := none
  theirs : Option Nat := none
  /-- keys derived, CONFIRM awaited -/
  derived : Option (DirKey × DirKey) := none
  tx : Option DirKey := none
  rx : Option DirKey := none
  /-- the receiver's old key after a rekey -/
  old : Option DirKey := none
  /-- a REKEY sent and not acknowledged: nonce, and the key it installs -/
  rekey : Option (Nat × DirKey) := none
  /-- when LINK_KEY_FAIL was last posted -/
  failAt : Option Nat := none
  deriving DecidableEq, Repr

/-- What an egress queue holds: a frame, or a RoCEv2 packet for a device. -/
inductive EgBody where
  | frame (f : Frame)
  | roce (dest : Nat) (p : RocePkt)
  deriving DecidableEq, Repr

/-- An entry of an egress queue: flits to send and sent, credits held for those not sent. -/
structure EgItem where
  body : EgBody
  /-- class of a step frame (R279) -/
  cls : Option Nat := none
  /-- partition whose link regulator is charged (R260) -/
  partition : Option Nat := none
  /-- step reference and session of a part's frame (R280) -/
  part : Option (Nat × Nat) := none
  flits : Nat := 1
  sent : Nat := 0
  /-- number of a tunnelled frame (R444) -/
  frameNo : Nat := 0
  heldReserve : Nat := 0
  heldShared : Nat := 0
  deriving DecidableEq, Repr

/-- A draw of step credits by a flit sent: class, whether from its reserve. -/
structure Draw where
  cls : Nat
  reserve : Bool
  deriving DecidableEq, Repr

/-- A frame being received, its next part, and the credits it keeps. -/
structure RxFrame where
  frame : Frame
  next : Nat
  credits : Nat
  deriving DecidableEq, Repr

/-- Credits that a held ATN_QKV keeps (R629): step reference, handle, layer, first KV and state-space head, credits. -/
structure HeldCredit where
  stepRef : Nat
  handle : Nat
  layer : Nat
  kvFirst : Nat
  gFirst : Nat
  credits : Nat
  deriving DecidableEq, Repr

/-- A native link. -/
structure Link where
  st : PortState := .down
  /-- HELLO is agreed in the training under way -/
  agreed : Bool := false
  /-- the training under way is a fast retrain -/
  fast : Bool := false
  /-- RESUME has set the link epoch of the training under way; keys are awaited -/
  resumed : Bool := false
  coeffAt : Option Nat := none
  /-- credits are in step since HELLO -/
  partner : Nat := 0
  partnerKind : Nat := 0
  partnerLink : Nat := 0
  /-- start count of the partner: in the last HELLO, and when the link was last UP -/
  partnerStart : Nat := 0
  upStart : Nat := 0
  version : Nat := 0
  crypto : Nat := 0
  reversed : Bool := false
  epoch : Nat := 0
  fail : Nat := 0
  failAt : Option Nat := none
  miswired : Bool := false
  /-- sender: pools of the partner, credits sent and returned since HELLO, pool by pool -/
  pools : List Nat := [0, 0, 0, 0, 0]
  sentCr : List Nat := [0, 0, 0, 0, 0]
  backCr : List Nat := [0, 0, 0, 0, 0]
  draws : List Draw := []
  /-- receiver: credits to return, and returned in all -/
  owed : List Nat := [0, 0, 0, 0, 0]
  gaveCr : List Nat := [0, 0, 0, 0, 0]
  kept : List HeldCredit := []
  nextSeq : Nat := 0
  replay : List Flit := []
  /-- flits of the replay buffer that go again before new ones -/
  again : List Flit := []
  lastIn : Nat := 0xFFFF
  /-- flits received again (R420), wrapping -/
  dupFlits : Nat := 0
  retrySent : Bool := false
  ctl : List Ctl := []
  queues : Tbl (List EgItem) := []
  shapers : Tbl Int := []
  rx : Tbl RxFrame := []
  keys : KeySide := {}
  authFails : List Nat := []
  /-- express windows: suspended by the partner, and suspended here for the partner; misses of the last 1 ms -/
  suspended : Bool := false
  partnerSuspended : Bool := false
  misses : List Nat := []
  /-- time: rank, error and last TSYNC of the partner, transmission time of the last TSYNC sent -/
  rank : Nat := 15
  err : Nat := 0xFFFF
  synced : Option (Nat × Nat) := none
  sentT1 : Option Nat := none
  delay : Nat := 0
  /-- since when the partner's error has stayed below 20 ns -/
  errLow : Option Nat := none
  /-- the meeting of two roots on this link has been posted -/
  rootsPosted : Bool := false
  deriving DecidableEq, Repr

/-- A frame of the tunnel being reassembled (R444): the device it comes from, its number, the ranges received. -/
structure Reasm where
  src : Nat
  frameNo : Nat
  frame : Option Frame := none
  total : Option Nat := none
  ranges : List (Nat × Nat) := []
  deriving DecidableEq, Repr

/-- A priority of a port under PFC (R474, R475): held by a received pause, in a storm, pausing the sender. -/
structure PfcPrio where
  paused : Bool := false
  storm : Bool := false
  pausing : Bool := false
  deriving DecidableEq, Repr

/-- An Ethernet port. `keys` per device: key setup of the tunnel. -/
structure EthPort where
  st : PortState := .down
  epoch : Nat := 0
  queues : Tbl (List EgItem) := []
  shapers : Tbl Int := []
  keys : Tbl KeySide := []
  ctl : List (Nat × Ctl) := []
  /-- received frames that the classification dropped (R445), wrapping -/
  dropped : Nat := 0
  reasm : List Reasm := []
  pfc : Tbl PfcPrio := []
  deriving DecidableEq, Repr

/-- A transaction without TACK (R421). -/
structure Txn where
  dest : Nat
  txid : Nat
  msg : Msg
  vc : Nat
  cls : Option Nat
  partition : Option Nat
  flow : Nat
  sends : Nat := 0
  port : Option Nat := none
  deriving DecidableEq, Repr

/-- What a receiver keeps of a source (R422): its start count, the highest txid, decided txids and their TACK status and
detail; `none` while a frame is held under R424. -/
structure Window where
  startEpoch : Nat
  high : Nat
  marks : List (Nat × Option (Status × Nat)) := []
  deriving DecidableEq, Repr

/-- A frame held for a newer epoch (R424). -/
structure EpochHeld where
  frame : Frame
  port : Nat
  deriving DecidableEq, Repr

/-- A transaction that ended otherwise than with OK, for the unit that sent the message (R425). -/
structure Ended where
  dest : Nat
  msg : Msg
  status : Status
  detail : Nat
  deriving DecidableEq, Repr

/-- The PTP unit (R447): the best clock heard and its source, sync measurements. -/
structure Ptp where
  state : Nat := 0
  port : Nat := 0
  best : Option PtpClock := none
  /-- Sync: sequence number and arrival; origin time once known -/
  sync : Option (Nat × Nat) := none
  origin : Option Nat := none
  /-- Delay_Req: sequence number and transmission time -/
  request : Option (Nat × Nat) := none
  forward : Option Int := none
  nextSeq : Nat := 0
  deriving DecidableEq, Repr

/-- Links, ports, transactions and time. -/
structure LinkUnit where
  links : Tbl Link := []
  ports : Tbl EthPort := []
  txns : List Txn := []
  nextTx : Tbl Nat := []
  /-- messages that wait because 2,048 transactions to their device are open -/
  backlog : List (Nat × Msg × Option Nat × Option Nat) := []
  windows : Tbl Window := []
  held : List EpochHeld := []
  ended : List Ended := []
  /-- devices whose last port has gone down beyond its hold time, for their pools and semaphores -/
  isolated : List Nat := []
  frameNos : Tbl Nat := []
  rank : Nat := 15
  parent : Nat := 0
  err : Nat := 0xFFFF
  locked : Bool := false
  /-- locked once since the start -/
  everLocked : Bool := false
  /-- offset still to be slewed, and nanoseconds since the last slew step (R435) -/
  slew : Int := 0
  slewPhase : Nat := 0
  ptp : Ptp := {}
  entropy : Nat := 0
  deriving DecidableEq, Repr

end Sys2Proof.Machine
end

