-- ==== Sys2Proof/Machine/StateStep.lean ====
section
/-! DEFINITION. State of the step scheduler: parts, homes' records, submitted steps, regulators and
semaphores (chapter "Steps, commit and pre-emption"). -/
namespace Sys2Proof.Machine

/-- One session of a part, on this controller. -/
structure PartEntry where
  handle : Nat
  step : Nat
  homeEpoch : Nat
  /-- how the entry ended here: status and detail -/
  ended : Option (Status × Nat) := none
  /-- the session's part has its step slots and runs (R257) -/
  started : Bool := false
  /-- orders 7 to 12 and the hatch have passed the entry (R255, R291) -/
  admitted : Bool := false
  /-- reported killed, waiting for the home's STP_ABORT (R271) -/
  killed : Bool := false
  /-- the attempt the session runs in (R272) -/
  attempt : Nat := 0
  /-- step-buffer KiB held of the partition's reserve and of the shared pool -/
  ownKib : Nat := 0
  sharedKib : Nat := 0
  /-- prepared here, pending its prepare copy's acknowledgement -/
  prepWait : Bool := false
  prepared : Bool := false
  queries : Nat := 0
  committed : Bool := false
  /-- objects the step holds from routing to commit or kill (R143) -/
  pins : List Nat := []
  /-- tokens this session appends in the step -/
  tokens : Nat := 1
  /-- headroom held for the entry (R295) -/
  headroom : Headroom := {}
  /-- state-space inputs received in the attempt, by layer and token: x, B, delta as received (R486) -/
  ssmIn : List (Nat × Nat × List Nat) := []
  deriving DecidableEq, Repr

/-- What the home records of one session of a descriptor (R264, R266, R272). -/
structure HomeEntry where
  preparedBy : List Nat := []
  tokenFixed : Bool := false
  noteAcked : Bool := false
  mirrorSent : Bool := false
  decided : Bool := false
  acked : List Nat := []
  behind : List Nat := []
  /-- mirror or participants answered on: status and detail of the session's end -/
  ended : Option (Status × Nat) := none
  /-- taken over by another home: no STP_DONE entry (R269) -/
  resubmitted : Bool := false
  deriving DecidableEq, Repr

/-- The part of a step descriptor on this controller (R255 to R258), and, where this controller is the
home, the home's record of it. -/
structure StepPart where
  stepRef : Nat
  submitter : Nat
  home : Nat
  cls : Nat
  first : Nat
  last : Nat
  context : Nat
  tokens : Nat
  block : Bool
  noRerun : Bool
  attempt : Nat := 0
  entries : List PartEntry := []
  homeRec : List HomeEntry := []
  participants : List Nat := []
  senders : List Nat := []
  /-- submitted by this home itself: step 0 or a resume step (R93) -/
  own : Bool := false
  /-- arrival order and start order -/
  arrival : Nat := 0
  startOrder : Nat := 0
  preempts : Nat := 0
  /-- a kill without re-run has been ordered by STEP_KILL -/
  noMore : Bool := false
  /-- STP_DONE sent -/
  reported : Bool := false
  islandKilled : Option Nat := none
  /-- preparation of C0 parts outside the envelope (R304) -/
  outside : Bool := false
  /-- step residency so far and the arrival of the last logits (R297) -/
  residency : Nat := 0
  logitsAt : Option Nat := none
  /-- arrival of the last ATN_QKV by layer (R297) -/
  layerIn : Tbl Nat := []
  deriving DecidableEq, Repr

/-- A step this controller submitted (R275): the descriptor, the step references in use with the original indices of
their entries (R269), results by original index. -/
structure Submitted where
  sub : Sub
  resultAddr : Nat
  desc : StepDesc
  refs : List (Nat × List Nat)
  attempts : Nat := 1
  results : List (Nat × Status × Nat) := []
  deriving DecidableEq, Repr

/-- The holder of a semaphore (R281), with the class it acquired at. -/
structure SemHolder where
  dev : Nat
  ctx : Nat
  cls : Nat
  deriving DecidableEq, Repr

/-- A waiter of a semaphore: the host's command, or a remote device's request tag. -/
structure SemWaiter where
  dev : Nat
  ctx : Nat
  cls : Nat
  sub : Sub
  since : Nat
  deriving DecidableEq, Repr

/-- The abandonment mark of R285: cause, holder's context and device. -/
structure SemMark where
  cause : Nat
  ctx : Nat
  dev : Nat
  deriving DecidableEq, Repr

/-- A hardware semaphore (R281). `inherit` is the class that the holder's context inherits (R284). -/
structure Sem where
  holder : Option SemHolder := none
  mark : Option SemMark := none
  waiters : List SemWaiter := []
  inherit : Option Nat := none
  /-- waiters passed the semaphore, their completion due as SEM_GRANT -/
  granted : List (SemWaiter × Option SemMark) := []
  deriving DecidableEq, Repr

/-- A seal record on a mirror (R264), or a seal note. -/
structure SealRec where
  handle : Nat
  stepRef : Nat
  idx : Nat
  attempt : Nat
  step : Nat
  token : Nat
  note : Bool
  deriving DecidableEq, Repr

/-- The step scheduler. -/
structure Steps where
  parts : List StepPart := []
  nextArrival : Nat := 0
  nextStart : Nat := 0
  nextSeq : Nat := 0
  submitted : List Submitted := []
  sems : Tbl Sem := []
  /-- regulator bucket levels in bytes, by 3p + r -/
  buckets : List (Nat × Int) := []
  /-- step starts held by a fast recomposition or a save (R86, R543) -/
  paused : Bool := false
  /-- sessions whose layers are restored here after a TIER_FAULT answer to SEAL (R265), with the step -/
  behind : List (Nat × Nat) := []
  /-- what a participant committed: step reference, entry index, handle (R265: every repetition of a SEAL has the same answer) -/
  sealed : List (Nat × Nat × Nat) := []
  /-- sessions whose step 0 or resume step their home submits again after a warm start, once its hosts can be reached -/
  again : List Nat := []
  deriving DecidableEq, Repr

end Sys2Proof.Machine
end

