-- ==== Sys2Proof/Machine/StateMir.lean ====
section
/-! DEFINITION. State of mirrors and promotion (chapter "Mirrors, trunks and maintenance", R482 to R495). -/
namespace Sys2Proof.Machine

/-- What a mirror message waits for its acknowledgement for. -/
inductive MirWait where
  | open_
  | state
  | note (step : Nat)
  | prep (stepRef attempt : Nat)
  | sync (last : Bool)
  | handover
  | retire
  deriving DecidableEq, Repr

/-- A prepare copy on its way to a mirror (R488): the number of the message that carries it, when it was first sent, whether
that message was answered with NO_CAPACITY, and whether it is sent again. -/
structure SentCopy where
  seq : Nat
  sentAt : Nat
  refused : Bool := false
  again : Bool := false
  copy : PrepCopy
  deriving DecidableEq, Repr

/-- This controller's mirror for a session, of its home role or of its participant role. `seq` is the number of the
last message; `counts` is false while the session counts as unmirrored (R106, R494). `m` and `i` are the count and
index of R482. -/
structure MirLink where
  handle : Nat
  home : Bool
  dev : Nat
  epoch : Nat
  first : Nat
  lastLayer : Nat
  m : Nat
  i : Nat
  seq : Nat := 0
  counts : Bool := true
  waits : List (Nat × MirWait) := []
  /-- copies that the mirror has not taken yet -/
  copies : List SentCopy := []
  deriving DecidableEq, Repr

/-- A prepare copy a mirror holds (R487). -/
structure HeldCopy where
  step : Nat
  attempt : Nat
  /-- the step reference and entry index that the copy's header carries -/
  ref : Nat
  idx : Nat
  copy : PrepCopy
  committed : Bool := false
  applied : Bool := false
  deriving DecidableEq, Repr

/-- One role that a shadow shadows (R482): the home's, or the layer group of a participant. -/
structure ShadowRole where
  home : Bool
  sender : Nat
  first : Nat
  lastLayer : Nat
  epoch : Nat
  m : Nat := 0
  i : Nat := 0
  nextSeq : Nat := 2
  early : List (MirrorHdr × MirrorBody) := []
  copies : List HeldCopy := []
  synced : Bool := true
  /-- valid counts of synced crates by (layer, index): later copies apply at or above them (R494) -/
  syncedValid : List (Nat × Nat × Nat) := []
  deriving DecidableEq, Repr

/-- A token note (R107). -/
structure TokenNote where
  step : Nat
  token : Nat
  index : Nat
  hold : List Nat
  ref : Nat
  idx : Nat
  deriving DecidableEq, Repr

/-- A SHADOW: the descriptor, the roles shadowed, seal records and notes, the last token note, resume tokens. -/
structure MirShadow where
  desc : Session
  roles : List ShadowRole
  seals : List SealRec := []
  notes : List TokenNote := []
  resume : List Nat := []
  deriving DecidableEq, Repr

/-- A loss report received (R490). -/
structure LossReport where
  lost : Nat
  observer : Nat
  link : Nat
  at_ : Nat
  deriving DecidableEq, Repr

/-- An entry of the promotion table (R490). -/
structure LostEntry where
  device : Nat
  timeUs : Nat
  deriving DecidableEq, Repr

/-- A role claim in force (R492): by this controller or by another. -/
structure Claim where
  claimer : Nat
  lost : Nat
  epoch : Nat
  first : Nat
  lastLayer : Nat
  m : Nat
  i : Nat
  deriving DecidableEq, Repr

/-- A layer group being restored on this controller after a TIER_FAULT answer to SEAL (R265), or a lost object read
back from the mirror (R154): the objects still awaited, as (kind, layer, index). `answer` is the home to answer, with
the step reference, the entry index and the attempt. -/
structure Restore where
  handle : Nat
  step : Nat
  waits : List (Nat × Nat × Nat)
  answer : Option (Nat × Nat × Nat × Nat) := none
  deriving DecidableEq, Repr

/-- Mirrors and promotion. -/
structure MirUnit where
  restores : List Restore := []
  links : List MirLink := []
  shadows : Tbl MirShadow := []
  reports : List LossReport := []
  lost : Tbl LostEntry := []
  oneByOne : List Nat := []
  claims : List Claim := []
  /-- sessions whose crates a trunk cut still holds (R498) -/
  pinned : List Nat := []
  /-- sessions whose next step waits for a handover or for a trunk's copies (R495, R497) -/
  holding : List Nat := []
  /-- sessions whose MIRROR_HANDOVER is due (R495) -/
  handover : List Nat := []
  deriving DecidableEq, Repr

end Sys2Proof.Machine
end

