-- ==== Sys2Proof/Machine/StateRma.lean ====
section
/-! DEFINITION. State of the RDMA engines (chapter "Remote memory access"). -/
namespace Sys2Proof.Machine

/-- Connection states (R457); a connection that does not exist is not listed. -/
inductive ConnState where
  | ready | error
  deriving DecidableEq, Repr

/-- Where a connection context lies (R471 to R473): the cache, a slot of the spill area, on its way there or back. -/
inductive ConnPlace where
  | cached
  | spilling (slot : Nat)
  | spilled (slot : Nat)
  | fetching (slot : Nat)
  deriving DecidableEq, Repr

/-- A transaction of a requester (R458): native message type or BTH opcode, the Ladder move it serves. -/
structure RmReq where
  id : Nat
  op : Nat
  key : Nat
  offset : Nat
  length : Nat
  data : List Nat
  /-- READ: bytes that have come back -/
  got : List Nat := []
  move : Nat
  deriving DecidableEq, Repr

/-- A multi-packet WRITE of a responder in progress (R464, R466): its access stamp and the CAM item it holds. -/
structure WriteProg where
  /-- address of its first byte in the RMA area, as checked (R467) -/
  base : Nat
  key : Nat
  /-- region offset of its first byte, bytes written, bytes left -/
  start : Nat
  done : Nat
  left : Nat
  pd : Nat
  gen : Nat
  item : Nat
  deriving DecidableEq, Repr

/-- What a fetch holds back (R473). -/
inductive HeldPkt where
  | rm (m : RmMsg) (ecc : Bool)
  | ack (a : RmAck)
  | request (port ctx : Nat) (named : Bool) (p : RocePkt) (ecc : Bool)
  | response (p : RocePkt)
  deriving DecidableEq, Repr

/-- A connection (R456): the fields of its context, then engine state. -/
structure Conn where
  num : Nat
  state : ConnState := .ready
  native : Bool := false
  pd : Nat := 0
  cc : Bool := false
  notify : Bool := false
  remote : Nat := 0
  device : Nat := 0
  mtu : Nat := 5
  dscp : Nat := 0
  sendId : Nat := 0
  recvH : Nat := 0
  timeout : Nat := 10
  retry : Nat := 7
  rnrRetry : Nat := 7
  maxRd : Nat := 16
  errStatus : Nat := 0
  errId : Nat := 0
  notifyRing : Nat := 0
  recvBase : Nat := 0
  recvSlots : Nat := 0
  recvHead : Nat := 0
  rate : Nat := 50000
  target : Nat := 50000
  tTouch : Nat := 0
  place : ConnPlace := .cached
  /-- requester: transactions sent and not acknowledged, those not yet sent, retries used, an RNR wait -/
  reqs : List RmReq := []
  waiting : List RmReq := []
  retries : Nat := 0
  rnrs : Nat := 0
  rnrWait : Bool := false
  stage : Nat := 0
  cnpAt : Option Nat := none
  /-- responder: a WRITE in progress; output-ring positions of the receive slots in use -/
  write : Option WriteProg := none
  slotsOut : List Nat := []
  held : List HeldPkt := []
  deriving DecidableEq, Repr

/-- A region (R463). -/
structure Region where
  read : Bool
  write : Bool
  pd : Nat
  tag : Nat
  offset : Nat
  length : Nat
  deriving DecidableEq, Repr

/-- A PROT_FENCE in progress (R468), or the wait of a teardown (R470, no command). -/
structure Fence where
  sub : Option Sub
  pd : Nat
  gen : Nat
  aborted : Nat := 0
  deriving DecidableEq, Repr

/-- The RDMA engines. `area` holds the RMA area's bytes. -/
structure RmaUnit where
  conns : Tbl Conn := []
  regions : Tbl Region := []
  gens : Tbl Nat := []
  area : Mem := []
  fences : List Fence := []
  /-- a CREATE waits for a free cache slot -/
  createWait : Option Conn := none
  /-- Ladder moves whose requests ended: move, whether every one succeeded -/
  ended : List (Nat × Bool) := []
  /-- bytes that READs of a move brought back, by move: offset in the copy and bytes -/
  reads : List (Nat × Nat × List Nat) := []
  lostPools : List Nat := []
  protAt : Tbl Nat := []
  protCount : Tbl Nat := []
  spillFullAt : Option Nat := none
  dropAt : Option Nat := none
  dropCount : Nat := 0
  deriving DecidableEq, Repr

end Sys2Proof.Machine
end

