-- ==== Sys2Proof/Machine/StateSearch.lean ====
section
/-! DEFINITION. State of the CAM and the vector search walker (chapter "Associative and vector search"). -/
namespace Sys2Proof.Machine

/-- A CAM entry (R375): key and mask over the bank's width. -/
structure CamEntry where
  key : Nat
  mask : Nat
  priority : Nat
  action : Nat
  gen : Nat
  deriving DecidableEq, Repr

/-- A CAM_WRITE (R380). -/
structure CamWrite where
  sub : Sub
  op : Nat
  bank : Nat
  width : Nat
  priority : Nat
  action : Nat
  key : Nat
  mask : Nat
  rsv : Nat
  deriving DecidableEq, Repr

/-- The CAM: entries of each bank as lookups see them, writes of each bank (the first in progress), clients where a write
changed them, the generation, items held with their stamps, drains. -/
structure CamUnit where
  banks : Tbl (List CamEntry) := []
  writes : Tbl (List CamWrite) := []
  clients : Tbl Nat := []
  gen : Nat := 1
  held : List (Nat × Nat) := []
  nextItem : Nat := 1
  drains : List (Sub × Nat) := []
  fullAt : Tbl Nat := []
  /-- the 512 counters that actions name (R445, R465) -/
  counters : Tbl Nat := []
  deriving DecidableEq, Repr

/-- A loaded index image: its header, its pages in every bank pair's vector graph region, the number of enabled bank pairs
and b0 at the load (R389, R391). -/
structure VsrIndex where
  id : Nat
  elem : Nat
  metric : Nat
  degree : Nat
  dim : Nat
  first : Nat
  count : Nat
  shard : Nat
  nodes : Nat
  entry : Nat
  page : Nat
  pages : Nat
  pairs : Nat
  b0 : Nat
  deriving DecidableEq, Repr

/-- An index slot. -/
structure VsrSlot where
  index : VsrIndex
  shared : Bool
  owner : Nat
  damaged : Bool := false
  deriving DecidableEq, Repr

/-- Who asked for a walk: a query coordinated here, or a coordinator elsewhere. -/
inductive VsrOrigin where
  | here (query : Nat)
  | remote (src request : Nat)
  deriving DecidableEq, Repr

/-- The parameters of a query on one shard (R395, R399). -/
structure VsrParams where
  k : Nat
  beam : Nat
  maxVisits : Nat
  filter : Bool
  all : Nat
  any : Nat
  vec : List Nat
  deriving DecidableEq, Repr

/-- An entry of a candidate queue or result list: binary32 distance, label, node. -/
structure VsrCand where
  dist : Nat
  label : Nat
  node : Nat
  expanded : Bool := false
  deriving DecidableEq, Repr

/-- A walk of one query on one shard (R395): the candidates, results and marks of the pseudocode, and the nodes whose
distances are being computed. -/
structure VsrWalk where
  id : Nat
  slot : Nat
  index : VsrIndex
  ctx : Nat
  origin : VsrOrigin
  par : VsrParams
  started : Bool := false
  cands : List VsrCand := []
  res : List VsrCand := []
  marked : List Nat := []
  visits : Nat := 0
  cur : List Nat := []
  left : Nat := 0
  bad : List Nat := []
  limit : Bool := false
  deriving DecidableEq, Repr

/-- A VSR_QUERY this controller coordinates (R399 to R403): shards awaited with the device asked and whether the request was
sent again, results as (distance, label, shard). -/
structure VsrQuery where
  id : Nat
  sub : Sub
  indexId : Nat
  first : Nat
  par : VsrParams
  partial_ : Bool
  resultAddr : Nat
  waits : List (Nat × Nat × Bool)
  found : List (Nat × Nat × Nat) := []
  visited : Nat := 0
  flags : Nat := 0
  missing : List Nat := []
  deriving DecidableEq, Repr

/-- The vector search walker. `old` are replaced images that walks still read. -/
structure VsrUnit where
  slots : Tbl VsrSlot := []
  old : List (Nat × VsrIndex) := []
  walks : List VsrWalk := []
  queries : List VsrQuery := []
  next : Nat := 1
  visits : Nat := 0
  missingAt : Tbl Nat := []
  deriving DecidableEq, Repr

end Sys2Proof.Machine
end

