-- ==== Sys2Proof/Machine/StateSec.lean ====
section
/-! DEFINITION. State of the security islands (chapter "Isolation, keys and attestation"). -/
namespace Sys2Proof.Machine

/-- An SPDM session: its number, and whether FINISH has completed (R534). -/
structure SpdmSess where
  id : Nat
  secure : Bool := false
  deriving DecidableEq, Repr

/-- The SPDM responder: GET_VERSION has been answered, the version agreed by GET_CAPABILITIES (0x12 or 0x13), the algorithms
negotiated, sessions. -/
structure Spdm where
  asked : Bool := false
  version : Option Nat := none
  algorithms : Bool := false
  sessions : List SpdmSess := []
  nextId : Nat := 1
  deriving DecidableEq, Repr

/-- The keys of R521 and what attestation reports (R535 to R538). A slot's key is its public point; slot 0 lies in ROM. -/
structure SecUnit where
  dk : Tbl (List Nat) := []
  lmk : Tbl (List Nat) := []
  trunk : Tbl Nat := []
  slots : Tbl (Nat × Nat) := []
  revoked : List Nat := []
  /-- the generation of the device storage key: one more at each cold start -/
  dsk : Nat := 1
  sticky : List Nat := []
  /-- lockdown is in force: the image staging area is free (R520) -/
  lockdown : Bool := false
  /-- parts that lockdown waits for, by step reference -/
  lockWait : Option (List Nat) := none
  measGen : Nat := 0
  spdm : Spdm := {}
  deriving DecidableEq, Repr

end Sys2Proof.Machine
end

