-- ==== Sys2Proof/Machine/StateTier.lean ====
section
/-! DEFINITION. Crates, slabs and strip pages, their copies in the three tiers, and the Ladder (chapter "Crates,
slabs and the three tiers"). -/
namespace Sys2Proof.Machine

/-- What moves between tiers. -/
inductive ObjKind where
  | crate | slab | strip
  deriving DecidableEq, Repr

/-- The crate states of R135's table; ABSENT objects are not listed. -/
inductive CrateState where
  | home | rising | resident | sinking
  deriving DecidableEq, Repr

/-- The value of a crate state. -/
def CrateState.code : CrateState → Nat
  | .home => 1 | .rising => 2 | .resident => 3 | .sinking => 4

/-- A home-tier copy: tier 1 store room, 2 cellar NVMe, 3 cellar remote pool; its bytes from the copy's start. -/
structure Lower where
  tier : Nat
  target : Nat
  unit : Nat
  bytes : Mem
  step : Nat
  deriving DecidableEq, Repr

/-- A crate, slab or strip page: header fields (R121), map entry (R134), and what the Ladder keeps. The attic
bytes lie in the attic memory. -/
structure Obj where
  kind : ObjKind
  creator : Nat
  layer : Nat
  index : Nat
  ctx : Nat
  partition : Nat
  cls : Nat
  bx16 : Bool
  heads : Nat
  dim : Nat
  /-- slab: the size Z; crate and strip: bytes of the whole copy, header included -/
  size : Nat
  state : CrateState := .resident
  dirty : Bool := true
  poison : Bool := false
  shared : Bool := false
  copy : Bool := false
  valid : Nat := 0
  pending : Nat := 0
  step : Nat := 0
  crc : Nat := 0
  tCommit : Nat := 0
  srcId : Nat := 0
  holds : Nat := 0
  refs : Nat := 1
  age : Nat := 0
  /-- the queue that a raise waiting behind a sink takes (raise_after) -/
  raiseAfter : Option Nat := none
  /-- a copy of the crate is in the attic (RESIDENT, RISING, SINKING out of the attic) -/
  attic : Bool := true
  nbu : Nat := 0
  page : Nat := 0
  pages : Nat := 0
  /-- NBUs of a slab's span (R132); 1 otherwise -/
  span : Nat := 1
  /-- whether its attic pages count against the partition's reserved share (R145) -/
  inShare : Bool := true
  lower : Option Lower := none
  active : Nat := 0
  /-- freed when its move completes, the reference count being 0 (R151) -/
  doomed : Bool := false
  /-- every copy is lost and none has been restored (R154) -/
  lost : Bool := false
  deriving DecidableEq, Repr

/-- What a Ladder move does. -/
inductive MoveKind where
  | raise | sink | writeback | age
  | tail (src count : Nat)
  deriving DecidableEq, Repr

/-- A queued or running move. `step` is the header's step when the copy started (R148). -/
structure Move where
  id : Nat
  obj : Nat
  kind : MoveKind
  cls : Nat
  partition : Nat
  step : Nat := 0
  started : Nat := 0
  target : Nat := 0
  /-- age: the 4 KiB unit of the target that the copy takes -/
  unit : Nat := 0
  /-- its remote memory requests have been made (R478) -/
  asked : Bool := false
  cancelled : Bool := false
  deriving DecidableEq, Repr

/-- A cellar target: an NVMe port or a remote pool (R136, R138, R155, R156). -/
structure Target where
  remote : Bool
  number : Nat
  lost : Bool := false
  faulty : Bool := false
  /-- firmware is being activated: avoided for sinks (R513) -/
  activating : Bool := false
  deriving DecidableEq, Repr

/-- The tiers and the Ladder. -/
structure Tier where
  objs : Tbl Obj := []
  nextObj : Nat := 1
  /-- crate, slab and strip maps of sessions: map key to object -/
  map : Tbl Nat := []
  /-- the eight queues of each engine, by 8·engine + service order from 0 -/
  queues : Tbl (List Move) := []
  running : List Move := []
  nextMove : Nat := 1
  targets : List Target := []
  poolLowAt : Option Nat := none
  dropAt : Option Nat := none
  dropCount : Nat := 0
  deriving DecidableEq, Repr

end Sys2Proof.Machine
end

