-- ==== Sys2Proof/Machine/StateTrunk.lean ====
section
/-! DEFINITION. State of the maintenance arbiter, of failure warnings and of trunks (chapter "Mirrors, trunks and
maintenance", R496 to R513). -/
namespace Sys2Proof.Machine

/-! ### Maintenance -/

/-- An activity of R511 with its scope as a list of scope numbers (see `Maint.lean`). `host`: requested by MNT_REQ. -/
structure Activity where
  no : Nat
  scope : List Nat
  host : Bool := false
  /-- target of MNT_REQ, and the firmware slot -/
  target : Nat := 0
  fw : Nat := 0
  deriving DecidableEq, Repr

/-- The arbiter: activities running, internal ones that wait (R511); counts of the warnings (R506). -/
structure MaintUnit where
  running : List Activity := []
  waiting : List Activity := []
  /-- droop events of the second in progress -/
  droops : Nat := 0
  deriving DecidableEq, Repr

/-! ### Trunks -/

/-- A crate or slab of a session at its cut point: kind, layer, index, object, and the bytes where they were copied. -/
structure CutObj where
  kind : Nat
  layer : Nat
  index : Nat
  obj : Nat
  copy : Option Mem
  deriving DecidableEq, Repr

/-- A session of a cut on one controller: its cut point, what the fast copy holds, who has reported TAKEN. -/
structure CutSess where
  handle : Nat
  /-- at a participant, the step count that the home means to cut at (DEDUCED) -/
  want : Nat := 0
  cutStep : Nat := 0
  length : Nat := 0
  /-- the cut point has been reached -/
  cut : Bool := false
  /-- the fast copy here is complete -/
  taken : Bool := false
  takenBy : List Nat := []
  desc : Option SessDesc := none
  objs : List CutObj := []
  deriving DecidableEq, Repr

/-- A cut on this controller: a participant's shard, and at the home the record of the whole cut. -/
structure Cut where
  home : Nat
  request : Nat
  context : Nat
  serial : Nat
  store : Nat
  extent : Nat
  pages : Nat
  sessions : List CutSess
  /-- the TRUNK_CUT, at the home -/
  sub : Option Sub := none
  hosts : List Nat := []
  reserved : List Nat := []
  /-- cut points are taken: the reservation here, and at the home everyone's -/
  armed : Bool := false
  /-- the drain of this controller's shard is over -/
  done : Bool := false
  drained : List ShardRef := []
  since : Nat := 0
  deriving DecidableEq, Repr

/-- A trunk whose manifest is written, on its home and on every participant: what this controller's shard holds, and at
the home the log position of each session. -/
structure Trunk where
  home : Bool
  context : Nat
  serial : Nat
  store : Nat
  extent : Nat
  units : Nat
  handles : List Nat
  /-- full crates of this shard: session, layer, index, bytes (R502) -/
  crates : List (Nat × Nat × Nat × Mem) := []
  /-- context length up to which each session's tokens are logged -/
  logged : List (Nat × Nat) := []
  deriving DecidableEq, Repr

/-- A session of a restore: handles, the token and state it resumes with, its restored step count. -/
structure RestSess where
  old : Nat
  new : Nat
  step : Nat
  target : SesState
  status : Option Status := none
  deriving DecidableEq, Repr

/-- A TRUNK_RESTORE in progress at the home (R503). -/
structure TrunkRest where
  request : Nat
  sub : Sub
  context : Nat
  resultAddr : Nat
  hosts : List Nat
  restored : List Nat := []
  shard : List ShardSess
  log : List LogRecord
  sessions : List RestSess := []
  /-- the restore steps have been submitted -/
  started : Bool := false
  deriving DecidableEq, Repr

/-- A TRUNK_RESTORE as a host controller knows it: sessions made here for a request of a home. -/
structure TrunkHosted where
  home : Nat
  request : Nat
  handles : List Nat
  deriving DecidableEq, Repr

/-- Trunks. -/
structure TrunkUnit where
  cuts : List Cut := []
  trunks : List Trunk := []
  rests : List TrunkRest := []
  hosted : List TrunkHosted := []
  nextReq : Nat := 1
  deriving DecidableEq, Repr

end Sys2Proof.Machine
end

