-- ==== Sys2Proof/Machine/State.lean ====
section
/-! DEFINITION. The state of the block, why it can stop, and the state after reset. -/
namespace Sys2Proof.Machine

/-- Why the block stops. -/
inductive Fault where
  /-- MFG_MODE high at the rise of PWR_OK: no rule of the manual applies (R594). Safe: the model stops. -/
  | manufacturingMode
  deriving DecidableEq, Repr

/-- Why the model gives no meaning. -/
inductive Refusal where
  /-- Raised by an arm of `exec` whose command has no meaning yet. Safe. -/
  | notModelled (mnemonic : String)
  deriving DecidableEq, Repr

/-- Everything the spec gives the controller. -/
structure State where
  part : Part := .rb4816
  /-- stepping: letter index in [7:4], digit in [3:0] -/
  stepping : Nat := 0
  device : Nat := 0
  startCount : Nat := 1
  timebase : Nat := 0
  /-- register fields that differ from their reset value, by `fieldKey` -/
  regs : List (Nat × Nat) := []
  clk : Clocks := {}
  host : HostPort := {}
  events : Events := {}
  /-- agreed contract level, 0 while unattached (R47) -/
  attached : Nat := 0
  /-- the capability word as last reported (R55) -/
  capSeen : Nat := 0
  contexts : Tbl Ctx := []
  /-- DETACH commands that wait for the contexts to be freed (R52) -/
  detaching : List Sub := []
  sess : Sessions := {}
  hatch : Hatch := {}
  tok : Tokens := {}
  steps : Steps := {}
  lay : LayUnit := {}
  tier : Tier := {}
  atn : AtnUnit := {}
  nbu : NbuUnit := {}
  den : DenseUnit := {}
  inv : InvUnit := {}
  mir : MirUnit := {}
  maint : MaintUnit := {}
  trunk : TrunkUnit := {}
  sec : SecUnit := {}
  dbg : Debug := {}
  link : LinkUnit := {}
  rma : RmaUnit := {}
  cam : CamUnit := {}
  vsr : VsrUnit := {}
  /-- staging SRAM bytes, the BAR4 window (R82, R229, R251) -/
  sram : Mem := []
  /-- what the last command drove to the outside -/
  out : List Out := []
  pending : List Instr := []
  deriving DecidableEq, Repr

/-- A record of the cold start that has just ended: held, since the event ring is not enabled yet (R545). -/
def resetRecord (code cls source : Nat) (payload : List Nat) : EventRec :=
  { code := code, cls := cls, summary := false, spilled := false, count := 1, first := 0, last := 0, source := source, epoch := 0, payload := payload }

/-- The records of that start: MEAS_CHANGED for the layout chain, LAYOUT_BOOT_FALLBACK, MEAS_CHANGED for the security state,
START_DONE. -/
def resetRecords : List EventRec :=
  [resetRecord 0x1703 3 0x17000004 [4, 1], resetRecord 0x0203 0 0x02000000 [], resetRecord 0x1703 3 0x1700001B [27, 2],
   resetRecord 0x0106 3 0x01000000 [0, 1, 0, 0, 0, 0]]

/-- Their entries in the aggregation table (R508). -/
def resetAgg (r : EventRec) : AggEntry :=
  { source := r.source, code := r.code, epoch := 0, cls := r.cls, count := 1, first := 0, last := 0 }

/-- The state after reset: full service after the cold start of a rise of PWR_OK, with no accepted image in flash, so that the
built-in image runs (R80, R546). The register file lists what the start has set: TOP_INT_CAUSE.fatal and CLK_START.cause. -/
def State.reset : State :=
  { regs := [(0x108 * 64, 1), (0x100008 * 64 + 4, 1)]
    clk := { pins := { cePerstN := 0 } }
    host := { errArmed := false }
    events := { agg := resetRecords.map resetAgg, allow3 := 7000, held := resetRecords, recent := resetRecords }
    capSeen := 0x301000000000000
    lay := { active := { builtin := true, composition := Config.builtinComposition }, chain := Config.builtinChain }
    sec := { sticky := [4], measGen := 2 } }

end Sys2Proof.Machine
end

