-- ==== Sys2Proof/Machine/Ops.lean ====
section
/-! DEFINITION. Operations every family shares: running a command, register fields, outputs, completions,
interrupts, events. -/
namespace Sys2Proof.Machine

/-- The state `t` with what no command touches as it stands in `s`: the queue, the part and its stepping. -/
def keepFixed (s t : State) : State := { t with pending := s.pending, part := s.part, stepping := s.stepping }

/-- The outcome of a command whose effect is `f`: its outputs replace the last command's. -/
def run (s : State) (f : State → State) : Host.Outcome State Fault Refusal :=
  .next (keepFixed s (f { s with out := [] }))

/-- The full-service gate: before full service, and while off, held or saving, a command is not taken
(R36, R543, R545). -/
def whenUp (f : State → State) (s : State) : State :=
  if s.clk.phase = .service then f s else s

/-- The gate of what goes on during a save too: links, the host port's accesses, STP_SEAL (R543). -/
def whenLive (f : State → State) (s : State) : State :=
  if s.clk.phase = .service || s.clk.phase = .saving then f s else s

/-- The gate of an access of the host: none reaches the block while the host port is in reset (R36, R542). -/
def hostAccess (f : State → State) : State → State := whenLive fun s => if s.host.inReset then s else f s

/-- Drive something to the outside. -/
def emit (s : State) (o : Out) : State := { s with out := s.out ++ [o] }

/-! ### Register fields -/

/-- The value kept at a register file key, `d` where the file lists none. -/
def regGet (r : List (Nat × Nat)) (k d : Nat) : Nat := (tget? r k).getD d

/-- The key of a field at an index tuple. -/
def keyOf (f : Field) (is : List Nat) : Nat := fieldKey (f.addr + dimOffset f.dims is) f.lo

/-- A register file with the field at key `k` holding `v`: a value equal to the reset value is not listed. -/
def regPut (r : List (Nat × Nat)) (k reset v : Nat) : List (Nat × Nat) :=
  if v = reset then tdel r k else tset r k v

/-- Read a field. -/
def fld (s : State) (f : Field) : Nat := regGet s.regs (keyOf f []) f.reset

/-- Read a field of an indexed register. -/
def fldAt (s : State) (f : Field) (is : List Nat) : Nat := regGet s.regs (keyOf f is) f.reset

/-- Store into a field, cut to its width. -/
def setFldAt (s : State) (f : Field) (is : List Nat) (v : Nat) : State :=
  { s with regs := regPut s.regs (keyOf f is) f.reset (v % 2 ^ f.width) }

/-- Store into a field of a single register. -/
def setFld (s : State) (f : Field) (v : Nat) : State := setFldAt s f [] v

/-- Add to a counter field that wraps. -/
def bumpAt (s : State) (f : Field) (is : List Nat) (n : Nat) : State :=
  setFldAt s f is (fldAt s f is + n)

/-- Add to a wrapping counter of a single register. -/
def bump (s : State) (f : Field) (n : Nat := 1) : State := bumpAt s f [] n

/-- A field as a Boolean. -/
def flag (s : State) (f : Field) : Bool := fld s f ≠ 0

/-! ### Interrupts (R584, R587) -/

/-- Send a vector's MSI-X message: suppressed by TOP_INT_CFG.enable 0, made pending by a vector mask. -/
def sendVector (s : State) (v : Nat) : State :=
  if fld s Reg.TOP_INT_CFG.enable = 0 then s
  else if fldAt s Reg.MSIX.mask [v] = 1 then
    setFldAt s Reg.MSIX.pending [v / 64] (putBit (fldAt s Reg.MSIX.pending [v / 64]) (v % 64) true)
  else emit s (.msix v (fldAt s Reg.MSIX.addr_lo [v] + 2 ^ 32 * fldAt s Reg.MSIX.addr_hi [v])
    (fldAt s Reg.MSIX.data [v]))

/-- The cause bits of TOP_INT_CAUSE in bit order. -/
def causeField : Nat → Field
  | 0 => Reg.TOP_INT_CAUSE.fatal
  | 1 => Reg.TOP_INT_CAUSE.evt_overflow
  | 2 => Reg.TOP_INT_CAUSE.ring_fault
  | _ => Reg.TOP_INT_CAUSE.bad_access

/-- Whether an unmasked cause bit is set. -/
def unmaskedCause (s : State) : Bool :=
  (List.range 4).any fun i => fld s (causeField i) = 1 && !bitOf (fld s Reg.TOP_INT_MASK.mask) i

/-- Set cause bit `i`: err_vector goes out when the bit rises unmasked, again only after every unmasked bit
was cleared (R587). -/
def raiseCause (s : State) (i : Nat) : State :=
  if fld s (causeField i) = 1 then s
  else
    let t := setFld s (causeField i) 1
    if bitOf (fld t Reg.TOP_INT_MASK.mask) i || !t.host.errArmed then t
    else
      let t := sendVector t (fld t Reg.TOP_INT_CFG.err_vector)
      { t with host := { t.host with errArmed := false } }

/-- After host software cleared cause bits: err_vector may be sent again once no unmasked bit is left. -/
def rearmErr (s : State) : State :=
  if unmaskedCause s then s else { s with host := { s.host with errArmed := true } }

/-! ### Events (R507 to R510, R545, R583) -/

/-- The class of an event code (R510 and the tables that give their own class). -/
def eventClass (code : Nat) : Nat :=
  if [0x0002, 0x0003, 0x0103, 0x0104, 0x0105, 0x0203, 0x1508].contains code then 0
  else if [0x0101, 0x0107, 0x0202, 0x0301, 0x0304, 0x0401, 0x0402, 0x0405, 0x0406, 0x0502, 0x0504, 0x0601,
    0x0602, 0x0701, 0x0702, 0x0802, 0x0803, 0x0804, 0x0805, 0x0806, 0x0807, 0x0A03, 0x0D03, 0x1001, 0x1004,
    0x1005, 0x1401, 0x1501, 0x1502, 0x1505, 0x1507, 0x1702, 0x1707, 0x1802, 0x1601, 0x1602, 0x1608,
    0x160C].contains code then 1
  else if [0x0001, 0x0102, 0x0106, 0x0201, 0x0303, 0x0A01, 0x0B01, 0x0D01, 0x1002, 0x1007, 0x1008, 0x1402,
    0x1506, 0x1701, 0x1703, 0x1705, 0x1607, 0x160E].contains code then 3
  else 2

/-- Count a dropped record of a class in EVT_DROP. -/
def countDrop (s : State) (cls : Nat) : State :=
  match cls with
  | 1 => bump s Reg.EVT_DROP.c1
  | 2 => bump s Reg.EVT_DROP.c2
  | 3 => bump s Reg.EVT_DROP.c3
  | _ => s

/-- The greatest class number among held records. -/
def worstHeld (l : List EventRec) : Nat := maxOf (l.map (·.cls))

/-- Entries of the event ring. -/
def evtSize (s : State) : Nat := 2 ^ fld s Reg.TOP_EVT_CFG.log2

/-- Entries written and unreleased in a ring of the given size. -/
def ringUsed (size head tail : Nat) : Nat := (tail + size - head % size) % size

/-- Whether the event ring can take a record now. -/
def evtRoom (s : State) : Bool :=
  fld s Reg.TOP_EVT_CFG.enable = 1 && !s.host.evtRing.fault && !s.host.inReset &&
    decide (ringUsed (evtSize s) s.host.evtRing.head s.host.evtRing.tail + 1 < evtSize s)

/-- Send a ring's vector if it is armed and its count of unreleased entries has reached irq_count. -/
def irqDue (armed : Bool) (irqCount used : Nat) : Bool :=
  armed && decide (0 < irqCount) && decide (irqCount ≤ used)

/-- Write one record to the event ring, which has room. -/
def writeEvent (s : State) (r : EventRec) : State :=
  let e := s.host.evtRing
  let size := evtSize s
  let s := emit s (.event r e.phase)
  let tail := (e.tail + 1) % size
  let e := { e with tail := tail, posted := wrapAdd 32 e.posted 1,
                    phase := if tail = 0 then !e.phase else e.phase, unsignalled := e.unsignalled + 1 }
  if irqDue e.armed (fld s Reg.TOP_EVT_CFG.irq_count) (ringUsed size e.head tail) then
    sendVector { s with host := { s.host with evtRing := { e with armed := false, unsignalled := 0 } } }
      (fld s Reg.TOP_EVT_CFG.vector)
  else { s with host := { s.host with evtRing := e } }

/-- Hold a record the ring cannot take: up to 64 before the ring is first enabled (R545), up to 4,096 after
(R583); beyond that records of classes 1 to 3 are dropped and a class-0 record displaces one. -/
def holdRecord (s : State) (r : EventRec) : State :=
  let h := s.events.held
  let cap := if s.events.setUp then 4096 else 64
  let put (l : List EventRec) (s : State) : State := { s with events := { s.events with held := l } }
  if h.length < cap then put (h ++ [r]) s
  else if r.cls ≠ 0 then
    let s := countDrop s r.cls
    let s := { s with events := { s.events with dropped := s.events.dropped + 1 } }
    if s.events.setUp then raiseCause s 1 else s
  else
    let w := worstHeld h
    if w = 0 && !s.events.setUp && decide (h.length < 4096) then put (h ++ [r]) s
    else
      let s := if s.events.setUp then s else countDrop s w
      let s := put (dropFirst (fun x => x.cls = w) h ++ [r]) s
      raiseCause { s with events := { s.events with displaced := s.events.displaced + 1 } } 1

/-- Take one record from a class's allowance (R509): `none` where it holds less than one record. -/
def takeAllowance (e : Events) (cls : Nat) : Option Events :=
  match cls with
  | 1 => if 1000 ≤ e.allow1 then some { e with allow1 := e.allow1 - 1000 } else none
  | 2 => if 1000 ≤ e.allow2 then some { e with allow2 := e.allow2 - 1000 } else none
  | 3 => if 1000 ≤ e.allow3 then some { e with allow3 := e.allow3 - 1000 } else none
  | _ => some e

/-- Send a record to the ring, or hold it behind those already held. -/
def postRecord (s : State) (r : EventRec) : State :=
  let s := if r.cls = 0 then raiseCause s 0 else s
  let s := { s with events := { s.events with recent := (s.events.recent ++ [r]).drop ((s.events.recent.length + 1) - 64) } }
  if s.events.held.isEmpty && evtRoom s then writeEvent s r else holdRecord s r

/-- Post a record that is no summary: it passes its class allowance or is dropped and counted. -/
def postLimited (s : State) (r : EventRec) : State :=
  match takeAllowance s.events r.cls with
  | some e => postRecord { s with events := e } r
  | none => countDrop s r.cls

/-- The summary record of an aggregation entry. -/
def summaryOf (a : AggEntry) (spilled : Bool) : EventRec :=
  { code := a.code, cls := a.cls, summary := true, spilled := spilled, count := a.count, first := a.first,
    last := a.last, source := a.source, epoch := a.epoch, payload := [] }

/-- An event's report enters the aggregation table (R508): a new key opens an entry and posts a record, a
known one only counts; a full table spills its oldest entry first. -/
def report (s : State) (code instance_ epoch : Nat) (payload : List Nat) : State :=
  let source := code / 256 * 2 ^ 24 + instance_ % 2 ^ 24
  let same (a : AggEntry) : Bool := a.source = source && a.code = code && a.epoch = epoch
  if s.events.agg.any same then
    { s with events := { s.events with
        agg := modFirst same (fun a => { a with count := a.count + 1, last := s.timebase }) s.events.agg } }
  else
    let s := if s.events.agg.length < 512 then s
      else match minBy (·.first) s.events.agg with
        | some a =>
          let s := { s with events := { s.events with agg := dropFirst (fun x => x.first = a.first) s.events.agg } }
          postRecord (bump s Reg.EVT_DROP.spilled) (summaryOf a true)
        | none => s
    let cls := eventClass code
    let s := { s with events := { s.events with
      agg := s.events.agg ++ [{ source := source, code := code, epoch := epoch, cls := cls, count := 1,
                                first := s.timebase, last := s.timebase }] } }
    postLimited s { code := code, cls := cls, summary := false, spilled := false, count := 1,
                    first := s.timebase, last := s.timebase, source := source, epoch := epoch,
                    payload := payload }

/-- A report that its table limits to once per second: `at_` is the time of the last one. -/
def duePerSecond (at_ : Option Nat) (now : Nat) : Bool :=
  match at_ with
  | some t => decide (t + 1000000000 ≤ now)
  | none => true

/-- Count a bad access (R565, R568, R575): the counter, the last offset, the cause bit; BAD_ACCESS is posted
at most once per second (R588). -/
def badAccess (s : State) (off : Nat) (bar2 write : Bool) : State :=
  let t := bump s Reg.TOP_BAD_ACCESS.count
  let t := setFld t Reg.TOP_BAD_ACCESS.offset off
  let t := setFld t Reg.TOP_BAD_ACCESS.bar2 (b2n bar2)
  let t := setFld t Reg.TOP_BAD_ACCESS.write (b2n write)
  let t := raiseCause t 3
  if duePerSecond t.events.badAccessAt t.timebase then
    report { t with events := { t.events with badAccessAt := some t.timebase } } 0x0004 0 0
      [fld t Reg.TOP_BAD_ACCESS.count, off]
  else t

end Sys2Proof.Machine
end

