-- ==== Sys2Proof/Machine/Wire.lean ====
section
/-! DEFINITION. What the link layer must know of a message: its type, its length, its virtual channel, the epoch at bytes
3:2. -/
namespace Sys2Proof.Machine

/-- The type of a mirror message (R484). -/
def mirrorType : MirrorBody → Nat
  | .open_ _ _ => 0x70 | .state _ => 0x71 | .note _ _ _ => 0x72 | .prep _ => 0x73 | .ack => 0x74
  | .retire => 0x75 | .sync _ _ => 0x76 | .pull _ => 0x77 | .handover => 0x78

/-- Message type (R163 and the chapters that own each message). -/
def msgType : Msg → Nat
  | .stpDesc _ => 0x30 | .stpPrepared _ => 0x31 | .stpSeal _ => 0x32 | .stpSealAck _ => 0x33 | .stpKilled _ => 0x34
  | .stpAbort _ => 0x35 | .stpDone _ => 0x36 | .semReq _ _ _ _ => 0x38 | .semRsp _ => 0x39 | .atnOut _ => 0x22
  | .dlgBlock _ => 0x23 | .dlgOut _ => 0x24 | .mirror _ b => mirrorType b | .roleClaim _ _ _ _ _ _ => 0x7A
  | .lostReport _ _ => 0x79 | .trunkReq _ => 0x7B | .trunkRsp _ => 0x7C | .vsrReq _ => 0x60 | .vsrRsp _ => 0x61
  | .invReq _ => 0x40 | .invRsp _ => 0x41 | .embRows _ => 0x51 | .atnQkv _ => 0x21 | .logits _ _ => 0x50
  | .rm m => m.type | .rmAck _ => 0x85 | .undefined t _ => t

/-- Whether version 1 defines a type (R415, R454, R484). -/
def typeDefined (t : Nat) : Bool :=
  (decide (0x21 ≤ t) && decide (t ≤ 0x24)) || (decide (0x30 ≤ t) && decide (t ≤ 0x36)) || t = 0x38 || t = 0x39 ||
    t = 0x40 || t = 0x41 || t = 0x50 || t = 0x51 || t = 0x60 || t = 0x61 ||
    (decide (0x70 ≤ t) && decide (t ≤ 0x7C)) || (decide (0x80 ≤ t) && decide (t ≤ 0x85))

/-- Bytes padded to a multiple of 8. -/
def pad8 (n : Nat) : Nat := ceilDiv n 8 * 8

/-- Bytes of a prepare copy (R486). -/
def prepLen (c : PrepCopy) : Nat :=
  (c.layers.foldl (fun n l => n + 16 + (l.crates.foldl (fun n x => n + 8 + x.bytes.length) 0) +
    (l.ssmIn.foldl (fun n x => n + 2 * x.length) 0) + (l.selected.foldl (fun n x => n + 2 * x.length) 0)) 0) +
    (if c.tail.isSome then 32 else 0)

/-- Payload bytes of a mirror message (R484). -/
def mirrorBytes : MirrorBody → Nat
  | .open_ _ toks => 256 + 4 * toks.length
  | .state toks => 4 * toks.length
  | .note _ _ _ => 16
  | .prep c => prepLen c
  | .sync _ b => b.length
  | .pull _ => 8
  | _ => 0

/-- Bytes of a step message (R270); a seal record adds 8 bytes an entry. -/
def stepMsgBytes (m : StepMsg) : Nat :=
  32 + 8 * m.entries.length + (if m.mirror && m.entries.any (fun e => e.step ≠ 0 || e.token ≠ 0) then 8 * m.entries.length else 0)

/-- Message length in bytes, padded to a multiple of 8. -/
def msgLen : Msg → Nat
  | .stpDesc d => 64 + 16 * d.entries.length
  | .stpPrepared m => stepMsgBytes m
  | .stpSeal m => stepMsgBytes m
  | .stpSealAck m => stepMsgBytes m
  | .stpKilled m => stepMsgBytes m
  | .stpAbort m => stepMsgBytes m
  | .stpDone m => stepMsgBytes m
  | .semReq _ _ _ _ => 24
  | .semRsp _ => 72
  | .atnOut m => 64 + pad8 ((if m.bf16 then 2 else 4) * m.payload.length)
  | .dlgBlock m => 64 + 4 * m.q.length + m.crates.foldl (fun n c => n + 8 + c.k.length + c.v.length) 0
  | .dlgOut m => 32 + pad8 m.payload.length
  | .mirror _ b => 32 + pad8 (mirrorBytes b)
  | .roleClaim _ _ _ _ _ _ => 32
  | .lostReport _ _ => 32
  | .trunkReq r => 32 + 8 * r.handles.length + 16 * r.pairs.length + (if r.shard.isSome then 128 else 0)
  | .trunkRsp _ => 96
  | .vsrReq r => 64 + pad8 (4 * r.vec.length)
  | .vsrRsp r => 32 + 16 * r.entries.length
  | .invReq r => 48 + pad8 (4 * r.tokens.length)
  | .invRsp r => 32 + pad8 (4 * (r.points.getD []).length)
  | .embRows m => 48 + m.rows.foldl (fun n r => n + 8 + pad8 ((if m.stored && r.cold then 1 else 2) * m.colCount)) 0
  | .atnQkv q => pad8 q.length
  | .logits m _ => 48 + pad8 ((if m.fmt = 2 then 4 else 2) * m.values.length)
  | .rm m => 40 + pad8 m.data.length
  | .rmAck _ => 24
  | .undefined _ n => pad8 n

/-- The virtual channel of a message (R415, R485); `cls` is the class of its step or session. -/
def msgVc (m : Msg) (cls : Option Nat) : Nat :=
  let t := msgType m
  if (decide (0x30 ≤ t) && decide (t ≤ 0x36)) || t = 0x38 || t = 0x39 || t = 0x40 || t = 0x41 then 0
  else if t = 0x79 || t = 0x7A then 1
  else if t = 0x7B || t = 0x7C then 4
  else if (decide (0x21 ≤ t) && decide (t ≤ 0x24)) || t = 0x50 || t = 0x51 || (decide (0x70 ≤ t) && decide (t ≤ 0x78)) then
    1 + cls.getD 0
  else if decide (0x80 ≤ t) && decide (t ≤ 0x8F) then 5
  else if t = 0x60 || t = 0x61 then 6
  else 7

/-- The epoch at bytes 3:2 of a message. -/
def msgEpoch : Msg → Nat
  | .atnQkv q => q.epoch
  | .invReq r => r.epoch
  | .logits m _ => m.epoch
  | .vsrReq r => r.epoch
  | .rm m => m.epoch
  | .mirror h _ => h.epoch
  | .trunkReq r => r.epoch
  | _ => 0

/-- Bytes of a frame: header, padded message, tag (R414). -/
def frameBytes (f : Frame) : Nat := 32 + pad8 f.length

/-- Flits of a frame (R411). -/
def frameFlits (f : Frame) : Nat := ceilDiv (frameBytes f) 244

/-- The credit pool of a virtual channel (R411, R416). -/
def poolOf (vc : Nat) : Nat := if vc = 0 then 0 else if vc ≤ 4 then 1 else vc - 3

end Sys2Proof.Machine
end

