-- ==== Sys2Proof/Machine/Egress.lean ====
section
/-! DEFINITION. Session handles and records; sending a message: transactions, the choice of a route's link, egress queues
(R279, R410, R416, R418, R421, R440). -/
namespace Sys2Proof.Machine

/-! ### Handles and sessions -/

/-- Where a session's descriptor lies in the table: origin device and serial. -/
def sessKey (dev serial : Nat) : Nat := dev * 2 ^ 27 + serial

/-- The origin device of a handle (R31). -/
def hDev (h : Nat) : Nat := bitsOf h 53 11
/-- The context of a handle. -/
def hCtx (h : Nat) : Nat := bitsOf h 43 10
/-- The serial of a handle. -/
def hSerial (h : Nat) : Nat := bitsOf h 16 27
/-- The generation of a handle. -/
def hGen (h : Nat) : Nat := bitsOf h 0 16
/-- The handle of its four fields (R31). -/
def mkHandle (dev ctx serial gen : Nat) : Nat :=
  dev % 2 ^ 11 * 2 ^ 53 + ctx % 2 ^ 10 * 2 ^ 43 + serial % 2 ^ 27 * 2 ^ 16 + gen % 2 ^ 16
/-- The table key of a handle. -/
def hKey (h : Nat) : Nat := sessKey (hDev h) (hSerial h)

/-- Replace a session's record. -/
def setSess (s : State) (x : Session) : State :=
  { s with sess := { s.sess with table := tset s.sess.table (hKey x.handle) x } }

/-- The session a handle names, generation included (R33, R91). -/
def sessOf (s : State) (h : Nat) : Option Session :=
  match tget? s.sess.table (hKey h) with
  | some x => if x.handle = h && x.state ≠ .free then some x else none
  | none => none

/-- Update the session a handle names, if it is current. -/
def modSess (s : State) (h : Nat) (f : Session → Session) : State :=
  match sessOf s h with
  | some x => setSess s (f x)
  | none => s

/-! ### Ports -/

/-- A native link. -/
def lnkOf (s : State) (n : Nat) : Link := tget {} s.link.links n

/-- Replace a native link. -/
def setLnk (s : State) (n : Nat) (l : Link) : State :=
  { s with link := { s.link with links := tset s.link.links n l } }

/-- An Ethernet port. -/
def ethOf (s : State) (p : Nat) : EthPort := tget {} s.link.ports p

/-- Replace an Ethernet port. -/
def setEth (s : State) (p : Nat) (e : EthPort) : State :=
  { s with link := { s.link with ports := tset s.link.ports p e } }

/-- Replace the transactions. -/
def setTxns (s : State) (l : List Txn) : State := { s with link := { s.link with txns := l } }

/-- Update one transaction. -/
def modTxn (s : State) (dest txid : Nat) (f : Txn → Txn) : State :=
  setTxns s (modFirst (fun t => t.dest = dest && t.txid = txid) f s.link.txns)

/-- An open transaction. -/
def txnOf (s : State) (dest txid : Nat) : Option Txn := s.link.txns.find? fun t => t.dest = dest && t.txid = txid

/-- The device number of a route's port, and whether it is usable for a class (R418): UP with keys, or HELD for a class
outside fast_resend. -/
def usable (s : State) (port : Nat) (cls : Option Nat) : Bool :=
  let st := if port < 48 then (lnkOf s port).st else (ethOf s (port - 48)).st
  let fast := match cls with | some c => bitOf (fld s Reg.LNK_XCFG.fast_resend) c | none => false
  st = .up || (st = .held && !fast)

/-- Ports of a route, ascending: native links, then Ethernet ports. -/
def routePorts (s : State) (dest : Nat) : List Nat × List Nat :=
  match tget? s.lay.active.routes dest with
  | some r => if r.valid then (setBits r.links 48, (setBits r.ethPorts 12).map (48 + ·)) else ([], [])
  | none => ([], [])

/-- Count a frame withheld from a link whose partner is another device, LINK_MISWIRE once per link and training (R410). -/
def miswire (s : State) (n : Nat) : State :=
  let l := lnkOf s n
  let s := bump s Reg.LNK_ROUTE_ERR.miswire
  if l.miswired then s else report (setLnk s n { l with miswired := true }) 0x1005 n 0 [n, l.partner]

/-- A link is wired to another device than its route says. -/
def wrongPartner (s : State) (dest n : Nat) : Bool := (lnkOf s n).st ≠ .down && (lnkOf s n).version ≠ 0 && (lnkOf s n).partner ≠ dest

/-- The port that a frame takes (R418). -/
def choosePort (s : State) (dest vc flow : Nat) (cls : Option Nat) : State × Option Nat :=
  let (nat, eth) := routePorts s dest
  let s := (nat.filter (wrongPartner s dest)).foldl miswire s
  let nat := (nat.filter fun n => !wrongPartner s dest n).filter fun n => usable s n cls
  let eth := eth.filter fun p => usable s p cls
  let pick := if nat.isEmpty then eth else nat
  let policy := match tget? s.lay.active.routes dest with | some r => r.policy | none => 0
  if policy = 1 then (s, pick.head?)
  else
    let h := crc32c (leBytes 4 flow ++ leBytes 2 dest ++ [vc, 0])
    (s, pick[h % pick.length]?)

/-! ### Step credits (R279) -/

/-- Reserve of class `c` on every link. -/
def creditReserve (s : State) (c : Nat) : Nat :=
  match c with
  | 0 => fld s Reg.STP_CREDIT.c0
  | 1 => fld s Reg.STP_CREDIT.c1
  | 2 => fld s Reg.STP_CREDIT.c2
  | _ => fld s Reg.STP_CREDIT.c3

/-- Entries of every egress queue of a link. -/
def queued (l : Link) : List EgItem := (tvals l.queues).flatten

/-- Credits of class `c`'s reserve that are free on a link. -/
def reserveFree (s : State) (l : Link) (c : Nat) : Nat :=
  creditReserve s c - sumOf ((queued l).map fun i => if i.cls = some c then i.heldReserve else 0)
    - 4 * (l.draws.filter fun d => d.cls = c && d.reserve).length

/-- Credits of the shared pool that are free on a link. -/
def sharedFree (s : State) (l : Link) : Nat :=
  l.pools.getD 1 0 - sumOf ((List.range 4).map (creditReserve s)) - sumOf ((queued l).map (·.heldShared))
    - 4 * (l.draws.filter fun d => !d.reserve).length

/-- A queued step frame draws what it can of the credits its flits not sent need, first on its class's reserve. -/
def drawCredits (s : State) (l : Link) (i : EgItem) : EgItem :=
  match i.cls with
  | none => i
  | some c =>
    let need := 4 * (i.flits - i.sent) - i.heldReserve - i.heldShared
    let a := Nat.min need (reserveFree s l c / 4 * 4)
    let b := Nat.min (need - a) (sharedFree s l / 4 * 4)
    { i with heldReserve := i.heldReserve + a, heldShared := i.heldShared + b }

/-! ### Egress queues -/

/-- Put an entry at the end of an egress queue of a link. -/
def enqueueLink (s : State) (n q : Nat) (i : EgItem) : State :=
  let l := lnkOf s n
  let i := drawCredits s l i
  setLnk s n { l with queues := tset l.queues q (tget [] l.queues q ++ [i]) }

/-- Put an entry at the end of an egress queue of an Ethernet port. -/
def enqueueEth (s : State) (p q : Nat) (i : EgItem) : State :=
  let e := ethOf s p
  setEth s p { e with queues := tset e.queues q (tget [] e.queues q ++ [i]) }

/-- Put a frame on a port. C0 frames of a suspended link go in VC2, demoted (R439). -/
def enqueueFrame (s : State) (port : Nat) (f : Frame) (cls partition : Option Nat) (part : Option (Nat × Nat)) : State :=
  if port < 48 then
    let f := if f.vc = 1 && (lnkOf s port).suspended then { f with vc := 2, demoted := true } else f
    enqueueLink s port f.vc { body := .frame f, cls := if poolOf f.vc = 1 then some (cls.getD 0) else none, partition := partition,
                              part := part, flits := frameFlits f }
  else enqueueEth s (port - 48) f.vc { body := .frame f, cls := cls, partition := partition, part := part }

/-! ### Transactions (R421) -/

/-- A transaction ended for its unit. -/
def endTxn (s : State) (t : Txn) (st : Status) (detail : Nat) : State :=
  let s := setTxns s (dropFirst (fun x => x.dest = t.dest && x.txid = t.txid) s.link.txns)
  if st = .ok then s
  else { s with link := { s.link with ended := s.link.ended ++ [{ dest := t.dest, msg := t.msg, status := st, detail := detail }] } }

/-- The step reference and session of a frame that a part sends (R280): the results. An ATN_OUT that refuses a request ends the
part (R271) and is not dropped with it (DEDUCED, log 145). -/
def msgPart : Msg → Option (Nat × Nat)
  | .atnOut m => if m.status = .ok then some (m.q.stepRef, m.q.handle) else none
  | _ => none

/-- The frame of a transaction. -/
def txnFrame (s : State) (t : Txn) : Frame :=
  { dst := t.dest, src := s.device, vc := t.vc, demoted := false, phase := false, retx := decide (0 < t.sends),
    startEpoch := s.startCount % 2 ^ 16, length := msgLen t.msg, txid := t.txid, body := .msg t.msg }

/-- Send a transaction's frame on a port. -/
def launchOn (s : State) (t : Txn) (port : Nat) : State :=
  let s := enqueueFrame s port (txnFrame s t) t.cls t.partition (msgPart t.msg)
  modTxn s t.dest t.txid fun x => { x with sends := x.sends + 1, port := some port }

/-- Send a transaction's frame on its route, or end it with LINK_DOWN (R418). -/
def launch (s : State) (t : Txn) : State :=
  let (s, p) := choosePort s t.dest t.vc t.flow t.cls
  match p with
  | some p => launchOn s t p
  | none => endTxn s t .linkDown 6

/-- The session a message names. -/
def msgHandle : Msg → Option Nat
  | .atnOut m => some m.q.handle
  | .dlgBlock m => some m.handle
  | .dlgOut m => some m.handle
  | .mirror h _ => some h.handle
  | .embRows m => some m.handle
  | .invReq r => if r.handle = 0 then none else some r.handle
  | .invRsp r => if r.handle = 0 then none else some r.handle
  | _ => none

/-- The step a message belongs to. -/
def msgStep : Msg → Option Nat
  | .atnOut m => some m.q.stepRef
  | .stpDesc d => some d.stepRef
  | .stpPrepared m => some m.stepRef
  | .stpSeal m => some m.stepRef
  | .stpSealAck m => some m.stepRef
  | .stpKilled m => some m.stepRef
  | .stpAbort m => some m.stepRef
  | .stpDone m => some m.stepRef
  | .mirror h (.prep _) => some h.ref
  | _ => none

/-- The class of a message (R415): that of its step, else its session's. -/
def msgClass (s : State) (m : Msg) : Option Nat :=
  match m with
  | .dlgBlock m => some m.cls
  | _ =>
    match (msgStep m).bind fun r => s.steps.parts.find? fun p => p.stepRef = r with
    | some p => some p.cls
    | none => (msgHandle m).bind fun h => (sessOf s h).map (·.cls)

/-- The request number of a message, for its flow label. -/
def msgRequest : Msg → Option Nat
  | .vsrReq r => some r.request
  | .vsrRsp r => some r.request
  | .trunkReq r => some r.request
  | .trunkRsp r => some r.request
  | .invReq r => some r.request
  | .invRsp r => some r.request
  | _ => none

/-- The flow label of a message (R418): session serial, else request ID, step reference or txid. -/
def msgFlow (m : Msg) (txid : Nat) : Nat :=
  match msgHandle m with
  | some h => hSerial h
  | none => match msgRequest m with
    | some r => r
    | none => match msgStep m with
      | some r => r
      | none => txid

/-- The partition whose link regulator a message is charged to (R260): none for traffic of no context. -/
def msgPartition (s : State) (m : Msg) : Option Nat :=
  let ctx := match m with
    | .atnOut m => some (hCtx m.q.handle)
    | .dlgBlock m => some (hCtx m.handle)
    | .embRows m => some (hCtx m.handle)
    | .invReq r => some r.context
    | .invRsp r => if r.handle = 0 then none else some (hCtx r.handle)
    | .vsrReq r => some r.context
    | _ => none
  ctx.bind fun c => (tget? s.contexts c).map (·.partition)

/-- Open a transaction and send it (R421). -/
def openTxn (s : State) (dest : Nat) (m : Msg) (cls partition : Option Nat) : State :=
  let id := tget 1 s.link.nextTx dest
  let t : Txn := { dest := dest, txid := id, msg := m, vc := msgVc m cls, cls := cls, partition := partition, flow := msgFlow m id }
  let t := { t with cls := if poolOf t.vc = 1 then some (t.vc - 1) else none }
  let s := { s with link := { s.link with nextTx := tset s.link.nextTx dest ((id + 1) % 2 ^ 32), txns := s.link.txns ++ [t] } }
  launch s t

/-- Send a message of a class and a partition: at most 2,048 transactions to one device stand open. -/
def sendAs (s : State) (dest : Nat) (m : Msg) (cls partition : Option Nat) : State :=
  if 2048 ≤ (s.link.txns.filter fun t => t.dest = dest).length then
    { s with link := { s.link with backlog := s.link.backlog ++ [(dest, m, cls, partition)] } }
  else openTxn s dest m cls partition

/-! ### Frames of a part (R262, R277, R280) -/

/-- Every native link with its queues' entries mapped. -/
def mapQueued (s : State) (f : EgItem → EgItem) : State :=
  { s with link := { s.link with links := tmap (fun _ l => { l with queues := tmap (fun _ q => q.map f) l.queues }) s.link.links } }

/-- Drop the entries of every egress queue that no flit has left and that satisfy `p`. -/
def dropQueued (s : State) (p : EgItem → Bool) : State :=
  let keep (q : List EgItem) : List EgItem := q.filter fun i => !(i.sent = 0 && p i)
  { s with link := { s.link with
      links := tmap (fun _ l => { l with queues := tmap (fun _ q => keep q) l.queues }) s.link.links,
      ports := tmap (fun _ e => { e with queues := tmap (fun _ q => keep q) e.queues }) s.link.ports } }

/-- The unsent frames of a session's part go with its kill, their credits at once (R280). -/
def dropUnsent (s : State) (ref h : Nat) : State :=
  let mine (i : EgItem) : Bool := i.part = some (ref, h)
  let gone := ((s.link.links.map fun x => queued x.2).flatten ++ (s.link.ports.map fun x => (tvals x.2.queues).flatten).flatten).filter
    fun i => i.sent = 0 && mine i
  let s := gone.foldl (fun s i => match i.body with
    | .frame f => setTxns s (s.link.txns.filter fun t => !(t.dest = f.dst && t.txid = f.txid))
    | _ => s) s
  dropQueued s mine

/-- The credits that a session's part holds for frames not sent go back (R262). -/
def returnCredits (s : State) (ref h : Nat) : State :=
  mapQueued s fun i => if i.part = some (ref, h) then { i with heldReserve := 0, heldShared := 0 } else i

/-- Entries of a part on a link. -/
def partItems (l : Link) (ref : Nat) : List EgItem := (queued l).filter fun i => match i.part with | some p => p.1 = ref | none => false

/-- Shared-pool credits that the unsent frames of a part hold on a link. -/
def sharedCredits (s : State) (ref n : Nat) : Nat := sumOf ((partItems (lnkOf s n) ref).map (·.heldShared))

/-- Shared-pool credits of a part on every link. -/
def partCredits (s : State) (ref : Nat) : Nat := sumOf ((tkeys s.link.links).map (sharedCredits s ref))

/-- The first link on which a part lacks credits, and how many. -/
def creditShort (s : State) (ref : Nat) : Option (Nat × Nat) :=
  (tkeys s.link.links).foldl (fun acc n => match acc with
    | some x => some x
    | none =>
      let need := sumOf ((partItems (lnkOf s n) ref).map fun i => 4 * (i.flits - i.sent) - i.heldReserve - i.heldShared)
      if need = 0 then none else some (n, need)) none

/-- Hand a message to the link layer for a device. -/
def sendMsg (s : State) (dest : Nat) (m : Msg) : State := sendAs s dest m (msgClass s m) (msgPartition s m)

end Sys2Proof.Machine
end

