-- ==== Sys2Proof/Machine/Send.lean ====
section
/-! DEFINITION. Sending one message to several devices. -/
namespace Sys2Proof.Machine

/-- Send one message to each of a list of devices. -/
def sendEach (s : State) (dests : List Nat) (m : Msg) : State := dests.foldl (fun s d => sendMsg s d m) s

end Sys2Proof.Machine
end

