-- ==== Sys2Proof/Machine/Complete.lean ====
section
/-! DEFINITION. Completions of commands. -/
namespace Sys2Proof.Machine

/-! ### Completions (R35 to R37, R580, R581, R585) -/

/-- The ring pair `r`. -/
def ringOf (s : State) (r : Nat) : Ring := tget {} s.host.rings r

/-- Replace the ring pair `r`. -/
def setRing (s : State) (r : Nat) (x : Ring) : State :=
  { s with host := { s.host with rings := tset s.host.rings r x } }

/-- Completion slots of a ring pair. -/
def cqSize (s : State) (r : Nat) : Nat := 2 ^ fldAt s Reg.TOP_RING_CFG.cq_log2 [r]

/-- Submission slots of a ring pair. -/
def sqSize (s : State) (r : Nat) : Nat := 2 ^ fldAt s Reg.TOP_RING_CFG.sq_log2 [r]

/-- Completions written and not released. -/
def cqUsed (s : State) (r : Nat) : Nat := ringUsed (cqSize s r) (ringOf s r).cqHead (ringOf s r).cqTail

/-- Write one completion into the ring's reserved slot with the phase of this pass (R581). -/
def writeCompletion (s : State) (c : Completion) : State :=
  let x := ringOf s c.ring
  let s := emit s (.completion { c with phase := x.phase })
  let tail := (x.cqTail + 1) % cqSize s c.ring
  let x := { x with cqTail := tail, phase := if tail = 0 then !x.phase else x.phase,
                    reserved := x.reserved - 1, unsignalled := x.unsignalled + 1 }
  let s := setRing s c.ring x
  if irqDue x.armed (fldAt s Reg.TOP_RING_CFG.irq_count [c.ring]) (cqUsed s c.ring) then
    sendVector (setRing s c.ring { x with armed := false, unsignalled := 0 })
      (fldAt s Reg.TOP_RING_CFG.vector [c.ring])
  else s

/-- The ring number that marks a command a remote device sent (R286): it completes by a message. -/
def remoteRing : Nat := 0x10000

/-- Complete a command once: its tag is free again, its entry is written, or held while the ring's memory
faults or the host port is in reset. -/
def complete (s : State) (sub : Sub) (st : Status) (detail : Nat) (results : List Nat) : State :=
  let c : Completion :=
    { ring := sub.ring, tag := sub.tag, status := st, detail := detail, time := s.timebase, phase := true, results := results }
  if sub.ring ≥ remoteRing then sendMsg s (sub.ring - remoteRing) (.semRsp { c with ring := 0 })
  else
    let x := ringOf s sub.ring
    let x := { x with tags := x.tags.erase sub.tag, outstanding := x.outstanding - 1 }
    if x.fault || s.host.inReset then setRing s sub.ring { x with held := x.held ++ [c] }
    else writeCompletion (setRing s sub.ring x) c

/-- Complete with a status and detail and no results. -/
def refuse (s : State) (sub : Sub) (st : Status) (detail : Nat) : State := complete s sub st detail []

end Sys2Proof.Machine
end

