-- ==== Sys2Proof/Machine/Host.lean ====
section
/-! DEFINITION. The host port: doorbells, ring engines, output rings, interrupts, event ring (chapter
"Register conventions and map"). -/
namespace Sys2Proof.Machine

/-! ### Register writes, half by half (R565, R566) -/

/-- A write's value placed at its half of the register. -/
def wvalue (w : RegWrite) : Nat :=
  if w.size = 4 && decide (w.off % 8 = 4) then w.value % 2 ^ 32 * 2 ^ 32 else w.value % 2 ^ 64

/-- Whether bits `[lo + wd − 1 : lo]` lie wholly in the bytes a write covers. -/
def covers (w : RegWrite) (lo wd : Nat) : Bool :=
  if w.size = 8 then true
  else if w.off % 8 = 4 then decide (32 ≤ lo)
  else decide (lo + wd ≤ 32)

/-- The value a write gives a field, where it covers the field whole (R566). -/
def wget (w : RegWrite) (f : Field) : Option Nat :=
  if covers w f.lo f.width then some (bitsOf (wvalue w) f.lo f.width) else none

/-- The field's value after a write: the value written, or the present one where it is not covered. -/
def wgetD (w : RegWrite) (f : Field) (d : Nat) : Nat := (wget w f).getD d

/-- A BAR0 access other than a shadow read discards the shadow (R570). -/
def dropShadow (s : State) : State := { s with host := { s.host with shadow := none } }

/-! ### Ring pairs (R578 to R581) -/

/-- A ring pair is enabled. -/
def ringEnabled (s : State) (r : Nat) : Bool := fldAt s Reg.TOP_RING_CFG.enable [r] = 1

/-- Read posted entries in ring order, one for each completion slot that can be reserved (R579, R580). -/
def readEntries (s : State) (r : Nat) : State :=
  let x := ringOf s r
  if ringEnabled s r && !x.fault && !s.host.inReset then
    let avail := ringUsed (sqSize s r) x.sqHead x.sqTail
    let free := cqSize s r - 1 - (cqUsed s r + x.reserved)
    let k := Nat.min avail free
    setRing s r { x with sqHead := (x.sqHead + k) % sqSize s r, reserved := x.reserved + k,
                         outstanding := x.outstanding + k, unstarted := x.unstarted + k }
  else s

/-- The faults of R575 in a doorbell's value and size. -/
def doorbellMalformed (off size value : Nat) : Bool :=
  (size = 4 && decide (off % 8 = 4)) || decide (value % 2 ^ (8 * size) ≥ 2 ^ 16) || !(size = 4 || size = 8)

/-- Submission tail of ring pair `r` (R575, R579). -/
def tailDoorbell (s : State) (r off size value : Nat) : State :=
  if doorbellMalformed off size value then badAccess s off true true
  else if !ringEnabled s r then s
  else if sqSize s r ≤ value then badAccess s off true true
  else readEntries (setRing s r { ringOf s r with sqTail := value }) r

/-- Send a ring pair's vector where it is armed and due. -/
def ringIrq (s : State) (r : Nat) : State :=
  let x := ringOf s r
  if irqDue x.armed (fldAt s Reg.TOP_RING_CFG.irq_count [r]) (cqUsed s r) then
    sendVector (setRing s r { x with armed := false, unsignalled := 0 }) (fldAt s Reg.TOP_RING_CFG.vector [r])
  else s

/-- Completion head of ring pair `r`: releases entries, re-arms, lets reading resume (R580, R581, R584). -/
def cqHeadDoorbell (s : State) (r off size value : Nat) : State :=
  if doorbellMalformed off size value then badAccess s off true true
  else if !ringEnabled s r then s
  else
    let x := ringOf s r
    if cqSize s r ≤ value || decide (cqUsed s r < ringUsed (cqSize s r) x.cqHead value) then
      badAccess s off true true
    else
      let s := setRing s r { x with cqHead := value, armed := true }
      readEntries (ringIrq s r) r

/-! ### Output rings (R582) -/

/-- The engine of output ring `o`. -/
def oringOf (s : State) (o : Nat) : ORing := tget {} s.host.orings o

/-- Replace the engine of output ring `o`. -/
def setORing (s : State) (o : Nat) (x : ORing) : State :=
  { s with host := { s.host with orings := tset s.host.orings o x } }

/-- Entries of output ring `o`. -/
def orSize (s : State) (o : Nat) : Nat := 2 ^ fldAt s Reg.TOP_ORING_CFG.log2 [o]

/-- Whether output ring `o`, of kind `kind`, can take an entry now. -/
def orRoom (s : State) (o kind : Nat) : Bool :=
  fldAt s Reg.TOP_ORING_CFG.enable [o] = 1 && fldAt s Reg.TOP_ORING_CFG.kind [o] = kind &&
    !(oringOf s o).fault && !s.host.inReset &&
    decide (ringUsed (orSize s o) (oringOf s o).head (oringOf s o).tail + 1 < orSize s o)

/-- Account for one entry written to output ring `o`: tail, phase toggle at the wrap, interrupt. -/
def advanceORing (s : State) (o : Nat) : State :=
  let e := oringOf s o
  let size := orSize s o
  let tail := (e.tail + 1) % size
  let e := { e with tail := tail, posted := wrapAdd 32 e.posted 1,
                    phase := if tail = 0 then !e.phase else e.phase, unsignalled := e.unsignalled + 1 }
  if irqDue e.armed (fldAt s Reg.TOP_ORING_CFG.irq_count [o]) (ringUsed size e.head tail) then
    sendVector (setORing s o { e with armed := false, unsignalled := 0 }) (fldAt s Reg.TOP_ORING_CFG.vector [o])
  else setORing s o e

/-- Whether the output ring of a session can take a chunk: a promoted session waits for
SES_SHADOW_RING.valid. -/
def chunkRoom (s : State) (x : Session) : Bool :=
  orRoom s x.outRing 0 && (!x.promoted || flag s Reg.SES_SHADOW_RING.valid)

/-- Write one chunk to its stream ring. -/
def writeChunk (s : State) (o : Nat) (c : Chunk) : State :=
  advanceORing (emit s (.chunk o { c with phase := (oringOf s o).phase })) o

/-- Post a chunk of a session: written, or held behind those held; a session that reaches chunk_hold stalls
and STREAM_STALL is posted once (R117). -/
def postChunk (s : State) (h : Nat) (c : Chunk) : State :=
  match sessOf s h with
  | none => s
  | some x =>
    if x.heldChunks.isEmpty && chunkRoom s x then writeChunk s x.outRing { c with time := s.timebase }
    else
      let held := x.heldChunks ++ [{ c with time := s.timebase }]
      let stall := decide (fld s Reg.SES_CFG.chunk_hold ≤ held.length)
      let s := setSess s { x with heldChunks := held, stalled := stall }
      if stall && !x.stalled then report s 0x0302 (hSerial h) 0 [h] else s

/-- Write held chunks of one session while its ring has room; `fuel` bounds the count. -/
def drainSess : Nat → State → Nat → State
  | 0, s, _ => s
  | n + 1, s, h =>
    match sessOf s h with
    | none => s
    | some x =>
      match x.heldChunks with
      | [] => s
      | c :: rest =>
        if chunkRoom s x then
          let s := setSess s { x with heldChunks := rest,
                                      stalled := decide (fld s Reg.SES_CFG.chunk_hold ≤ rest.length) }
          drainSess n (writeChunk s x.outRing c) h
        else s

/-- Write the held chunks of every session of output ring `o`. -/
def drainRing (s : State) (o : Nat) : State :=
  s.sess.table.foldl (fun s p => if p.2.outRing = o then drainSess p.2.heldChunks.length s p.2.handle else s) s

/-- Post held event records while the ring has room; EVT_OVERFLOW follows once it has room again (R583). -/
def drainEvents : Nat → State → State
  | 0, s => s
  | n + 1, s =>
    match s.events.held with
    | [] => s
    | r :: rest =>
      if evtRoom s then drainEvents n (writeEvent { s with events := { s.events with held := rest } } r) else s

/-- After the event ring gained room: held records, then the overflow record. -/
def flushEvents (s : State) : State :=
  let s := drainEvents s.events.held.length s
  if evtRoom s && decide (0 < s.events.displaced + s.events.dropped) then
    let d := s.events.displaced
    let p := s.events.dropped
    report { s with events := { s.events with displaced := 0, dropped := 0 } } 0x0003 0 0 [d, p]
  else s

/-- Head of output ring `o`: releases entries, re-arms, lets held entries be written (R581). -/
def oringHeadDoorbell (s : State) (o off size value : Nat) : State :=
  if doorbellMalformed off size value then badAccess s off true true
  else if fldAt s Reg.TOP_ORING_CFG.enable [o] = 0 then s
  else
    let x := oringOf s o
    if orSize s o ≤ value || decide (ringUsed (orSize s o) x.head x.tail < ringUsed (orSize s o) x.head value) then
      badAccess s off true true
    else
      let s := setORing s o { x with head := value, armed := true }
      let x := oringOf s o
      let s := if irqDue x.armed (fldAt s Reg.TOP_ORING_CFG.irq_count [o]) (ringUsed (orSize s o) x.head x.tail) then
          sendVector (setORing s o { x with armed := false, unsignalled := 0 })
            (fldAt s Reg.TOP_ORING_CFG.vector [o])
        else s
      drainRing s o

/-- Head of the event ring. -/
def evtHeadDoorbell (s : State) (off size value : Nat) : State :=
  if doorbellMalformed off size value then badAccess s off true true
  else if fld s Reg.TOP_EVT_CFG.enable = 0 then s
  else
    let x := s.host.evtRing
    if evtSize s ≤ value || decide (ringUsed (evtSize s) x.head x.tail < ringUsed (evtSize s) x.head value) then
      badAccess s off true true
    else
      let x := { x with head := value, armed := true }
      let s := { s with host := { s.host with evtRing := x } }
      let s := if irqDue x.armed (fld s Reg.TOP_EVT_CFG.irq_count) (ringUsed (evtSize s) x.head x.tail) then
          sendVector { s with host := { s.host with evtRing := { x with armed := false, unsignalled := 0 } } }
            (fld s Reg.TOP_EVT_CFG.vector)
        else s
      flushEvents s

/-- SUBMISSION_TAIL_DOORBELL (R579). -/
def execSubmissionTail (r size value : Nat) (s : State) : Host.Outcome State Fault Refusal :=
  run s (hostAccess fun s => tailDoorbell s r (r * 0x1000) size value)

/-- COMPLETION_HEAD_DOORBELL (R581). -/
def execCompletionHead (r size value : Nat) (s : State) : Host.Outcome State Fault Refusal :=
  run s (hostAccess fun s => cqHeadDoorbell s r (r * 0x1000 + 8) size value)

/-- OUTPUT_RING_HEAD_DOORBELL (R581). -/
def execOutputHead (o size value : Nat) (s : State) : Host.Outcome State Fault Refusal :=
  run s (hostAccess fun s => oringHeadDoorbell s o (0x400000 + o * 0x1000) size value)

/-- EVENT_RING_HEAD_DOORBELL (R583). -/
def execEventHead (size value : Nat) (s : State) : Host.Outcome State Fault Refusal :=
  run s (hostAccess fun s => evtHeadDoorbell s 0x800000 size value)

/-- A BAR2 write at any offset (R575): the doorbell it names; reserved addresses are ignored. -/
def bar2Write (s : State) (off size value : Nat) : State :=
  let page := off / 0x1000
  let low := off % 0x1000
  if off < 0x400000 then
    if low / 8 = 0 then tailDoorbell s page off size value
    else if low / 8 = 1 then cqHeadDoorbell s page off size value
    else s
  else if off < 0x800000 then
    if low / 8 = 0 then oringHeadDoorbell s (page - 0x400) off size value else s
  else if off / 8 = 0x100000 then evtHeadDoorbell s off size value
  else s

/-- BAD_DOORBELL (R575): a malformed or out-of-range write is ignored and counted. -/
def execBadDoorbell (off size value : Nat) (s : State) : Host.Outcome State Fault Refusal :=
  run s (hostAccess fun s => bar2Write s off size value)

/-! ### Interrupt timer, ring faults, ring configuration -/

/-- IRQ_COALESCE_TIMER (R584): the oldest unsignalled entry of an armed ring is older than irq_us. -/
def execIrqTimer (ring : RingId) (s : State) : Host.Outcome State Fault Refusal :=
  run s (whenUp fun s =>
    match ring with
    | .pair r =>
      let x := ringOf s r
      if x.armed && decide (0 < x.unsignalled) && decide (0 < cqUsed s r) &&
          decide (0 < fldAt s Reg.TOP_RING_CFG.irq_count [r]) then
        sendVector (setRing s r { x with armed := false, unsignalled := 0 }) (fldAt s Reg.TOP_RING_CFG.vector [r])
      else s
    | .out o =>
      let x := oringOf s o
      if x.armed && decide (0 < x.unsignalled) && decide (0 < ringUsed (orSize s o) x.head x.tail) &&
          decide (0 < fldAt s Reg.TOP_ORING_CFG.irq_count [o]) then
        sendVector (setORing s o { x with armed := false, unsignalled := 0 })
          (fldAt s Reg.TOP_ORING_CFG.vector [o])
      else s
    | .evt =>
      let x := s.host.evtRing
      if x.armed && decide (0 < x.unsignalled) && decide (0 < ringUsed (evtSize s) x.head x.tail) &&
          decide (0 < fld s Reg.TOP_EVT_CFG.irq_count) then
        sendVector { s with host := { s.host with evtRing := { x with armed := false, unsignalled := 0 } } }
          (fld s Reg.TOP_EVT_CFG.vector)
      else s)

/-- RING_ACCESS_FAULT (R585): the fault bit, RING_FAULT with kind, number and PCIe status, the cause bit. -/
def execRingFault (ring : RingId) (pcie : Nat) (s : State) : Host.Outcome State Fault Refusal :=
  run s (whenUp fun s =>
    let (s, kind, num) := match ring with
      | .pair r => (setRing s r { ringOf s r with fault := true }, 0, r)
      | .out o => (setORing s o { oringOf s o with fault := true }, 1, o)
      | .evt => ({ s with host := { s.host with evtRing := { s.host.evtRing with fault := true } } }, 2, 0)
    raiseCause (report s 0x0002 num 0 [kind, num, pcie]) 2)

/-- Write the completions a faulted ring pair held, in order. -/
def releaseHeld : List Completion → State → State
  | [], s => s
  | c :: t, s => releaseHeld t (writeCompletion s c)

/-- Store each covered field of a list from a write. -/
def storeFields (s : State) (w : RegWrite) (is : List Nat) (fs : List Field) : State :=
  fs.foldl (fun s f => match wget w f with | some v => setFldAt s f is v | none => s) s

/-- Clear a ring pair's fault: it resumes at its indices and writes the held completions (R585). -/
def clearRingFault (s : State) (r : Nat) : State :=
  let x := ringOf s r
  if x.fault then readEntries (releaseHeld x.held (setRing s r { x with fault := false, held := [] })) r else s

/-- A write of TOP_RING_CFG of pair `r` (R578, R585, R586). -/
def ringCfgWrite (s : State) (r : Nat) (w : RegWrite) : State :=
  let on := ringEnabled s r
  let sz := wgetD w Reg.TOP_RING_CFG.sq_log2 (fldAt s Reg.TOP_RING_CFG.sq_log2 [r])
  let cz := wgetD w Reg.TOP_RING_CFG.cq_log2 (fldAt s Reg.TOP_RING_CFG.cq_log2 [r])
  let en := wgetD w Reg.TOP_RING_CFG.enable (b2n on)
  if en = 1 && !on && !(decide (4 ≤ sz) && decide (sz ≤ cz) && decide (cz ≤ 16)) then s
  else
    let s := storeFields s w [r] [Reg.TOP_RING_CFG.vector, Reg.TOP_RING_CFG.irq_count, Reg.TOP_RING_CFG.irq_us]
    let s := if on then s else storeFields s w [r] [Reg.TOP_RING_CFG.sq_log2, Reg.TOP_RING_CFG.cq_log2]
    let s := setFldAt s Reg.TOP_RING_CFG.enable [r] en
    let s := if en = 1 && !on then
        setRing s r { ringOf s r with sqHead := 0, sqTail := 0, cqTail := 0, cqHead := 0, phase := true,
                                      armed := true, unsignalled := 0 }
      else s
    if wget w Reg.TOP_RING_CFG.fault = some 1 then clearRingFault s r else s

/-- TOP_RING_CFG_WRITE. -/
def execRingCfg (r : Nat) (w : RegWrite) (s : State) : Host.Outcome State Fault Refusal :=
  run s (hostAccess fun s => ringCfgWrite (dropShadow s) r w)

/-- A write of TOP_ORING_CFG of output ring `o` (R582, R585, R586). -/
def oringCfgWrite (s : State) (o : Nat) (w : RegWrite) : State :=
  let on := fldAt s Reg.TOP_ORING_CFG.enable [o] = 1
  let sz := wgetD w Reg.TOP_ORING_CFG.log2 (fldAt s Reg.TOP_ORING_CFG.log2 [o])
  let en := wgetD w Reg.TOP_ORING_CFG.enable (fldAt s Reg.TOP_ORING_CFG.enable [o])
  if en = 1 && !on && !(decide (4 ≤ sz) && decide (sz ≤ 16)) then s
  else
    let s := storeFields s w [o] [Reg.TOP_ORING_CFG.kind, Reg.TOP_ORING_CFG.vector, Reg.TOP_ORING_CFG.irq_count,
      Reg.TOP_ORING_CFG.irq_us]
    let s := if on then s else storeFields s w [o] [Reg.TOP_ORING_CFG.log2]
    let s := setFldAt s Reg.TOP_ORING_CFG.enable [o] en
    let s := if en = 1 && !on then setORing s o {} else s
    let s := if wget w Reg.TOP_ORING_CFG.fault = some 1 then setORing s o { oringOf s o with fault := false } else s
    drainRing s o

/-- A write of the event ring's configuration (R583): its kind is fixed. -/
def evtCfgWrite (s : State) (w : RegWrite) : State :=
  let on := fld s Reg.TOP_EVT_CFG.enable = 1
  let sz := wgetD w Reg.TOP_EVT_CFG.log2 (fld s Reg.TOP_EVT_CFG.log2)
  let en := wgetD w Reg.TOP_EVT_CFG.enable (fld s Reg.TOP_EVT_CFG.enable)
  if en = 1 && !on && !(decide (4 ≤ sz) && decide (sz ≤ 16)) then s
  else
    let s := storeFields s w [] [Reg.TOP_EVT_CFG.vector, Reg.TOP_EVT_CFG.irq_count, Reg.TOP_EVT_CFG.irq_us]
    let s := if on then s else storeFields s w [] [Reg.TOP_EVT_CFG.log2]
    let s := setFld s Reg.TOP_EVT_CFG.enable en
    let s := if en = 1 && !on then
        { s with host := { s.host with evtRing := {} }, events := { s.events with setUp := true } }
      else s
    let s := if wget w Reg.TOP_EVT_CFG.fault = some 1 then
        { s with host := { s.host with evtRing := { s.host.evtRing with fault := false } } }
      else s
    flushEvents s

/-- TOP_ORING_CFG_WRITE: output ring `o`, or the event ring. -/
def execORingCfg (o : Option Nat) (w : RegWrite) (s : State) : Host.Outcome State Fault Refusal :=
  run s (hostAccess fun s =>
    match o with
    | some o => oringCfgWrite (dropShadow s) o w
    | none => evtCfgWrite (dropShadow s) w)

/-! ### Event aggregation and allowances (R508, R509) -/

/-- COALESCE_WINDOW_CLOSE: a window that closes with a count of 2 or more posts its summary; the entry is
freed. -/
def execWindowClose (source code epoch : Nat) (s : State) : Host.Outcome State Fault Refusal :=
  run s (whenUp fun s =>
    let same (a : AggEntry) : Bool := a.source = source && a.code = code && a.epoch = epoch
    match s.events.agg.find? same with
    | none => s
    | some a =>
      let s := { s with events := { s.events with agg := dropFirst same s.events.agg } }
      if 2 ≤ a.count then postRecord s (summaryOf a false) else s)

/-- One millisecond of allowance for a class: a thousandth of its rate, up to one second's worth. -/
def addAllowance (rate have_ : Nat) : Nat := Nat.min (have_ + rate) (rate * 1000)

/-- EVENT_ALLOWANCE_TICK. -/
def execAllowanceTick (s : State) : Host.Outcome State Fault Refusal :=
  run s (whenUp fun s =>
    { s with events := { s.events with
        allow1 := addAllowance (fld s Reg.EVT_RATE.c1) s.events.allow1
        allow2 := addAllowance (fld s Reg.EVT_RATE.c2) s.events.allow2
        allow3 := addAllowance (fld s Reg.EVT_RATE.c3) s.events.allow3 } })

end Sys2Proof.Machine
end

