-- ==== Sys2Proof/Machine/Parts.lean ====
section
/-! DEFINITION. What the parts of the family populate (R2, R4) and the capability word (R53 to R55). -/
namespace Sys2Proof.Machine

/-- Attic stacks populated (R2). -/
def partStacks : Part → List Nat
  | .rb4808 => [0, 1, 3, 4]
  | _ => [0, 1, 2, 3, 4, 5]

/-- Dense tiles populated (R2). -/
def partTiles : Part → List Nat
  | .rb4816 => List.range 32
  | .rb4812 => [0, 1, 2, 3, 4, 5, 6, 7, 16, 17, 18, 19, 20, 21, 22, 23]
  | .rb4808 => []

/-- Native links populated (R2). -/
def partLinks : Part → Nat
  | .rb4816 => 48 | .rb4812 => 36 | .rb4808 => 24

/-- Link bays populated (R2). -/
def partBays : Part → Nat
  | .rb4816 => 6 | .rb4812 => 5 | .rb4808 => 3

/-- A port is populated (R2): native links 0 to 47, Ethernet port p as 48 + p. -/
def portPresent (p : Part) (port : Nat) : Bool := if port < 48 then decide (port < partLinks p) else decide ((port - 48) / 2 < partBays p)

/-- Store-room channels populated (R2). -/
def partChannels : Part → Nat
  | .rb4808 => 8 | _ => 16

/-- Whether the vector search walker is populated (R2). -/
def partWalker : Part → Bool
  | .rb4816 => true | _ => false

/-- The half a tile lies on (R2). -/
def tileHalf (t : Nat) : Nat := t / 16

/-- Tiles that can run commands: populated and not failed (R238). -/
def usableTiles (s : State) : List Nat :=
  (partTiles s.part).filter fun t => !bitOf (fld s Reg.DEN_TILES.failed) t

/-- Roles of kind `k` in table order. -/
def rolesOf (s : State) (k : Nat) : List Role := s.lay.active.roles.filter (·.kind = k)

/-- The delegate of R3. -/
def delegateOf (s : State) : Option Role := (rolesOf s 5).head?

/-- Stacks in force: enabled by the ATTIC section. -/
def liveStacks (s : State) : List Nat :=
  (partStacks s.part).filter fun k => bitOf s.lay.active.attic.stackMask k

/-- A cellar drive is usable (R54, R55): not lost. -/
def nvmeUsable (s : State) : Bool := s.tier.targets.any fun t => !t.remote && !t.lost

/-- Whether a bay is in the Ethernet personality. -/
def ethBay (s : State) : Bool := s.lay.active.bays.any (·.personality = 2)

/-- Bits 19:0 of the capability word (R53, R54). -/
def capBits (s : State) : Nat :=
  if s.lay.active.builtin then 0
  else maskOf ([2, 3, 5, 6, 7, 8, 9, 10, 11, 15, 16, 17, 18, 19]
    ++ (if (usableTiles s).isEmpty then [] else [0])
    ++ (if (partTiles s.part).isEmpty && (delegateOf s).isSome then [1] else [])
    ++ (if partWalker s.part && decide (0 < s.lay.active.attic.vsrKib) then [4] else [])
    ++ (if nvmeUsable s then [12] else [])
    ++ (if (rolesOf s 4).isEmpty then [] else [13])
    ++ (if ethBay s then [14] else []))

/-- The capability word. -/
def capWord (s : State) : Nat := capBits s + 0x01 * 2 ^ 48 + 0x03 * 2 ^ 56

/-- Whether capability bit `b` is 1. -/
def hasCap (s : State) (b : Nat) : Bool := bitOf (capBits s) b

/-- Post CAP_CHANGED where the word differs from the one last reported (R55). -/
def noteCap (s : State) : State :=
  let w := capWord s
  if w = s.capSeen then s else report { s with capSeen := w } 0x0001 0 0 [s.capSeen, w]

/-! ### Attestation (R537, R538) -/

/-- A measured item has changed: meas_gen rises, MEAS_CHANGED is posted while meas_evt is 1. -/
def measChanged (s : State) (index : Nat) : State :=
  let s := { s with sec := { s.sec with measGen := s.sec.measGen + 1 } }
  if flag s Reg.SEC_CFG.meas_evt then report s 0x1703 index 0 [index, s.sec.measGen] else s

/-- Set a sticky bit of the security state. -/
def setSticky (s : State) (b : Nat) : State :=
  if s.sec.sticky.contains b then s else measChanged { s with sec := { s.sec with sticky := s.sec.sticky ++ [b] } } 27

/-- Layers of a context that this controller hosts: kind-1 roles that name this device (R74, R101). -/
def hostsLayer (s : State) (l : Nat) : Bool :=
  (rolesOf s 1).any fun r => r.device = s.device && decide (bitsOf r.key 0 8 ≤ l) && decide (l ≤ bitsOf r.key 8 8)

/-- The kind-1 role that hosts a layer. -/
def layerRole (s : State) (l : Nat) : Option Role :=
  (rolesOf s 1).find? fun r => decide (bitsOf r.key 0 8 ≤ l) && decide (l ≤ bitsOf r.key 8 8)

/-- The claim in force for a layer and a serial (R492), the newest first. -/
def claimFor (s : State) (serial l : Nat) : Option Claim :=
  s.mir.claims.reverse.find? fun c => decide (c.first ≤ l) && decide (l ≤ c.lastLayer) && decide (0 < c.m) && serial % c.m = c.i

/-- Device and epoch that serve a layer for the sessions of a serial: the claimer, or the kind-1 role (R492). -/
def layerHost (s : State) (serial l : Nat) : Option (Nat × Nat) :=
  match claimFor s serial l with
  | some c => some (c.claimer, c.epoch)
  | none => (layerRole s l).map fun r => (r.device, r.epoch)

/-- Whether this controller serves a layer for the sessions of a serial. -/
def servesLayer (s : State) (serial l : Nat) : Bool :=
  match layerHost s serial l with | some h => h.1 = s.device | none => false

/-- Hosted layers of a parameter block for a serial, ascending. -/
def hostedLayers (s : State) (serial : Nat) (p : Params) : List Nat :=
  (List.range p.layers.length).filter (servesLayer s serial)

/-- Devices that serve layers of a range for a serial, with their epochs, each once in layer order. -/
def rangeHosts (s : State) (serial first last : Nat) : List (Nat × Nat) :=
  ((List.range (last + 1)).filter fun l => decide (first ≤ l)).foldl (fun acc l =>
    match layerHost s serial l with
    | some h => if acc.any fun a => a.1 = h.1 then acc else acc ++ [h]
    | none => acc) []

/-- Layers of a block: the numbers of its first and last layer. -/
def lastLayer (p : Params) : Nat := p.layers.length - 1

/-- A layer entry, with no branch where the block has none. -/
def layerEntry (p : Params) (l : Nat) : LayerEntry := p.layers.getD l ⟨false, false, false, false⟩

/-- The partition a context belongs to, and its entry. -/
def partEntry (s : State) (p : Nat) : Partition := s.lay.active.partitions.getD p {}

end Sys2Proof.Machine
end

