-- ==== Sys2Proof/Machine/Crates.lean ====
section
/-! DEFINITION. Crates, slabs and strip pages: sizes and addresses (R121 to R123, R132, R178), placement (R631),
pool shares and victims (R145 to R147), holds and age (R142 to R144), the Ladder's queues (R139). -/
namespace Sys2Proof.Machine

/-! ### Sizes and layout -/

/-- Bytes of one head's 64 slots in a section (R122). -/
def sectionBytes (bx16 : Bool) (dim : Nat) : Nat := 64 * (dim / 16) * groupBytes bx16

/-- Bytes of the centroid annex (R123): 0 where the header holds the centroids. -/
def annexBytes (heads dim : Nat) : Nat := if heads * dim ≤ 3840 then 0 else ceilDiv (heads * dim) 4096 * 4096

/-- body_len of a crate (R121, R123). -/
def bodyLen (bx16 : Bool) (heads dim : Nat) : Nat := 2 * heads * sectionBytes bx16 dim + annexBytes heads dim

/-- Bytes of a whole crate copy. -/
def crateBytes (bx16 : Bool) (heads dim : Nat) : Nat := 4096 + bodyLen bx16 heads dim

/-- Bytes of a strip page (R178). -/
def stripBytes (heads dim : Nat) : Nat := 64 * heads * dim

/-- Pages of 4 KiB. -/
def pagesOf (bytes : Nat) : Nat := ceilDiv bytes 4096

/-- Offset of group `j` of slot `t` of head `h`, K (0) or V (1), in a crate copy (R122). -/
def groupOffset (bx16 : Bool) (heads dim kv h t j : Nat) : Nat :=
  4096 + ((kv * heads + h) * 64 + t) * (dim / 16) * groupBytes bx16 + j * groupBytes bx16

/-- Offset of centroid group `j` of head `h` in a crate copy (R123). -/
def centroidOffset (bx16 : Bool) (heads dim h j : Nat) : Nat :=
  (if heads * dim ≤ 3840 then 0x100 else 4096 + 2 * heads * sectionBytes bx16 dim) + h * dim + 16 * j

/-- The slab size Z of a parameter block (R161). -/
def slabSize (p : Params) : Nat := ceilDiv (8 * p.ssmHeads * p.ssmP * p.ssmN) 8192 * 8192

/-- The least power of two for which Z / p is at most slab_kib (R132). -/
def slabSpan (z slabKib : Nat) : Nat :=
  match (List.range 24).find? fun k => decide (z ≤ 2 ^ k * slabKib * 1024) with
  | some k => 2 ^ k
  | none => 2 ^ 24

/-- Bytes of one bank pair. -/
def bankPair : Nat := 2 ^ 23

/-- Byte offset of the slab pool in a bank pair: the pools lie in the order of the ATTIC section (DEDUCED). -/
def slabPoolBase (s : State) : Nat := s.lay.active.attic.crateKib * 1024

/-- The attic address of byte `o` of an object (R132, R136). -/
def objAddr (s : State) (o : Obj) (b : Nat) : Nat :=
  if o.kind = .slab then
    (o.nbu + b / 4096 % o.span) * bankPair + slabPoolBase s + o.page * 4096 + b / (4096 * o.span) * 4096 + b % 4096
  else o.nbu * bankPair + o.page * 4096 + b

/-- The object's byte offset that an attic address holds, where it holds one. -/
def objOffset (s : State) (o : Obj) (a : Nat) : Option Nat :=
  let n := a / bankPair
  let off := a % bankPair
  if o.kind = .slab then
    let base := slabPoolBase s + o.page * 4096
    if o.nbu ≤ n ∧ n < o.nbu + o.span ∧ base ≤ off ∧ off < base + o.size / o.span then
      some (((off - base) / 4096 * o.span + (n - o.nbu)) * 4096 + (off - base) % 4096)
    else none
  else if n = o.nbu ∧ o.page * 4096 ≤ off ∧ off < o.page * 4096 + o.size then some (off - o.page * 4096) else none

/-- The bytes of the object's attic copy, from its start. -/
def objBytes (s : State) (o : Obj) : Mem :=
  sortBy (fun a b => decide (a.1 < b.1)) (s.nbu.attic.filterMap fun c => (objOffset s o c.1).map fun b => (b, c.2))

/-- The stored form of an object: a slab stores its active buffer (R133). -/
def storedBytes (s : State) (o : Obj) : Mem :=
  let m := objBytes s o
  if o.kind = .slab then memRange m (o.active * (o.size / 2)) (o.size / 2) else m

/-- Bytes moved by a copy of the object between tiers (R133, R136). -/
def movedBytes (o : Obj) : Nat := if o.kind = .slab then o.size / 2 + 4096 else o.size

/-- Forget an object's attic bytes. -/
def wipeAttic (s : State) (o : Obj) : State :=
  { s with nbu := { s.nbu with attic := s.nbu.attic.filter fun c => (objOffset s o c.1).isNone } }

/-- Write a stored copy into the attic at the object's place; a slab's into buffer 0 (R133). -/
def placeBytes (s : State) (o : Obj) (m : Mem) : State :=
  let s := wipeAttic s o
  { s with nbu := { s.nbu with attic := m.foldl (fun a c => writeByte a (objAddr s o c.1) c.2) s.nbu.attic } }

/-- Write bytes of an object in the attic from offset `b` on. -/
def writeObj (s : State) (o : Obj) (b : Nat) (data : List Nat) : State :=
  let a := data.zipIdx.foldl (fun a x => writeByte a (objAddr s o (b + x.2)) (BitVec.ofNat 8 x.1)) s.nbu.attic
  { s with nbu := { s.nbu with attic := a } }

/-- Read `n` bytes of an object in the attic. -/
def readObj (s : State) (o : Obj) (b n : Nat) : List Nat :=
  (List.range n).map fun i => (readByte s.nbu.attic (objAddr s o (b + i))).toNat

/-! ### The object table -/

/-- The object of a number. -/
def objOf (s : State) (id : Nat) : Option Obj := tget? s.tier.objs id
/-- Store an object. -/
def setObj (s : State) (id : Nat) (o : Obj) : State := { s with tier := { s.tier with objs := tset s.tier.objs id o } }
/-- Update an object that exists. -/
def modObj (s : State) (id : Nat) (f : Obj → Obj) : State :=
  { s with tier := { s.tier with objs := tmodIf s.tier.objs id f } }

/-- The map key of a session's crate (kind 0), slab (1) or strip page (2). -/
def mapKey (hk kind layer index : Nat) : Nat := ((hk * 4 + kind) * 256 + layer) * 65536 + index

/-- The number of an object kind in map keys. -/
def ObjKind.num : ObjKind → Nat
  | .crate => 0 | .slab => 1 | .strip => 2

/-- The object a session's map names. -/
def mapped (s : State) (hk : Nat) (k : ObjKind) (layer index : Nat) : Option Nat :=
  tget? s.tier.map (mapKey hk k.num layer index)

/-- Every object of a session with its layer and index, by kind, in ascending order. -/
def mappedAll (s : State) (hk : Nat) (k : ObjKind) : List (Nat × Nat × Nat) :=
  (s.tier.map.filter fun e => e.1 / (65536 * 256) = hk * 4 + k.num).map fun e =>
    (e.1 / 65536 % 256, e.1 % 65536, e.2)

/-- Crates of a session in a layer, as (index, object). -/
def layerCrates (s : State) (hk layer : Nat) : List (Nat × Nat) :=
  ((mappedAll s hk .crate).filter (·.1 = layer)).map (·.2)

/-- Every object number of a session. -/
def sessObjs (s : State) (hk : Nat) : List Nat :=
  ((mappedAll s hk .crate) ++ (mappedAll s hk .slab) ++ (mappedAll s hk .strip)).map (·.2.2)

/-- The header bytes of a crate (R121). -/
def headerBytes (o : Obj) : List Nat :=
  leBytes 8 (o.index % 2 ^ 16 + o.layer % 2 ^ 8 * 2 ^ 16 + o.creator % 2 ^ 27 * 2 ^ 24) ++
    [if o.bx16 then 2 else 1, o.heads, if o.dim = 64 then 0 else if o.dim = 128 then 1 else 2,
     b2n o.shared + 2 * b2n o.poison + 4 * b2n (decide (0 < annexBytes o.heads o.dim)) + 8 * b2n o.copy, o.valid, o.pending] ++
    leBytes 2 o.ctx ++ leBytes 4 (bodyLen o.bx16 o.heads o.dim) ++ leBytes 4 o.step ++ leBytes 4 o.crc ++ [0, 0, 0, 0] ++
    leBytes 8 o.tCommit ++ leBytes 8 o.srcId

/-- Store an object and, for a crate in the attic, its header bytes. -/
def putObj (s : State) (id : Nat) (o : Obj) : State :=
  let s := setObj s id o
  if o.kind = .crate && o.attic then writeObj s o 0 (headerBytes o) else s

/-! ### Placement (R16, R631) -/

/-- The stacks listed for placement, of one half where asked. -/
def placeStacks (s : State) (mask half : Nat) : List Nat :=
  (liveStacks s).filter fun k => bitOf mask k && (half = 0 || k / 3 + 1 = half)

/-- The NBU at list position `(start + c) mod count` of a stack list (R631). -/
def placeOn (among : List Nat) (seed serial layer c : Nat) : Option Nat :=
  let count := 1024 * among.length
  if count = 0 then none
  else
    let h := crc32c (leBytes 4 serial ++ leBytes 4 layer ++ leBytes 8 seed)
    let p := (h + c) % count
    some (among.getD (p / 1024) 0 * 1024 + p % 1024)

/-- Whether an object occupies crate-pool pages of an NBU. -/
def inCratePool (o : Obj) : Bool := o.attic && o.kind ≠ .slab

/-- Crate-pool pages of one bank pair. -/
def cratePagesPer (s : State) : Nat := s.lay.active.attic.crateKib / 4
/-- Slab-pool pages of one bank pair. -/
def slabPagesPer (s : State) : Nat := s.lay.active.attic.slabKib / 4
/-- Enabled bank pairs. -/
def bankPairs (s : State) : Nat := 1024 * (liveStacks s).length

/-- Pages of the whole pool that a kind of object lies in. -/
def poolPages (s : State) (slab : Bool) : Nat := bankPairs s * (if slab then slabPagesPer s else cratePagesPer s)

/-- Objects with an attic copy in a pool. -/
def poolObjs (s : State) (slab : Bool) : List (Nat × Obj) :=
  s.tier.objs.filter fun p => p.2.attic && (p.2.kind = .slab) = slab

/-- Pages of a pool in use. -/
def poolUsed (s : State) (slab : Bool) : Nat := sumOf ((poolObjs s slab).map (·.2.pages))

/-- A partition's reserved share of a pool (R145). -/
def poolShare (s : State) (slab : Bool) (p : Nat) : Nat := poolPages s slab * (partEntry s p).atticShare / 1000

/-- Pages of a partition's reserved share in use. -/
def shareUsed (s : State) (slab : Bool) (p : Nat) : Nat :=
  sumOf (((poolObjs s slab).filter fun x => x.2.inShare && x.2.partition = p).map (·.2.pages))

/-- Pages of the shared pool: what the enabled partitions do not reserve. -/
def sharedPages (s : State) (slab : Bool) : Nat :=
  poolPages s slab - sumOf ((List.range s.lay.active.partitions.length).map fun p =>
    if (partEntry s p).enable then poolShare s slab p else 0)

/-- Pages of the shared pool in use. -/
def sharedUsed (s : State) (slab : Bool) : Nat :=
  sumOf (((poolObjs s slab).filter fun x => !x.2.inShare).map (·.2.pages))

/-- The crate pools of a half hold no free page. -/
def halfFull (s : State) (half : Nat) : Bool :=
  let used := sumOf (((poolObjs s false).filter fun x => x.2.nbu / 3072 + 1 = half).map (·.2.pages))
  decide (1024 * (placeStacks s 63 half).length * cratePagesPer s ≤ used)

/-- The NBU of crate `c` of a layer of a session (R631); strip page k is placed as crate 64 k (R179). -/
def placeNbu (s : State) (partition serial layer c : Nat) : Option Nat :=
  let pl := s.lay.active.placement
  let aff := (partEntry s partition).affinity
  if pl.spread = 1 && (aff = 1 || aff = 2) then
    let half := if halfFull s aff then 3 - aff else aff
    placeOn (placeStacks s pl.crateStacks half) pl.seed serial layer c
  else placeOn (placeStacks s pl.crateStacks 0) pl.seed serial layer c

/-- Page intervals in use on a bank pair, in one pool. -/
def usedRuns (s : State) (slab : Bool) (n : Nat) : List (Nat × Nat) :=
  (poolObjs s slab).filterMap fun x =>
    let o := x.2
    if slab then (if o.nbu ≤ n && decide (n < o.nbu + o.span) then some (o.page, o.pages / o.span) else none)
    else if o.nbu = n then some (o.page, o.pages) else none

/-- Two page runs do not overlap. -/
def runsApart (a n : Nat) (r : Nat × Nat) : Bool := decide (a + n ≤ r.1) || decide (r.1 + r.2 ≤ a)

/-- The lowest free run of `n` pages of a bank pair (R136). -/
def lowestRun (used : List (Nat × Nat)) (total n : Nat) : Option Nat :=
  let cand := sortBy (fun a b => decide (a < b)) (0 :: used.map fun r => r.1 + r.2)
  cand.find? fun a => decide (a + n ≤ total) && used.all (runsApart a n)

/-- Where a slab goes: the first span of consecutive NBUs of one stack of slab_stacks whose slab pools have room
(DESIGN CHOICE: the spec does not order the spans). -/
def placeSlab (s : State) (z span : Nat) : Option (Nat × Nat) :=
  let per := pagesOf (z / span)
  (placeStacks s s.lay.active.placement.slabStacks 0).foldl (fun found k =>
    match found with
    | some x => some x
    | none => (List.range (1024 / span)).foldl (fun f i =>
        match f with
        | some x => some x
        | none =>
          let n := k * 1024 + i * span
          let used := ((List.range span).map fun d => usedRuns s true (n + d)).flatten
          (lowestRun used (slabPagesPer s) per).map fun pg => (n, pg)) none) none

/-- The outcome of looking for attic pages. -/
inductive Room where
  | at_ (nbu page : Nat) (inShare : Bool)
  | evict (victim : Nat)
  | none_
  deriving DecidableEq, Repr

/-! ### Age and victims (R145, R146) -/

/-- The age of an object (R146). -/
def objAge (s : State) (o : Obj) : Nat := Nat.min 63 ((s.timebase - o.age) / 2 ^ fld s Reg.LAD_CFG.age_unit)

/-- Victim order: greater age, then higher class number, then earlier stamp. -/
def victimFirst (s : State) (a b : Nat × Obj) : Bool :=
  let x := objAge s a.2
  let y := objAge s b.2
  if x ≠ y then decide (y < x) else if a.2.cls ≠ b.2.cls then decide (b.2.cls < a.2.cls) else decide (a.2.age < b.2.age)

/-- Objects that may be chosen: RESIDENT, held by nobody. -/
def evictable (o : Obj) : Bool := o.state = .resident && o.attic && o.holds = 0

/-- The victim for a partition in a pool, on one bank pair where asked (R145). -/
def victimFor (s : State) (slab : Bool) (p : Nat) (nbu : Option Nat) : Option Nat :=
  let c := (poolObjs s slab).filter fun x => evictable x.2 &&
    (match nbu with | some n => x.2.nbu = n | none => true)
  let pick (l : List (Nat × Obj)) : Option Nat := ((sortBy (victimFirst s) l).head?).map (·.1)
  match pick (c.filter fun x => !x.2.inShare) with
  | some v => some v
  | none => pick (c.filter fun x => x.2.inShare && x.2.partition = p)

/-- Which share has room for `n` pages: own reserve first, then the shared pool (R145). -/
def shareFor (s : State) (slab : Bool) (p n : Nat) : Option Bool :=
  if shareUsed s slab p + n ≤ poolShare s slab p then some true
  else if sharedUsed s slab + n ≤ sharedPages s slab then some false else none

/-- Room for a crate or strip page of `n` pages placed as crate `c` (R145, R631). -/
def roomFor (s : State) (p serial layer c n : Nat) : Room :=
  match placeNbu s p serial layer c with
  | none => .none_
  | some nbu =>
    match shareFor s false p n with
    | none => (match victimFor s false p none with | some v => .evict v | none => .none_)
    | some sh =>
      match lowestRun (usedRuns s false nbu) (cratePagesPer s) n with
      | some pg => .at_ nbu pg sh
      | none => (match victimFor s false p (some nbu) with | some v => .evict v | none => .none_)

/-- Room for a slab. -/
def roomForSlab (s : State) (p z : Nat) : Room :=
  let span := slabSpan z s.lay.active.attic.slabKib
  match shareFor s true p (pagesOf z) with
  | none => (match victimFor s true p none with | some v => .evict v | none => .none_)
  | some sh =>
    match placeSlab s z span with
    | some (n, pg) => .at_ n pg sh
    | none => (match victimFor s true p none with | some v => .evict v | none => .none_)

/-! ### Ladder queues (R139) -/

/-- Queue numbers in service order, from 0. -/
def qDemand (cls : Nat) : Nat := if cls = 0 then 0 else if cls = 1 then 2 else if cls = 2 then 3 else 5
/-- URGENT_SINK. -/
def qUrgent : Nat := 1
/-- PREFETCH. -/
def qPrefetch : Nat := 4
/-- WRITEBACK. -/
def qWriteback : Nat := 6
/-- AGE_SINK. -/
def qAge : Nat := 7

/-- Depth of a queue. -/
def qDepth (q : Nat) : Nat := if q = qPrefetch then 8192 else 4096

/-- The engine of a move: the half of its attic side, or of the first channel of its store-room copy. -/
def engineOf (o : Obj) : Nat :=
  if o.attic then o.nbu / 3072 else match o.lower with | some l => (if l.unit % 16 < 8 then 0 else 1) | none => 0

/-- The entries of a queue. -/
def queueOf (s : State) (engine q : Nat) : List Move := tget [] s.tier.queues (8 * engine + q)
/-- Replace a queue. -/
def setQueue (s : State) (engine q : Nat) (l : List Move) : State :=
  { s with tier := { s.tier with queues := if l.isEmpty then tdel s.tier.queues (8 * engine + q)
                                           else tset s.tier.queues (8 * engine + q) l } }

/-- Entries of one queue of both engines. -/
def queueLen (s : State) (q : Nat) : Nat := (queueOf s 0 q).length + (queueOf s 1 q).length

/-- An object has a move queued or running. -/
def hasMove (s : State) (id : Nat) : Bool :=
  s.tier.running.any (·.obj = id) || s.tier.queues.any fun q => q.2.any (·.obj = id)

/-- Drop an entry of PREFETCH or WRITEBACK: counted, and for PREFETCH reported at most once per second. -/
def dropMove (s : State) (q : Nat) : State :=
  let s := bump s Reg.LAD_FAULT.dropped
  if q ≠ qPrefetch then s
  else
    let s := { s with tier := { s.tier with dropCount := s.tier.dropCount + 1 } }
    if duePerSecond s.tier.dropAt s.timebase then
      let n := s.tier.dropCount
      report { s with tier := { s.tier with dropAt := some s.timebase, dropCount := 0 } } 0x0404 0 0 [n]
    else s

/-- Put a move into a queue of the object's engine. -/
def pushMove (s : State) (id : Nat) (o : Obj) (kind : MoveKind) (q : Nat) : State :=
  let e := engineOf o
  if (q = qPrefetch || q = qWriteback) && decide (qDepth q ≤ (queueOf s e q).length) then dropMove s q
  else
    let m : Move := { id := s.tier.nextMove, obj := id, kind := kind, cls := o.cls, partition := o.partition }
    let s := { s with tier := { s.tier with nextMove := s.tier.nextMove + 1 } }
    setQueue s e q (queueOf s e q ++ [m])

/-- Choose an object as an attic victim: its sink is queued in URGENT_SINK (R145, R147). -/
def chooseVictim (s : State) (id : Nat) : State :=
  match objOf s id with
  | some o =>
    if evictable o && decide ((queueOf s (engineOf o) qUrgent).length < qDepth qUrgent) then
      pushMove (setObj s id { o with state := .sinking }) id o .sink qUrgent
    else s
  | none => s

/-- Attic pages for an object that has none: placed, waiting for a victim, or no room. -/
def findRoom (s : State) (o : Obj) : Room :=
  if o.kind = .slab then roomForSlab s o.partition o.size
  else roomFor s o.partition (o.creator % 2 ^ 27) o.layer (if o.kind = .strip then 64 * o.index else o.index) (pagesOf o.size)

/-- The object with the pages found for it. -/
def withPages (s : State) (o : Obj) (n pg : Nat) (sh : Bool) : Obj :=
  { o with attic := true, nbu := n, page := pg, pages := pagesOf o.size, inShare := sh,
           span := if o.kind = .slab then slabSpan o.size s.lay.active.attic.slabKib else 1 }

/-- Request a raise into a queue (R151, R152): from HOME it takes pages and rises, choosing a victim where there is
no room; behind a sink it waits; otherwise nothing. -/
def requestRaise (s : State) (id q : Nat) : State :=
  match objOf s id with
  | none => s
  | some o =>
    match o.state with
    | .home =>
      match findRoom s o with
      | .at_ n pg sh =>
        let o := { withPages s o n pg sh with state := .rising }
        pushMove (setObj s id o) id o .raise q
      | .evict v => if hasMove s id then s else pushMove (chooseVictim s v) id o .raise q
      | .none_ => if hasMove s id then s else pushMove s id o .raise q
    | .sinking => setObj s id { o with raiseAfter := some (o.raiseAfter.getD q) }
    | _ => s

/-! ### References and holds -/

/-- Free an object and every copy. -/
def freeObj (s : State) (id : Nat) : State :=
  match objOf s id with
  | none => s
  | some o =>
    let s := if o.attic then wipeAttic s o else s
    { s with tier := { s.tier with objs := tdel s.tier.objs id } }

/-- Drop one reference: at zero every copy is freed, after a move in progress (R151). -/
def dropRef (s : State) (id : Nat) : State :=
  match objOf s id with
  | none => s
  | some o =>
    if 1 < o.refs then setObj s id { o with refs := o.refs - 1 }
    else if s.tier.running.any (·.obj = id) then setObj s id { o with refs := 0, doomed := true }
    else
      let s := { s with tier := { s.tier with queues :=
        (s.tier.queues.map fun q => (q.1, q.2.filter fun m => m.obj ≠ id)).filter fun q => !q.2.isEmpty } }
      freeObj s id

/-- Take one hold; a hold on a sinking object asks for a raise after the sink (R151). -/
def addHold (s : State) (q id : Nat) : State :=
  match objOf s id with
  | none => s
  | some o =>
    let o := { o with holds := o.holds + 1 }
    setObj s id (if o.state = .sinking then { o with raiseAfter := some (o.raiseAfter.getD q) } else o)

/-- Drop one hold; the last one stamps the age (R144). -/
def dropHold (s : State) (id : Nat) : State :=
  match objOf s id with
  | none => s
  | some o => setObj s id { o with holds := o.holds - 1, age := if o.holds ≤ 1 then s.timebase else o.age }

/-- Replace a list of holds by another. -/
def moveHolds (s : State) (q : Nat) (old new : List Nat) : State :=
  let s := (new.filter fun i => !old.contains i).foldl (fun s i => addHold s q i) s
  (old.filter fun i => !new.contains i).foldl dropHold s

/-- A step's read stamps the age (R144). -/
def touchObj (s : State) (id : Nat) : State := modObj s id fun o => { o with age := s.timebase }

/-- Selective mode for a session in a layer ("Full mode", R162). -/
def isSelective (s : State) (x : Session) (e : LayerEntry) : Bool :=
  !x.fullAttn && !e.full && flag s Reg.ATN_CFG.sel_enable && hasCap s 2 && decide (3 ≤ s.attached)

/-- k_sel of a block, its default where 0 (R158). -/
def kSelOf (p : Params) : Nat := if p.kSel = 0 then 32 else p.kSel
/-- W of a block, its default where 0. -/
def windowOf (p : Params) : Nat := if p.window = 0 then 4 else p.window

/-- The parameter block of a session's context. -/
def paramsOf (s : State) (ctx : Nat) : Option Params := (tget? s.contexts ctx).map (·.params)

/-- Key of a session's layer in the selected-set records. -/
def selKey (hk layer : Nat) : Nat := hk * 256 + layer

/-- Crates of the keep set in one layer (R142). -/
def keepCrates (s : State) (x : Session) (p : Params) (layer : Nat) : List Nat :=
  let hk := hKey x.handle
  let cs := layerCrates s hk layer
  if isSelective s x (layerEntry p layer) then
    let tail := maxOf (cs.map (·.1))
    let sel := (tget [] s.atn.selected (selKey hk layer)).flatten
    (cs.filter fun c => c.1 = 0 || decide (tail < c.1 + windowOf p) || sel.contains c.1).map (·.2)
  else cs.map (·.2)

/-- The keep set of a session over its hosted layers, slabs and, for a selective session, strip pages (R142,
R179). -/
def keepSet (s : State) (x : Session) : List Nat :=
  match paramsOf s (hCtx x.handle) with
  | none => []
  | some p =>
    let hk := hKey x.handle
    ((hostedLayers s (hSerial x.handle) p).map (keepCrates s x p)).flatten ++
      ((mappedAll s hk .slab) ++ (mappedAll s hk .strip)).map (·.2.2)

/-- States in which a session holds its keep set (R143). -/
def holdsKeep (x : Session) : Bool := x.state = .prefilling || x.state = .active || x.state = .resuming

/-- Bring a session's holds to its keep set (R143, R144). -/
def rehold (s : State) (h : Nat) : State :=
  match sessOf s h with
  | none => s
  | some x =>
    let new := if holdsKeep x then keepSet s x else []
    setSess (moveHolds s (qDemand x.cls) x.held new) { x with held := new }

/-- Some object of a session is in the attic (R92). -/
def inAttic (s : State) (hk : Nat) : Bool :=
  (sessObjs s hk).any fun i => match objOf s i with | some o => o.attic | none => false

/-- Sessions whose maps name an object. -/
def ownersOf (s : State) (id : Nat) : List Nat :=
  distinctKeys ((s.tier.map.filter (·.2 = id)).map fun e => e.1 / (65536 * 256 * 4))
where
  /-- each key once -/
  distinctKeys (l : List Nat) : List Nat := l.foldl (fun acc a => if acc.contains a then acc else acc ++ [a]) []

/-- PARKED and DORMANT follow whether an object is in the attic (R93). -/
def parkDormant (s : State) (hk : Nat) : State :=
  match tget? s.sess.table hk with
  | none => s
  | some x =>
    if x.state = .parked && !inAttic s hk then setSess s { x with state := .dormant }
    else if x.state = .dormant && inAttic s hk then setSess s { x with state := .parked } else s

/-- Crate-pool pages that cuts hold for fast copies (R496). -/
def cutPages (s : State) : Nat := sumOf (s.trunk.cuts.map (·.pages))

/-- Free space of the crate pool in pages. -/
def atticFree (s : State) : Nat := poolPages s false - poolUsed s false - cutPages s

/-- Queue victims until free space plus queued sinks reaches the high mark; `fuel` bounds them (R147). -/
def sinkVictims : Nat → State → State
  | 0, s => s
  | n + 1, s =>
    let sinking := sumOf (((poolObjs s false).filter fun x => x.2.state = .sinking).map (·.2.pages))
    if (atticFree s + sinking) * 1000 < fld s Reg.LAD_WM.attic_high * poolPages s false then
      match (sortBy (victimFirst s) ((poolObjs s false).filter fun x => evictable x.2)).head? with
      | some v => sinkVictims n (chooseVictim s v.1)
      | none => s
    else s

/-- The attic watermark of R147, checked whenever pages were taken. -/
def checkAttic (s : State) : State :=
  if atticFree s * 1000 < fld s Reg.LAD_WM.attic_low * poolPages s false then sinkVictims (poolObjs s false).length s else s

/-! ### The store room (R136 to R138, R147) -/

/-- Shelves S: on-chip descriptors of the SRAM section (R68). -/
def shelves (s : State) : Nat := Nat.min (s.lay.active.sram.desc * 4096) 65536

/-- Spill capacity P (R96). -/
def spillCap (s : State) : Nat := s.lay.active.store.spillUnits * 65536

/-- The session limit N (R96). -/
def sessionLimit (s : State) : Nat := Nat.min (shelves s + spillCap s) 16777216

/-- Raw capacity of the DIMMs on the enabled channels in GiB (TOP_CAP_MEM.gib). -/
def memGib (s : State) : Nat := sumOf ((s.clk.dimms.zipIdx.filter fun d => bitOf s.lay.active.store.chanMask d.2).map (·.1))

/-- 4 KiB units of store-room crate space: the populated DIMMs less the spill table and the generation array
(R136). -/
def storeUnits (s : State) : Nat :=
  memGib s * 262144 - s.lay.active.store.spillUnits * 4096 - ceilDiv (2 * sessionLimit s) 4096

/-- Bytes of the crate groups and inputs that a copy holds. -/
def prepBytes (c : PrepCopy) : Nat :=
  sumOf (c.layers.map fun l => 16 + sumOf (l.crates.map fun e => 8 + e.bytes.length) + sumOf (l.ssmIn.map fun t => 2 * t.length) + 2 * (l.selected.map (·.length)).foldl (· + ·) 0) +
    (if c.tail.isSome then 32 else 0)

/-- 4 KiB units that held copies take. -/
def prepUnits (s : State) : Nat :=
  sumOf ((tvals s.mir.shadows).map fun d => sumOf (d.roles.map fun r => sumOf (r.copies.map fun c => pagesOf (prepBytes c.copy))))

/-- 4 KiB units that tables take in the store room, those of a swap in progress included. -/
def tableUnits (s : State) : Nat :=
  sumOf (s.tok.slots.map fun t => if t.1 < 4 then 0 else t.2.space) +
    sumOf (s.tok.swaps.map fun w => match w.target with | .load i t => if i < 4 then 0 else t.space | _ => 0)

/-- 4 KiB units of store-room crate space in use: copies, tables, token histories (R356), held prepare copies (R487), the
RMA area (R463). -/
def storeUsed (s : State) : Nat :=
  tableUnits s + prepUnits s + fld s Reg.RMA_AREA.units * 16384 +
    (s.sess.table.filter fun p => !p.2.guest && p.2.state ≠ .free && p.2.sampler.repWindow ≠ 0).length +
  sumOf (s.tier.objs.map fun p => match p.2.lower with
    | some l => if l.tier = 1 then pagesOf (movedBytes p.2) else 0
    | none => 0)

/-- The usable cellar targets in numbering order: NVMe first (R136, R155, R156). -/
def usableTargets (s : State) : List Target := s.tier.targets.filter fun t => !t.lost && !t.faulty && !t.activating

/-- The lowest unit of a tier's target that lies above every copy there (packed in arrival order, R138). -/
def nextUnit (s : State) (tier target : Nat) : Nat :=
  maxOf ((s.tier.objs.map fun p => match p.2.lower with
    | some l => if l.tier = tier && l.target = target then l.unit + pagesOf (movedBytes p.2) else 0
    | none => 0) ++
    s.tier.running.map fun m => match m.kind, objOf s m.obj with
      | .age, some o => if m.target = 256 * b2n (tier = 3) + target && tier ≠ 1 then m.unit + pagesOf (movedBytes o) else 0
      | _, _ => 0)

/-- Store-room victims: copies whose object is HOME in the store room, oldest first. -/
def storeVictims (s : State) : List (Nat × Obj) :=
  sortBy (victimFirst s) (s.tier.objs.filter fun p => p.2.state = .home &&
    (match p.2.lower with | some l => l.tier = 1 | none => false) && !hasMove s p.1)

/-- Queue store-room victims until the high mark is reached (R147). -/
def ageVictims : Nat → State → State
  | 0, s => s
  | n + 1, s =>
    let moving := sumOf ((s.tier.objs.filter fun p => p.2.state = .sinking && !p.2.attic).map fun p => pagesOf (movedBytes p.2))
    if (storeUnits s - storeUsed s + moving) * 1000 < fld s Reg.LAD_WM.store_high * storeUnits s then
      match (storeVictims s).head? with
      | some v => ageVictims n (pushMove (setObj s v.1 { v.2 with state := .sinking }) v.1 v.2 .age qAge)
      | none => s
    else s

/-- The store-room watermark of R147: victims to the cellar, or POOL_LOW once per second where there is no usable
cellar target. -/
def checkStore (s : State) : State :=
  if (storeUnits s - storeUsed s) * 1000 < fld s Reg.LAD_WM.store_low * storeUnits s then
    if (usableTargets s).isEmpty then
      if duePerSecond s.tier.poolLowAt s.timebase then
        report { s with tier := { s.tier with poolLowAt := some s.timebase } } 0x0403 0 0 [storeUnits s - storeUsed s]
      else s
    else ageVictims s.tier.objs.length s
  else s

/-! ### Regulators (R259 to R261) -/

/-- Resources of a partition's buckets. -/
def resAttic : Nat := 0
/-- The store room. -/
def resStore : Nat := 1
/-- The links. -/
def resLinks : Nat := 2

/-- Bucket number of partition `p` and resource `r`. -/
def bucketIx (p r : Nat) : Nat := 3 * p + r

/-- The configured regulator. -/
def regulatorOf (s : State) (p r : Nat) : Regulator := s.lay.active.regulators.getD (bucketIx p r) {}

/-- The level of a bucket in bytes. -/
def bucketLevel (s : State) (p r : Nat) : Int :=
  match s.steps.buckets.find? (·.1 = bucketIx p r) with | some b => b.2 | none => 0

/-- A charged transfer may start. -/
def bucketOpen (s : State) (p r : Nat) : Bool := (regulatorOf s p r).rate = 0 || decide (1 ≤ bucketLevel s p r)

/-- Store a bucket's level; a bucket at zero is not listed. -/
def setBucket (s : State) (p r : Nat) (v : Int) : State :=
  let l := s.steps.buckets.filter (·.1 ≠ bucketIx p r)
  let l := if v = 0 then l else insertBy (fun a b => decide (a.1 < b.1)) (bucketIx p r, v) l
  { s with steps := { s.steps with buckets := l } }

/-- Charge a transfer that starts. -/
def charge (s : State) (p r bytes : Nat) : State :=
  if (regulatorOf s p r).rate = 0 then s else setBucket s p r (bucketLevel s p r - (bytes : Int))

end Sys2Proof.Machine
end

