-- ==== Sys2Proof/Machine/Crypto.lean ====
section
/-! DEFINITION. The published algorithms the spec names: SHA-256 and SHA-384 (FIPS 180-4), AES-256
(FIPS 197), AES key wrap (RFC 3394), HMAC and HKDF over SHA-384, ECDSA P-384 verification (FIPS 186). -/
namespace Sys2Proof.Machine

/-! ### SHA-2 -/

def sha256K0 : List Nat := [
  0x428a2f98, 0x71374491, 0xb5c0fbcf, 0xe9b5dba5, 0x3956c25b, 0x59f111f1, 0x923f82a4, 0xab1c5ed5,
  0xd807aa98, 0x12835b01, 0x243185be, 0x550c7dc3, 0x72be5d74, 0x80deb1fe, 0x9bdc06a7, 0xc19bf174]
def sha256K1 : List Nat := [
  0xe49b69c1, 0xefbe4786, 0x0fc19dc6, 0x240ca1cc, 0x2de92c6f, 0x4a7484aa, 0x5cb0a9dc, 0x76f988da,
  0x983e5152, 0xa831c66d, 0xb00327c8, 0xbf597fc7, 0xc6e00bf3, 0xd5a79147, 0x06ca6351, 0x14292967]
def sha256K2 : List Nat := [
  0x27b70a85, 0x2e1b2138, 0x4d2c6dfc, 0x53380d13, 0x650a7354, 0x766a0abb, 0x81c2c92e, 0x92722c85,
  0xa2bfe8a1, 0xa81a664b, 0xc24b8b70, 0xc76c51a3, 0xd192e819, 0xd6990624, 0xf40e3585, 0x106aa070]
def sha256K3 : List Nat := [
  0x19a4c116, 0x1e376c08, 0x2748774c, 0x34b0bcb5, 0x391c0cb3, 0x4ed8aa4a, 0x5b9cca4f, 0x682e6ff3,
  0x748f82ee, 0x78a5636f, 0x84c87814, 0x8cc70208, 0x90befffa, 0xa4506ceb, 0xbef9a3f7, 0xc67178f2]
/-- Round constants of SHA-256. -/
def sha256K : List Nat := sha256K0 ++ sha256K1 ++ sha256K2 ++ sha256K3

def sha512K0 : List Nat := [
  0x428a2f98d728ae22, 0x7137449123ef65cd, 0xb5c0fbcfec4d3b2f, 0xe9b5dba58189dbbc,
  0x3956c25bf348b538, 0x59f111f1b605d019, 0x923f82a4af194f9b, 0xab1c5ed5da6d8118,
  0xd807aa98a3030242, 0x12835b0145706fbe, 0x243185be4ee4b28c, 0x550c7dc3d5ffb4e2,
  0x72be5d74f27b896f, 0x80deb1fe3b1696b1, 0x9bdc06a725c71235, 0xc19bf174cf692694]
def sha512K1 : List Nat := [
  0xe49b69c19ef14ad2, 0xefbe4786384f25e3, 0x0fc19dc68b8cd5b5, 0x240ca1cc77ac9c65,
  0x2de92c6f592b0275, 0x4a7484aa6ea6e483, 0x5cb0a9dcbd41fbd4, 0x76f988da831153b5,
  0x983e5152ee66dfab, 0xa831c66d2db43210, 0xb00327c898fb213f, 0xbf597fc7beef0ee4,
  0xc6e00bf33da88fc2, 0xd5a79147930aa725, 0x06ca6351e003826f, 0x142929670a0e6e70]
def sha512K2 : List Nat := [
  0x27b70a8546d22ffc, 0x2e1b21385c26c926, 0x4d2c6dfc5ac42aed, 0x53380d139d95b3df,
  0x650a73548baf63de, 0x766a0abb3c77b2a8, 0x81c2c92e47edaee6, 0x92722c851482353b,
  0xa2bfe8a14cf10364, 0xa81a664bbc423001, 0xc24b8b70d0f89791, 0xc76c51a30654be30,
  0xd192e819d6ef5218, 0xd69906245565a910, 0xf40e35855771202a, 0x106aa07032bbd1b8]
def sha512K3 : List Nat := [
  0x19a4c116b8d2d0c8, 0x1e376c085141ab53, 0x2748774cdf8eeb99, 0x34b0bcb5e19b48a8,
  0x391c0cb3c5c95a63, 0x4ed8aa4ae3418acb, 0x5b9cca4f7763e373, 0x682e6ff3d6b2b8a3,
  0x748f82ee5defb2fc, 0x78a5636f43172f60, 0x84c87814a1f0ab72, 0x8cc702081a6439ec,
  0x90befffa23631e28, 0xa4506cebde82bde9, 0xbef9a3f7b2c67915, 0xc67178f2e372532b]
def sha512K4 : List Nat := [
  0xca273eceea26619c, 0xd186b8c721c0c207, 0xeada7dd6cde0eb1e, 0xf57d4f7fee6ed178,
  0x06f067aa72176fba, 0x0a637dc5a2c898a6, 0x113f9804bef90dae, 0x1b710b35131c471b,
  0x28db77f523047d84, 0x32caab7b40c72493, 0x3c9ebe0a15c9bebc, 0x431d67c49c100d4c,
  0x4cc5d4becb3e42b6, 0x597f299cfc657e2a, 0x5fcb6fab3ad6faec, 0x6c44198c4a475817]
/-- Round constants of the SHA-512 family. -/
def sha512K : List Nat := sha512K0 ++ sha512K1 ++ sha512K2 ++ sha512K3 ++ sha512K4

/-- Initial state of SHA-256. -/
def sha256H : List Nat := [
  0x6a09e667, 0xbb67ae85, 0x3c6ef372, 0xa54ff53a, 0x510e527f, 0x9b05688c, 0x1f83d9ab, 0x5be0cd19]

/-- Initial state of SHA-384. -/
def sha384H : List Nat := [
  0xcbbb9d5dc1059ed8, 0x629a292a367cd507, 0x9159015a3070dd17, 0x152fecd8f70e5939,
  0x67332667ffc00b31, 0x8eb44a8768581511, 0xdb0c2e0d64f98fa7, 0x47b5481dbefa4fa4]

/-- Rotate right in a `w`-bit word. -/
def rotr (w n x : Nat) : Nat := x / 2 ^ n + x % 2 ^ n * 2 ^ (w - n)

/-- Exclusive or of three words. -/
def xor3 (a b c : Nat) : Nat := Nat.xor a (Nat.xor b c)

/-- The rotation amounts that tell SHA-256 from the SHA-512 family. -/
structure ShaPar where
  w : Nat
  s0 : Nat × Nat × Nat
  s1 : Nat × Nat × Nat
  e0 : Nat × Nat × Nat
  e1 : Nat × Nat × Nat

/-- SHA-256. -/
def shaPar32 : ShaPar := ⟨32, (7, 18, 3), (17, 19, 10), (2, 13, 22), (6, 11, 25)⟩
/-- The SHA-512 family. -/
def shaPar64 : ShaPar := ⟨64, (1, 8, 7), (19, 61, 6), (28, 34, 39), (14, 18, 41)⟩

/-- A lower-case sigma: two rotations and a shift. -/
def shaSmall (w : Nat) (r : Nat × Nat × Nat) (x : Nat) : Nat := xor3 (rotr w r.1 x) (rotr w r.2.1 x) (x / 2 ^ r.2.2)
/-- An upper-case sigma: three rotations. -/
def shaBig (w : Nat) (r : Nat × Nat × Nat) (x : Nat) : Nat := xor3 (rotr w r.1 x) (rotr w r.2.1 x) (rotr w r.2.2 x)

/-- The message schedule, latest word first, extended by `n` words. -/
def shaExtend (p : ShaPar) : Nat → List Nat → List Nat
  | 0, w => w
  | n + 1, w =>
    let x := (shaSmall p.w p.s1 (w.getD 1 0) + w.getD 6 0 + shaSmall p.w p.s0 (w.getD 14 0) + w.getD 15 0) % 2 ^ p.w
    shaExtend p n (x :: w)

/-- One round on the eight working variables. -/
def shaRound (p : ShaPar) (v : List Nat) (kw : Nat) : List Nat :=
  match v with
  | [a, b, c, d, e, f, g, h] =>
    let ch := Nat.xor (Nat.land e f) (Nat.land (2 ^ p.w - 1 - e) g)
    let t1 := h + shaBig p.w p.e1 e + ch + kw
    let maj := xor3 (Nat.land a b) (Nat.land a c) (Nat.land b c)
    let t2 := shaBig p.w p.e0 a + maj
    [(t1 + t2) % 2 ^ p.w, a, b, c, (d + t1) % 2 ^ p.w, e, f, g]
  | _ => v

/-- One block. -/
def shaBlock (p : ShaPar) (k : List Nat) (h blk : List Nat) : List Nat :=
  let w := (shaExtend p (k.length - 16) blk.reverse).reverse
  let v := (k.zip w).foldl (fun v x => shaRound p v (x.1 + x.2)) h
  (h.zip v).map fun x => (x.1 + x.2) % 2 ^ p.w

/-- Big-endian words of `n` bytes each; `fuel` bounds their number. -/
def beWords (n : Nat) : Nat → List Nat → List Nat
  | 0, _ => []
  | f + 1, l => if l.isEmpty then [] else beNat (l.take n) :: beWords n f (l.drop n)

/-- All blocks of 16 words; `fuel` bounds their number. -/
def shaBlocks (p : ShaPar) (k : List Nat) : Nat → List Nat → List Nat → List Nat
  | 0, h, _ => h
  | f + 1, h, ws => if ws.isEmpty then h else shaBlocks p k f (shaBlock p k h (ws.take 16)) (ws.drop 16)

/-- `n` bytes of a number, most significant first. -/
def beBytes (n v : Nat) : List Nat := (leBytes n v).reverse

/-- The padded message: one bit, zeros, the bit length. -/
def shaPad (blockBytes lenBytes : Nat) (m : List Nat) : List Nat :=
  let used := (m.length + 1 + lenBytes) % blockBytes
  m ++ [0x80] ++ List.replicate ((blockBytes - used) % blockBytes) 0 ++ beBytes lenBytes (8 * m.length)

/-- SHA-256 as 32 bytes. -/
def sha256 (m : List Nat) : List Nat :=
  let pm := shaPad 64 8 m
  (shaBlocks shaPar32 sha256K pm.length sha256H (beWords 4 pm.length pm)).flatMap (beBytes 4)

/-- SHA-384 as 48 bytes. -/
def sha384 (m : List Nat) : List Nat :=
  let pm := shaPad 128 16 m
  ((shaBlocks shaPar64 sha512K pm.length sha384H (beWords 8 pm.length pm)).flatMap (beBytes 8)).take 48

/-- SHA-384 as a number, first byte most significant. -/
def sha384n (m : List Nat) : Nat := beNat (sha384 m)

/-- HMAC-SHA-384. -/
def hmac384 (key msg : List Nat) : List Nat :=
  let k0 := if key.length ≤ 128 then key else sha384 key
  let k := k0 ++ List.replicate (128 - k0.length) 0
  sha384 (k.map (Nat.xor 0x5C) ++ sha384 (k.map (Nat.xor 0x36) ++ msg))

/-- HKDF-Expand with SHA-384, `n` blocks of 48 bytes. -/
def hkdfExpand384 (prk info : List Nat) : Nat → Nat → List Nat → List Nat
  | 0, _, _ => []
  | n + 1, i, prev =>
    let t := hmac384 prk (prev ++ info ++ [i])
    t ++ hkdfExpand384 prk info n (i + 1) t

/-- HKDF with SHA-384: `len` bytes of output keying material. -/
def hkdf384 (salt ikm info : List Nat) (len : Nat) : List Nat :=
  (hkdfExpand384 (hmac384 salt ikm) info (ceilDiv len 48) 1 []).take len

/-! ### AES-256 and key wrap -/

def aesSbox0 : List Nat := [
  0x63, 0x7c, 0x77, 0x7b, 0xf2, 0x6b, 0x6f, 0xc5, 0x30, 0x01, 0x67, 0x2b, 0xfe, 0xd7, 0xab, 0x76,
  0xca, 0x82, 0xc9, 0x7d, 0xfa, 0x59, 0x47, 0xf0, 0xad, 0xd4, 0xa2, 0xaf, 0x9c, 0xa4, 0x72, 0xc0,
  0xb7, 0xfd, 0x93, 0x26, 0x36, 0x3f, 0xf7, 0xcc, 0x34, 0xa5, 0xe5, 0xf1, 0x71, 0xd8, 0x31, 0x15,
  0x04, 0xc7, 0x23, 0xc3, 0x18, 0x96, 0x05, 0x9a, 0x07, 0x12, 0x80, 0xe2, 0xeb, 0x27, 0xb2, 0x75]
def aesSbox1 : List Nat := [
  0x09, 0x83, 0x2c, 0x1a, 0x1b, 0x6e, 0x5a, 0xa0, 0x52, 0x3b, 0xd6, 0xb3, 0x29, 0xe3, 0x2f, 0x84,
  0x53, 0xd1, 0x00, 0xed, 0x20, 0xfc, 0xb1, 0x5b, 0x6a, 0xcb, 0xbe, 0x39, 0x4a, 0x4c, 0x58, 0xcf,
  0xd0, 0xef, 0xaa, 0xfb, 0x43, 0x4d, 0x33, 0x85, 0x45, 0xf9, 0x02, 0x7f, 0x50, 0x3c, 0x9f, 0xa8,
  0x51, 0xa3, 0x40, 0x8f, 0x92, 0x9d, 0x38, 0xf5, 0xbc, 0xb6, 0xda, 0x21, 0x10, 0xff, 0xf3, 0xd2]
def aesSbox2 : List Nat := [
  0xcd, 0x0c, 0x13, 0xec, 0x5f, 0x97, 0x44, 0x17, 0xc4, 0xa7, 0x7e, 0x3d, 0x64, 0x5d, 0x19, 0x73,
  0x60, 0x81, 0x4f, 0xdc, 0x22, 0x2a, 0x90, 0x88, 0x46, 0xee, 0xb8, 0x14, 0xde, 0x5e, 0x0b, 0xdb,
  0xe0, 0x32, 0x3a, 0x0a, 0x49, 0x06, 0x24, 0x5c, 0xc2, 0xd3, 0xac, 0x62, 0x91, 0x95, 0xe4, 0x79,
  0xe7, 0xc8, 0x37, 0x6d, 0x8d, 0xd5, 0x4e, 0xa9, 0x6c, 0x56, 0xf4, 0xea, 0x65, 0x7a, 0xae, 0x08]
def aesSbox3 : List Nat := [
  0xba, 0x78, 0x25, 0x2e, 0x1c, 0xa6, 0xb4, 0xc6, 0xe8, 0xdd, 0x74, 0x1f, 0x4b, 0xbd, 0x8b, 0x8a,
  0x70, 0x3e, 0xb5, 0x66, 0x48, 0x03, 0xf6, 0x0e, 0x61, 0x35, 0x57, 0xb9, 0x86, 0xc1, 0x1d, 0x9e,
  0xe1, 0xf8, 0x98, 0x11, 0x69, 0xd9, 0x8e, 0x94, 0x9b, 0x1e, 0x87, 0xe9, 0xce, 0x55, 0x28, 0xdf,
  0x8c, 0xa1, 0x89, 0x0d, 0xbf, 0xe6, 0x42, 0x68, 0x41, 0x99, 0x2d, 0x0f, 0xb0, 0x54, 0xbb, 0x16]
/-- The AES substitution box. -/
def aesSbox : List Nat := aesSbox0 ++ aesSbox1 ++ aesSbox2 ++ aesSbox3

def aesInv0 : List Nat := [
  0x52, 0x09, 0x6a, 0xd5, 0x30, 0x36, 0xa5, 0x38, 0xbf, 0x40, 0xa3, 0x9e, 0x81, 0xf3, 0xd7, 0xfb,
  0x7c, 0xe3, 0x39, 0x82, 0x9b, 0x2f, 0xff, 0x87, 0x34, 0x8e, 0x43, 0x44, 0xc4, 0xde, 0xe9, 0xcb,
  0x54, 0x7b, 0x94, 0x32, 0xa6, 0xc2, 0x23, 0x3d, 0xee, 0x4c, 0x95, 0x0b, 0x42, 0xfa, 0xc3, 0x4e,
  0x08, 0x2e, 0xa1, 0x66, 0x28, 0xd9, 0x24, 0xb2, 0x76, 0x5b, 0xa2, 0x49, 0x6d, 0x8b, 0xd1, 0x25]
def aesInv1 : List Nat := [
  0x72, 0xf8, 0xf6, 0x64, 0x86, 0x68, 0x98, 0x16, 0xd4, 0xa4, 0x5c, 0xcc, 0x5d, 0x65, 0xb6, 0x92,
  0x6c, 0x70, 0x48, 0x50, 0xfd, 0xed, 0xb9, 0xda, 0x5e, 0x15, 0x46, 0x57, 0xa7, 0x8d, 0x9d, 0x84,
  0x90, 0xd8, 0xab, 0x00, 0x8c, 0xbc, 0xd3, 0x0a, 0xf7, 0xe4, 0x58, 0x05, 0xb8, 0xb3, 0x45, 0x06,
  0xd0, 0x2c, 0x1e, 0x8f, 0xca, 0x3f, 0x0f, 0x02, 0xc1, 0xaf, 0xbd, 0x03, 0x01, 0x13, 0x8a, 0x6b]
def aesInv2 : List Nat := [
  0x3a, 0x91, 0x11, 0x41, 0x4f, 0x67, 0xdc, 0xea, 0x97, 0xf2, 0xcf, 0xce, 0xf0, 0xb4, 0xe6, 0x73,
  0x96, 0xac, 0x74, 0x22, 0xe7, 0xad, 0x35, 0x85, 0xe2, 0xf9, 0x37, 0xe8, 0x1c, 0x75, 0xdf, 0x6e,
  0x47, 0xf1, 0x1a, 0x71, 0x1d, 0x29, 0xc5, 0x89, 0x6f, 0xb7, 0x62, 0x0e, 0xaa, 0x18, 0xbe, 0x1b,
  0xfc, 0x56, 0x3e, 0x4b, 0xc6, 0xd2, 0x79, 0x20, 0x9a, 0xdb, 0xc0, 0xfe, 0x78, 0xcd, 0x5a, 0xf4]
def aesInv3 : List Nat := [
  0x1f, 0xdd, 0xa8, 0x33, 0x88, 0x07, 0xc7, 0x31, 0xb1, 0x12, 0x10, 0x59, 0x27, 0x80, 0xec, 0x5f,
  0x60, 0x51, 0x7f, 0xa9, 0x19, 0xb5, 0x4a, 0x0d, 0x2d, 0xe5, 0x7a, 0x9f, 0x93, 0xc9, 0x9c, 0xef,
  0xa0, 0xe0, 0x3b, 0x4d, 0xae, 0x2a, 0xf5, 0xb0, 0xc8, 0xeb, 0xbb, 0x3c, 0x83, 0x53, 0x99, 0x61,
  0x17, 0x2b, 0x04, 0x7e, 0xba, 0x77, 0xd6, 0x26, 0xe1, 0x69, 0x14, 0x63, 0x55, 0x21, 0x0c, 0x7d]
/-- Its inverse. -/
def aesInv : List Nat := aesInv0 ++ aesInv1 ++ aesInv2 ++ aesInv3

/-- Doubling in the AES field. -/
def xtime (a : Nat) : Nat := Nat.xor (a * 2 % 256) (if a ≥ 128 then 0x1B else 0)

/-- Product in the AES field. -/
def gmul8 : Nat → Nat → Nat → Nat
  | 0, _, _ => 0
  | n + 1, a, b => Nat.xor (if b % 2 = 1 then a else 0) (gmul8 n (xtime a) (b / 2))

/-- Bytewise exclusive or. -/
def xorBytes (a b : List Nat) : List Nat := a.zipWith Nat.xor b

/-- The AES-256 key schedule, words latest first; `n` more words. -/
def aesExpand : Nat → Nat → Nat → List (List Nat) → List (List Nat)
  | 0, _, _, ws => ws
  | n + 1, i, rcon, ws =>
    let t := ws.getD 0 []
    let sub (l : List Nat) := l.map fun x => aesSbox.getD x 0
    let t' := if i % 8 = 0 then xorBytes (sub (t.drop 1 ++ t.take 1)) [rcon, 0, 0, 0]
      else if i % 8 = 4 then sub t else t
    aesExpand n (i + 1) (if i % 8 = 0 then xtime rcon else rcon) (xorBytes (ws.getD 7 []) t' :: ws)

/-- The fifteen round keys of 16 bytes. -/
def aesRoundKeys (key : List Nat) : List (List Nat) :=
  let w0 := (List.range 8).map fun i => slice key (4 * i) 4
  let ws := (aesExpand 52 8 1 w0.reverse).reverse
  (List.range 15).map fun r => ((ws.drop (4 * r)).take 4).flatten

/-- The inverse of a row shift and substitution, then a round key. -/
def aesInvRound (st rk : List Nat) : List Nat :=
  xorBytes ((List.range 16).map fun i => aesInv.getD (st.getD ((i + 16 - 4 * (i % 4)) % 16) 0) 0) rk

/-- The inverse column mix. -/
def aesInvMix (st : List Nat) : List Nat :=
  (List.range 16).map fun i =>
    let c := 4 * (i / 4)
    let at_ (k : Nat) := st.getD (c + (i + k) % 4) 0
    Nat.xor (Nat.xor (gmul8 8 (at_ 0) 14) (gmul8 8 (at_ 1) 11)) (Nat.xor (gmul8 8 (at_ 2) 13) (gmul8 8 (at_ 3) 9))

/-- AES-256 decryption of one block. -/
def aesDecrypt (key blk : List Nat) : List Nat :=
  let ks := (aesRoundKeys key).reverse
  match ks with
  | k14 :: rest =>
    let s0 := xorBytes blk k14
    let mid := (rest.take 13).foldl (fun st rk => aesInvMix (aesInvRound st rk)) s0
    aesInvRound mid (rest.getD 13 [])
  | [] => blk

/-- The column mix. -/
def aesMix (st : List Nat) : List Nat :=
  (List.range 16).map fun i =>
    let c := 4 * (i / 4)
    let at_ (k : Nat) := st.getD (c + (i + k) % 4) 0
    Nat.xor (Nat.xor (xtime (at_ 0)) (Nat.xor (xtime (at_ 1)) (at_ 1))) (Nat.xor (at_ 2) (at_ 3))

/-- Substitution and row shift. -/
def aesSubShift (st : List Nat) : List Nat :=
  (List.range 16).map fun i => aesSbox.getD (st.getD ((i + 4 * (i % 4)) % 16) 0) 0

/-- AES-256 encryption of one block. -/
def aesEncrypt (key blk : List Nat) : List Nat :=
  match aesRoundKeys key with
  | k0 :: rest =>
    let st := (rest.take 13).foldl (fun st rk => xorBytes (aesMix (aesSubShift st)) rk) (xorBytes blk k0)
    xorBytes (aesSubShift st) (rest.getD 13 [])
  | [] => blk

/-- Doubling in the field of the XTS tweaks. -/
def xtsDouble (t : Nat) : Nat := Nat.xor (t * 2 % 2 ^ 128) (if 2 ^ 127 ≤ t then 0x87 else 0)

/-- The blocks of a data unit, each under its tweak. -/
def xtsBlocks (f : List Nat → List Nat) : List Nat → List (List Nat) → List Nat
  | _, [] => []
  | t, b :: bs => xorBytes (f (xorBytes b t)) t ++ xtsBlocks f (leBytes 16 (xtsDouble (leNat t))) bs

/-- Lists of `n` bytes, the last padded with zeros. -/
def chunksOf (n : Nat) (l : List Nat) : List (List Nat) :=
  (List.range (ceilDiv l.length n)).map fun i => slice l (i * n) n

/-- AES-256-XTS of data in 4,096-byte units (R526, R527): `key` is K1 and K2, `tweak` that of the first unit. -/
def xtsRun (enc : Bool) (key : List Nat) (tweak : Nat) (data : List Nat) : List Nat :=
  let k1 := key.take 32
  let f := if enc then aesEncrypt k1 else aesDecrypt k1
  ((chunksOf 4096 data).zipIdx.map fun u =>
    xtsBlocks f (aesEncrypt (key.drop 32) (leBytes 16 (tweak + u.2))) (chunksOf 16 u.1)).flatten

/-- The unwrap steps of RFC 3394: `t` counts down from 6n to 1. -/
def unwrapSteps (key : List Nat) (n : Nat) : Nat → List Nat → List (List Nat) → List Nat × List (List Nat)
  | 0, a, r => (a, r)
  | t + 1, a, r =>
    let i := t % n
    let b := aesDecrypt key (xorBytes a (beBytes 8 (t + 1)) ++ r.getD i [])
    unwrapSteps key n t (b.take 8) (r.set i (b.drop 8))

/-- RFC 3394 unwrap: the key data, or none where the integrity check fails. -/
def keyUnwrap (key wrapped : List Nat) : Option (List Nat) :=
  let n := wrapped.length / 8 - 1
  let blocks := (List.range n).map fun i => slice wrapped (8 * (i + 1)) 8
  let (a, r) := unwrapSteps key n (6 * n) (wrapped.take 8) blocks
  if a = List.replicate 8 0xA6 then some r.flatten else none

/-! ### ECDSA P-384 -/

/-- The field prime. -/
def p384 : Nat := 2 ^ 384 - 2 ^ 128 - 2 ^ 96 + 2 ^ 32 - 1
/-- The group order. -/
def n384 : Nat := 0xFFFFFFFFFFFFFFFFFFFFFFFFFFFFFFFFFFFFFFFFFFFFFFFFC7634D81F4372DDF581A0DB248B0A77AECEC196ACCC52973
/-- The base point. -/
def g384 : Nat × Nat :=
  (0xAA87CA22BE8B05378EB1C71EF320AD746E1D3B628BA79B9859F741E082542A385502F25DBF55296C3A545E3872760AB7,
   0x3617DE4A96262C6F5D9E98BF9292DC29F8F41DBD289A147CE9DA3113B5F0B8C00A60B1CE1D7E819D7A431D7C90EA0E5F)

/-- Power modulo `m` by the `n` low bits of the exponent. -/
def powMod : Nat → Nat → Nat → Nat → Nat
  | 0, _, _, _ => 1
  | n + 1, b, e, m => (if e % 2 = 1 then b else 1) * powMod n (b * b % m) (e / 2) m % m

/-- Inverse modulo a 384-bit prime. -/
def invMod (a m : Nat) : Nat := powMod 384 (a % m) (m - 2) m

/-- Sum of two affine points; none is the point at infinity. -/
def ecAdd (a b : Option (Nat × Nat)) : Option (Nat × Nat) :=
  match a, b with
  | none, q => q
  | p, none => p
  | some (x1, y1), some (x2, y2) =>
    if x1 = x2 && (y1 + y2) % p384 = 0 then none
    else
      let l := if x1 = x2 then (3 * x1 * x1 + (p384 - 3)) * invMod (2 * y1) p384 % p384
        else (y2 + p384 - y1) * invMod (x2 + p384 - x1) p384 % p384
      let x3 := (l * l + 2 * p384 - x1 - x2) % p384
      some (x3, (l * (x1 + p384 - x3) + p384 - y1) % p384)

/-- Multiple of a point by the `n` low bits of `k`. -/
def ecMul : Nat → Nat → Option (Nat × Nat) → Option (Nat × Nat)
  | 0, _, _ => none
  | n + 1, k, p => ecAdd (if k % 2 = 1 then p else none) (ecMul n (k / 2) (ecAdd p p))

/-- ECDSA P-384 verification of `r, s` over a digest, under the public point `q`. -/
def ecdsaVerify (q : Nat × Nat) (digest r s : Nat) : Bool :=
  if r = 0 || s = 0 || decide (n384 ≤ r) || decide (n384 ≤ s) then false
  else
    let w := invMod s n384
    match ecAdd (ecMul 384 (digest * w % n384) (some g384)) (ecMul 384 (r * w % n384) (some q)) with
    | none => false
    | some (x, _) => x % n384 = r

end Sys2Proof.Machine
end

