-- ==== Sys2Proof/Machine/Ports.lean ====
section
/-! DEFINITION. Ports going down and coming back (R407, R426 to R431). -/
namespace Sys2Proof.Machine

/-- Update a native link. -/
def modLnk (s : State) (n : Nat) (f : Link → Link) : State := setLnk s n (f (lnkOf s n))

/-- Update an Ethernet port. -/
def modEth (s : State) (p : Nat) (f : EthPort → EthPort) : State := setEth s p (f (ethOf s p))

/-- The bay of a native link. -/
def bayOf (s : State) (n : Nat) : Bay := s.lay.active.bays.getD (n / 8) {}

/-- The timebase PLL coasts: TIMEBASE counts by 2, is not locked, and is advertised with rank 15 (R557). -/
def tbCoasts (s : State) : Bool := (tget? s.clk.plls 23).elim false (·.state = .coasting)

/-- The SerDes PLL of a bay is locked (R559). -/
def serdesUp (s : State) (b : Nat) : Bool := (tget? s.clk.plls (24 + b)).elim true (·.state = .locked)

/-- A native link may run (R69): populated, its bay in the native personality, LNK_CTL.enable; none under the reserved device
ID (R596) or while its bay's island is in reset (R20). -/
def lnkEnabled (s : State) (n : Nat) : Bool :=
  s.device ≠ 0x7FF && !s.clk.inReset.contains (9 + n / 8) && serdesUp s (n / 8) && decide (n < partLinks s.part) && (bayOf s n).personality = 1 && fldAt s Reg.LNK_CTL.enable [n] = 1

/-- An Ethernet port may run. -/
def ethEnabled (s : State) (p : Nat) : Bool :=
  s.device ≠ 0x7FF && !s.clk.inReset.contains (9 + p / 2) && serdesUp s (p / 2) && decide (p / 2 < partBays s.part) && (s.lay.active.bays.getD (p / 2) {}).personality = 2 && fldAt s Reg.ETH_CTL.enable [p] = 1

/-- State of a port. -/
def portState (s : State) (port : Nat) : PortState := if port < 48 then (lnkOf s port).st else (ethOf s (port - 48)).st

/-- The half of the attention service that a port belongs to. -/
def portHalf (port : Nat) : Nat := if port < 48 then port / 24 else (port - 48) / 6

/-- Receive credits advertised, pool by pool (R416). -/
def ownPools : List Nat := [128, 1536, 256, 64, 64]

/-- Add a control flit to those a link has to send. -/
def pushCtl (s : State) (n : Nat) (c : Ctl) : State := modLnk s n fun l => { l with ctl := l.ctl ++ [c] }

/-- The HELLO of a link (R408). -/
def helloOf (s : State) (n : Nat) : Hello :=
  { verMin := 1, verMax := 1, kind := 1, device := s.device, link := n, crypto := b2n (bayOf s n).integrityOnly,
    startEpoch := s.startCount % 2 ^ 16, credits := ownPools, replay := 1024, rank := s.link.rank }

/-- Training of a link starts: HELLO goes out (R407). A HELD link stays HELD. -/
def startTraining (s : State) (n : Nat) (fast : Bool) : State :=
  let h := helloOf s n
  modLnk s n fun l =>
    { l with st := if l.st = .held then .held else .training, agreed := false, resumed := false, fast := fast, miswired := false,
             ctl := [.hello h], keys := { l.keys with mine := none, theirs := none, derived := none } }

/-- The class of a transaction lies in fast_resend. -/
def isFast (s : State) (t : Txn) : Bool := match t.cls with | some c => bitOf (fld s Reg.LNK_XCFG.fast_resend) c | none => false

/-- An entry is the frame of a transaction and no part of it has left. -/
def unsentOf (t : Txn) (i : EgItem) : Bool :=
  match i.body with
  | .frame f => i.sent = 0 && f.dst = t.dest && f.txid = t.txid
  | _ => false

/-- Drop a transaction's unsent frame from a link's queues. -/
def dropOn (s : State) (n : Nat) (t : Txn) : State :=
  modLnk s n fun l => { l with queues := tmap (fun _ q => q.filter fun i => !unsentOf t i) l.queues }

/-- Send a transaction again over another link, if there is one (R430). -/
def fastResend (n : Nat) (s : State) (t : Txn) : State :=
  let (s, p) := choosePort s t.dest t.vc t.flow t.cls
  match p with
  | some p => if p = n then s else launchOn (dropOn s n t) t p
  | none => s

/-- An UP link is lost: HELD, its fast classes go over other links, a fast retrain starts (R426, R430). -/
def lnkHeld (s : State) (n : Nat) (coeff : Bool) : State :=
  let now := s.timebase
  let s := modLnk s n fun l => { l with st := .held, agreed := false, resumed := false, ctl := [], retrySent := false,
                                        coeffAt := if coeff then some now else none, fast := coeff }
  (s.link.txns.filter fun t => t.port = some n && isFast s t).foldl (fastResend n) s

/-- Add to one lane of an 8-lane counter of 8 bits each. -/
def laneAdd (v q n : Nat) : Nat := putBits v (8 * q) 8 ((bitsOf v (8 * q) 8 + n) % 256)

/-- The frames of queue entries. -/
def framesIn (l : List EgItem) : List Frame := l.filterMap fun i => match i.body with | .frame f => some f | _ => none

/-- The frames of flits. -/
def framesOf (l : List Flit) : List Frame := l.filterMap fun f => match f.body with | .data x _ => some x | _ => none

/-- A transaction whose link has gone is sent again on another, or ends with LINK_DOWN, detail 0x1 (R431). -/
def resendOrEnd (s : State) (t : Txn) : State :=
  let (s, p) := choosePort s t.dest t.vc t.flow t.cls
  match p with
  | some p => launchOn s t p
  | none => endTxn s t .linkDown 1

/-- Every route of a device to which a port belongs. -/
def devicesOn (s : State) (port : Nat) : List Nat :=
  (tkeys s.lay.active.routes).filter fun d => let r := routePorts s d; r.1.contains port || r.2.contains port

/-- Every port of a device's route is down beyond its hold time. -/
def isIsolated (s : State) (d : Nat) : Bool :=
  let r := routePorts s d
  (r.1 ++ r.2).all fun p => portState s p ≠ .up && portState s p ≠ .held

/-- After a port has gone DOWN: transactions move, devices without a port left are noted. -/
def afterDown (s : State) (port : Nat) : State :=
  let s := (s.link.txns.filter fun t => t.port = some port).foldl resendOrEnd s
  { s with link := { s.link with isolated := s.link.isolated ++ (devicesOn s port).filter (isIsolated s) } }

/-- A link goes DOWN as at the expiry of its hold time (R431), or abandons training. -/
def lnkGoDown (s : State) (n : Nat) : State :=
  let l := lnkOf s n
  if l.st = .down then s
  else if l.st = .training then setLnk s n { l with st := .down, version := 0, agreed := false, resumed := false, ctl := [] }
  else
    let gone := (framesOf l.replay ++ framesIn (queued l)).eraseDups
    let counts := (List.range 8).map fun q => (gone.filter (·.vc = q)).length
    let s := setFldAt s Reg.LNK_DISCARD.vc [n] (counts.zipIdx.foldl (fun v c => laneAdd v c.2 c.1) (fldAt s Reg.LNK_DISCARD.vc [n]))
    let s := setLnk s n { l with st := .down, version := 0, agreed := false, resumed := false, ctl := [], queues := [], replay := [],
                                 again := [], draws := [], rx := [], kept := [],
                                 keys := { l.keys with tx := none, rx := none, old := none, rekey := none, derived := none } }
    afterDown (report s 0x1001 n l.epoch (n :: counts)) n

/-- RMA_PORT_STATE: an Ethernet port that carries RoCEv2 changes between UP and any other state (R480). -/
def notePortState (s : State) (p : Nat) : State :=
  if s.rma.conns.any fun c => !c.2.native && (routePorts s c.2.device).2.contains (48 + p) then
    report s 0x1506 p 0 [p, (ethOf s p).st.code]
  else s

/-- An UP Ethernet port is lost: HELD, frames not yet transmitted stay (R448). -/
def ethHeld (s : State) (p : Nat) : State := notePortState (modEth s p fun e => { e with st := .held }) p

/-- An Ethernet port goes DOWN as at the expiry of its hold time (R448). -/
def ethGoDown (s : State) (p : Nat) : State :=
  let e := ethOf s p
  if e.st = .down then s
  else
    let n := ((tvals e.queues).flatten).length
    let s := bumpAt s Reg.ETH_STATUS.discard [p] n
    let s := setEth s p { e with st := .down, queues := [], reasm := [], ctl := [],
                                 keys := tmap (fun _ k => { k with tx := none, rx := none, old := none, rekey := none, derived := none }) e.keys }
    let s := if e.st = .up then notePortState s p else s
    afterDown (report s 0x1401 p e.epoch [p, n]) (48 + p)

/-- Transactions that wait for a usable link go again (R421). -/
def relaunch (s : State) : State :=
  (s.link.txns.filter (·.port.isNone)).foldl (fun s t =>
    let (s, p) := choosePort s t.dest t.vc t.flow t.cls
    match p with | some p => launchOn s t p | none => s) s

/-- An Ethernet port comes UP: at a new port epoch from DOWN, with the frames it held from HELD (R448). -/
def ethUp (s : State) (p : Nat) : State :=
  let e := ethOf s p
  if e.st = .up then s
  else
    let s := setEth s p { e with st := .up, epoch := if e.st = .held then e.epoch else wrapAdd 16 e.epoch 1 }
    relaunch (notePortState s p)

/-- A link comes UP at a new link epoch (R426, R427). -/
def lnkUp (s : State) (n epoch : Nat) : State :=
  let s := modLnk s n fun l =>
    { l with st := .up, epoch := epoch, agreed := false, resumed := false, upStart := l.partnerStart, nextSeq := 0, replay := [], again := [],
             lastIn := 0xFFFF, retrySent := false, sentCr := [0, 0, 0, 0, 0], backCr := [0, 0, 0, 0, 0], owed := [0, 0, 0, 0, 0],
             gaveCr := [0, 0, 0, 0, 0], draws := [], kept := [], rx := [], authFails := [], misses := [], suspended := false,
             partnerSuspended := false, synced := none, sentT1 := none, errLow := none, rootsPosted := false }
  relaunch (report s 0x1002 n epoch [n, (lnkOf s n).partner, epoch])

/-- A HELD link returns within its hold time: replay from the flit after `last` (R429). -/
def lnkReturns (s : State) (n last : Nat) : State :=
  let s := modLnk s n fun l =>
    let drop := match l.replay.head? with
      | some f => let k := (last + 1 + 2 ^ 16 - f.seq) % 2 ^ 16; if k ≤ l.replay.length then k else 0
      | none => 0
    { l with st := .up, agreed := false, resumed := false, replay := l.replay.drop drop, again := l.replay.drop drop, retrySent := false }
  relaunch s

/-- Training of a link has failed (R409): DOWN with fail_code, LINK_TRAIN_FAIL at most once a minute. -/
def trainFails (s : State) (n : Nat) (st : Status) : State :=
  let l := lnkOf s n
  let due := match l.failAt with | some t => decide (t + 60000000000 ≤ s.timebase) | none => true
  let s := setLnk s n { l with st := if l.st = .held then .held else .down, fail := st.code, version := 0, agreed := false, resumed := false,
                               failAt := if due then some s.timebase else l.failAt }
  if due then report s 0x1003 n l.epoch [n, st.code] else s

/-- Full training of a link starts (R407): an UP link is HELD meanwhile. -/
def retrainLink (s : State) (n : Nat) : State :=
  if !lnkEnabled s n then s else startTraining (if (lnkOf s n).st = .up then lnkHeld s n false else s) n false

/-- The ports of a bay retrain (R511, activity 4). -/
def retrainBay (s : State) (b : Nat) : State :=
  let s := ((List.range 8).map (8 * b + ·)).foldl retrainLink s
  [2 * b, 2 * b + 1].foldl (fun s p => if (ethOf s p).st = .up then ethHeld s p else s) s

end Sys2Proof.Machine
end

