-- ==== Sys2Proof/Machine/LinkKeys.lean ====
section
/-! DEFINITION. Key setup of links and tunnels (R530 to R533), and rekeying (R433). A port below 48 is a native link, else a
tunnel of Ethernet port `port - 48` to device `dev`. -/
namespace Sys2Proof.Machine

/-- Key setup of a port toward a device. -/
def keySide (s : State) (port dev : Nat) : KeySide :=
  if port < 48 then (lnkOf s port).keys else tget {} (ethOf s (port - 48)).keys dev

/-- Replace it. -/
def setKeySide (s : State) (port dev : Nat) (k : KeySide) : State :=
  if port < 48 then modLnk s port fun l => { l with keys := k }
  else modEth s (port - 48) fun e => { e with keys := tset e.keys dev k }

/-- Send a control flit to the other end. -/
def sendCtl (s : State) (port dev : Nat) (c : Ctl) : State :=
  if port < 48 then pushCtl s port c else modEth s (port - 48) fun e => { e with ctl := e.ctl ++ [(dev, c)] }

/-- What the derivation takes from the two ends: device IDs, port numbers, epoch. -/
structure KeyEnds where
  own : Nat
  peer : Nat
  ownLink : Nat
  peerLink : Nat
  epoch : Nat

/-- The ends of a port. A tunnel takes this port's number and epoch for both directions. -/
def keyEnds (s : State) (port dev : Nat) : KeyEnds :=
  if port < 48 then
    let l := lnkOf s port
    ⟨s.device, l.partner, port, l.partnerLink, l.epoch⟩
  else ⟨s.device, dev, port - 48, port - 48, (ethOf s (port - 48)).epoch⟩

/-- N_a followed by N_b (R531). -/
def nonceBytes (e : KeyEnds) (mine theirs : Nat) : List Nat :=
  if e.own ≤ e.peer then leBytes 32 mine ++ leBytes 32 theirs else leBytes 32 theirs ++ leBytes 32 mine

/-- The ASCII bytes of "RML". -/
def rmlBytes : List Nat := [0x52, 0x4D, 0x4C]

/-- Key and salt of 38 bytes. -/
def keyOfBytes (b : List Nat) (phase : Bool) (seq : Nat) : DirKey :=
  { key := leNat (b.take 32), salt := leNat ((b.drop 32).take 6), phase := phase, seq := seq }

/-- The key of the direction from device `x` on its link `lx` to device `y` (R531 step 2). -/
def dirKey (lmk salt : List Nat) (x y lx epoch : Nat) : DirKey :=
  keyOfBytes (hkdf384 salt lmk (rmlBytes ++ [0x20, 0x64, 0x69, 0x72] ++ leBytes 2 x ++ leBytes 2 y ++ [lx % 256] ++ leBytes 2 epoch) 38) false 0

/-- The mac of a CONFIRM that a device sends (R531 step 3). -/
def confirmMac (lmk salt : List Nat) (sender : Nat) : Nat :=
  let ck := hkdf384 salt lmk (rmlBytes ++ [0x20, 0x63, 0x6F, 0x6E, 0x66, 0x69, 0x72, 0x6D]) 48
  leNat (hmac384 ck (rmlBytes ++ leBytes 2 sender ++ salt))

/-- Key setup has failed: DOWN with PROTECTION, counted, LINK_KEY_FAIL at most once a second (R531). Cause 1 CONFIRM, 2 a master
key not held, 3 FAIL received. -/
def keyFail (s : State) (port dev cause : Nat) : State :=
  let k := keySide s port dev
  let due := duePerSecond k.failAt s.timebase
  let s := bump s Reg.SEC_COUNT.key_fail
  let s := setKeySide s port dev { k with mine := none, theirs := none, derived := none, failAt := if due then some s.timebase else k.failAt }
  let s := if port < 48 then modLnk s port fun l => { l with st := .down, version := 0, agreed := false, resumed := false, fail := Status.protection.code } else s
  if due then report s 0x1702 port 0 [port, cause] else s

/-- A KEY flit. -/
def keyFlit (op lmk : Nat) (phase : Bool) (seq nonce mac : Nat) : Ctl := .key ⟨op, lmk, phase, seq, nonce, mac⟩

/-- A fresh nonce of the entropy source: a free value. -/
def takeNonce (s : State) : State × Nat :=
  ({ s with link := { s.link with entropy := s.link.entropy + 1 } }, Config.fresh s.link.entropy % 2 ^ 256)

/-- The lowest master key held. -/
def firstLmk (s : State) : Option Nat := (tkeys s.sec.lmk).head?

/-- Send NONCE. -/
def sendNonce (s : State) (port dev : Nat) : State :=
  match firstLmk s with
  | none => if port < 48 then keyFail (sendCtl s port dev (keyFlit 5 0 false 0 0 0)) port dev 2 else s
  | some i =>
    let (s, n) := takeNonce s
    let s := setKeySide s port dev { keySide s port dev with lmk := i, mine := some n, theirs := none, derived := none }
    sendCtl s port dev (keyFlit 1 i false 0 n 0)

/-- Whether key setup is under way on a port, so that NONCE and CONFIRM count. -/
def keysDue (s : State) (port : Nat) : Bool :=
  if port < 48 then (lnkOf s port).st = .training && (lnkOf s port).resumed else (ethOf s (port - 48)).st = .up

/-- The master key of a setup: the one that the end with the lower device ID names. -/
def lmkOf (s : State) (port dev theirs : Nat) : Option (List Nat) :=
  let e := keyEnds s port dev
  tget? s.sec.lmk (if e.own ≤ e.peer then (keySide s port dev).lmk else theirs)

/-- NONCE received: keys are derived and CONFIRM goes out (R531). -/
def keyNonce (s : State) (port dev : Nat) (k : KeyFlit) : State :=
  if !keysDue s port then s
  else if (tget? s.sec.lmk k.lmk).isNone then keyFail (sendCtl s port dev (keyFlit 5 k.lmk false 0 0 0)) port dev 2
  else
    let s := if (keySide s port dev).mine.isNone then sendNonce s port dev else s
    let e := keyEnds s port dev
    match (keySide s port dev).mine, lmkOf s port dev k.lmk with
    | some mine, some lmk =>
      let salt := nonceBytes e mine k.nonce
      let tx := dirKey lmk salt e.own e.peer e.ownLink e.epoch
      let rx := dirKey lmk salt e.peer e.own e.peerLink e.epoch
      let side := keySide s port dev
      let s := setKeySide s port dev { side with theirs := some k.nonce, derived := some (tx, rx), lmk := if e.own ≤ e.peer then side.lmk else k.lmk }
      sendCtl s port dev (keyFlit 2 k.lmk false 0 0 (confirmMac lmk salt e.own))
    | _, _ => s

/-- CONFIRM received: the keys are installed, or key setup fails (R531). -/
def keyConfirm (s : State) (port dev : Nat) (k : KeyFlit) : State :=
  let side := keySide s port dev
  let e := keyEnds s port dev
  match keysDue s port, side.mine, side.theirs, side.derived, tget? s.sec.lmk side.lmk with
  | true, some mine, some theirs, some (tx, rx), some lmk =>
    if k.mac = confirmMac lmk (nonceBytes e mine theirs) e.peer then
      let s := setKeySide s port dev { side with derived := none, tx := some tx, rx := some rx, old := none, rekey := none }
      if port < 48 then lnkUp s port (lnkOf s port).epoch else s
    else keyFail (sendCtl s port dev (keyFlit 5 side.lmk false 0 0 0)) port dev 1
  | _, _, _, _, _ => s

/-- FAIL received (R531). -/
def keyFailed (s : State) (port dev : Nat) : State := if keysDue s port then keyFail s port dev 3 else s

/-- The key that a rekey installs (R532). -/
def rekeyed (k : DirKey) (nonce seq : Nat) : DirKey :=
  keyOfBytes (hkdf384 (leBytes 32 nonce) (leBytes 32 k.key) (rmlBytes ++ [0x20, 0x72, 0x65, 0x6B, 0x65, 0x79] ++ leBytes 4 seq) 38) (!k.phase) seq

/-- REKEY received: the new key for the other phase, and REKEY_ACK (R532). A copy is acknowledged again. -/
def keyRekey (s : State) (port dev : Nat) (k : KeyFlit) : State :=
  let side := keySide s port dev
  let ack := keyFlit 4 k.lmk k.phase k.seq 0 0
  match side.rx with
  | none => s
  | some rx =>
    if k.seq = rx.seq && 0 < rx.seq then sendCtl s port dev ack
    else if k.seq ≠ (rx.seq + 1) % 2 ^ 32 then s
    else sendCtl (setKeySide s port dev { side with rx := some (rekeyed rx k.nonce k.seq), old := some rx }) port dev ack

/-- REKEY_ACK received: the sender switches KEY_PHASE (R532). -/
def keyRekeyAck (s : State) (port dev : Nat) (k : KeyFlit) : State :=
  let side := keySide s port dev
  match side.rekey with
  | some (_, new) => if k.seq = new.seq then setKeySide s port dev { side with tx := some new, rekey := none } else s
  | none => s

/-- A rekey of the sending direction starts once its counter has reached 2^47 (R433). -/
def rekeyStart (s : State) (port dev : Nat) : State :=
  let side := keySide s port dev
  match side.tx, side.rekey with
  | some tx, none =>
    if tx.counter < 2 ^ 47 then s
    else
      let (s, n) := takeNonce s
      let new := rekeyed tx n ((tx.seq + 1) % 2 ^ 32)
      sendCtl (setKeySide s port dev { side with rekey := some (n, new) }) port dev (keyFlit 3 side.lmk new.phase new.seq n 0)
  | _, _ => s

/-- REKEY goes again (R532). -/
def rekeyAgain (s : State) (port dev : Nat) : State :=
  let side := keySide s port dev
  match side.rekey with
  | some (n, new) => sendCtl s port dev (keyFlit 3 side.lmk new.phase new.seq n 0)
  | none => s

/-- The receiver drops the old key (R433). -/
def oldKeyGone (s : State) (port dev : Nat) : State := setKeySide s port dev { keySide s port dev with old := none }

/-- A KEY flit received. -/
def takeKey (s : State) (port dev : Nat) (k : KeyFlit) : State :=
  if k.op = 1 then keyNonce s port dev k
  else if k.op = 2 then keyConfirm s port dev k
  else if k.op = 3 then keyRekey s port dev k
  else if k.op = 4 then keyRekeyAck s port dev k
  else if k.op = 5 then keyFailed s port dev
  else s

/-- Seal a frame that starts: phase, key, salt, counter (R432). -/
def sealFrame (s : State) (port : Nat) (f : Frame) : State × Frame :=
  let side := keySide s port f.dst
  match side.tx with
  | none => (s, f)
  | some k =>
    (setKeySide s port f.dst { side with tx := some { k with counter := k.counter + 1 } },
     { f with phase := k.phase, key := k.key, salt := k.salt, counter := k.counter, intact := true })

/-- The counter of the sending direction is used up and no new key is installed (R433). -/
def keySpent (s : State) (port dev : Nat) : Bool := (keySide s port dev).tx.elim false fun k => decide (2 ^ 48 ≤ k.counter + 1)

/-- Check a frame's tag; a frame under the new phase ends the old key (R432, R433). -/
def tagOk (s : State) (port : Nat) (f : Frame) : State × Bool :=
  let side := keySide s port f.src
  let fits (k : DirKey) : Bool := f.intact && k.phase = f.phase && f.key = k.key && f.salt = k.salt
  match side.rx with
  | none => (s, false)
  | some rx =>
    if fits rx then (if side.old.isSome then setKeySide s port f.src { side with old := none } else s, true)
    else (s, side.old.elim false fits)

end Sys2Proof.Machine
end

