-- ==== Sys2Proof/Machine/LinkFlits.lean ====
section
/-! DEFINITION. Flits: acks and credits (R416, R420), egress shapers and the scheduler (R437 to R441). -/
namespace Sys2Proof.Machine

/-! ### Credits -/

/-- Replace one entry of a five-pool list. -/
def poolSet (l : List Nat) (p v : Nat) : List Nat := modAt (fun _ => v) p l

/-- Credits of a pool of the partner that flits hold. -/
def creditsOut (l : Link) (p : Nat) : Nat := (l.sentCr.getD p 0 + 2 ^ 32 - l.backCr.getD p 0) % 2 ^ 32

/-- Credits of a pool of the partner that are free. -/
def creditsFree (l : Link) (p : Nat) : Nat := l.pools.getD p 0 - creditsOut l p

/-- Set the returned count of a pool; draws of the step pool end in order. -/
def setBack (l : Link) (p v : Nat) : Link :=
  let l := { l with backCr := poolSet l.backCr p v }
  if p = 1 then { l with draws := l.draws.drop (l.draws.length - creditsOut l 1 / 4) } else l

/-- Entries of a queue draw the credits they lack, in order. -/
def redrawQueue (s : State) (n q : Nat) : State :=
  (List.range (tget [] (lnkOf s n).queues q).length).foldl (fun s i =>
    let l := lnkOf s n
    setLnk s n { l with queues := tset l.queues q (modAt (drawCredits s l) i (tget [] l.queues q)) }) s

/-- Credits that came back go to the frames that wait, from queue 1 on (R279). -/
def redraw (s : State) (n : Nat) : State := [1, 2, 3, 4].foldl (fun s q => redrawQueue s n q) s

/-- The sender side takes a flit's ack and credits (R416, R420). -/
def takeHead (s : State) (n : Nat) (h : FlitHead) : State :=
  let l := lnkOf s n
  if l.st ≠ .up then s
  else
    let covered (l : List Flit) : Nat := match l.head? with
      | some f => let k := (h.ack + 1 + 2 ^ 16 - f.seq) % 2 ^ 16; if k ≤ l.length then k else 0
      | none => 0
    let l := { l with again := l.again.drop (covered l.again), replay := l.replay.drop (covered l.replay) }
    if h.pool < 5 && h.returned ≠ 0 then
      redraw (setLnk s n (setBack l h.pool ((l.backCr.getD h.pool 0 + h.returned) % 2 ^ 32))) n
    else setLnk s n l

/-- CREDIT_SYNC: the partner's counts replace the sender's (R416). -/
def creditSync (s : State) (n : Nat) (pools : List Nat) : State :=
  let l := (List.range 5).foldl (fun l p => setBack l p (pools.getD p 0 % 2 ^ 32)) (lnkOf s n)
  redraw (setLnk s n l) n

/-- The receiver owes credits of a pool. -/
def owe (l : Link) (p c : Nat) : Link := { l with owed := modAt (· + c) p l.owed }

/-- The header of a flit that a link sends: the ack, and the credits of the lowest pool that it owes. -/
def nextHead (l : Link) : Link × FlitHead :=
  match (List.range 5).find? fun p => 0 < l.owed.getD p 0 with
  | some p =>
    let c := Nat.min 8191 (l.owed.getD p 0)
    ({ l with owed := modAt (· - c) p l.owed, gaveCr := modAt (fun v => (v + c) % 2 ^ 32) p l.gaveCr }, ⟨l.lastIn, p, c⟩)
  | none => (l, ⟨l.lastIn, 7, 0⟩)

/-! ### Shapers (R441) -/

/-- Rate of a shaper. -/
def shaperRate (s : State) (port q : Nat) : Nat :=
  if port < 48 then fldAt s Reg.LNK_SHP_CFG.rate [port, q] else fldAt s Reg.ETH_SHP_CFG.rate [port - 48, q]

/-- Burst of a shaper in bytes. -/
def shaperBurst (s : State) (port q : Nat) : Nat :=
  1024 * (if port < 48 then fldAt s Reg.LNK_SHP_CFG.burst_kib [port, q] else fldAt s Reg.ETH_SHP_CFG.burst_kib [port - 48, q])

/-- Level of a shaper's bucket. -/
def shaperLevel (s : State) (port q : Nat) : Int :=
  if port < 48 then tget 0 (lnkOf s port).shapers q else tget 0 (ethOf s (port - 48)).shapers q

/-- Set a shaper's bucket; a level of zero is not listed. -/
def setShaper (s : State) (port q : Nat) (v : Int) : State :=
  let put (t : Tbl Int) : Tbl Int := if v = 0 then tdel t q else tset t q v
  if port < 48 then modLnk s port fun l => { l with shapers := put l.shapers } else modEth s (port - 48) fun e => { e with shapers := put e.shapers }

/-- A shaper lets a frame start. -/
def shaperOpen (s : State) (port q : Nat) : Bool := shaperRate s port q = 0 || decide (1 ≤ shaperLevel s port q)

/-- Charge a frame's shaped length to its shaper and to its partition's link regulator (R260, R441). -/
def chargeFrame (s : State) (port q : Nat) (partition : Option Nat) (bytes : Nat) : State :=
  let s := if shaperRate s port q = 0 then s else setShaper s port q (shaperLevel s port q - (bytes : Int))
  match partition with
  | some p => charge s p resLinks bytes
  | none => s

/-- Refill one shaper. -/
def refillShaper (s : State) (port q : Nat) : State :=
  if shaperRate s port q = 0 then s
  else setShaper s port q (min (shaperLevel s port q + (shaperRate s port q : Int)) ((shaperBurst s port q : Nat) : Int))

/-- Every port of the block. -/
def allPorts : List Nat := List.range 60

/-- Refill every shaper (R441). -/
def refillShapers (s : State) : State := allPorts.foldl (fun s port => (List.range 8).foldl (fun s q => refillShaper s port q) s) s

/-- A write of a shaper's configuration sets its bucket when it names the rate or the burst (R441). -/
def shaperWrite (s : State) (port q : Nat) (w : RegWrite) : State :=
  let (r, b, m, ix) := if port < 48 then (Reg.LNK_SHP_CFG.rate, Reg.LNK_SHP_CFG.burst_kib, Reg.LNK_SHP_CFG.reset_mode, [port, q])
    else (Reg.ETH_SHP_CFG.rate, Reg.ETH_SHP_CFG.burst_kib, Reg.ETH_SHP_CFG.reset_mode, [port - 48, q])
  let s := storeFields s w ix [r, b, m]
  if (wget w r).isNone && (wget w b).isNone then s
  else setShaper s port q (if fldAt s m ix = 1 then ((shaperBurst s port q : Nat) : Int) else 0)

/-! ### The scheduler of a native link (R437, R440) -/

/-- The first flit of a VC1 frame sent now arrives inside an express window (R437). -/
def expressOpen (s : State) (l : Link) (n : Nat) : Bool :=
  let period := fld s Reg.LNK_EXPCFG.period_ns
  fldAt s Reg.LNK_CTL.express [n] = 0 || period = 0 ||
    decide ((((s.timebase + l.delay : Nat) : Int) - (fld s Reg.LNK_EXPCFG.phase_ns : Int)) % (period : Int) < (fld s Reg.LNK_EXPCFG.window_ns : Int))

/-- A partition's link regulator admits a frame that starts (R259). -/
def regulated (s : State) (partition : Option Nat) : Bool := match partition with | some p => bucketOpen s p resLinks | none => true

/-- An entry may send its next flit. -/
def flitReady (s : State) (l : Link) (n q : Nat) (i : EgItem) : Bool :=
  decide (l.replay.length < 1024) && decide (4 ≤ creditsFree l (poolOf q)) && (i.cls.isNone || decide (4 ≤ i.heldReserve + i.heldShared)) &&
    (decide (0 < i.sent) || (regulated s i.partition && shaperOpen s n q && (q ≠ 1 || expressOpen s l n)))

/-- The entry of a queue that goes next: the frame that has started, else the oldest eligible one. -/
def pickItem (s : State) (l : Link) (n q : Nat) : Option (Nat × EgItem) :=
  let items := (tget [] l.queues q).zipIdx
  match items.find? fun i => 0 < i.1.sent with
  | some (i, k) => if flitReady s l n q i then some (k, i) else none
  | none => (items.find? fun i => flitReady s l n q i.1).map fun i => (i.2, i.1)

/-- A flit of a body under a header. -/
def mkFlit (h : FlitHead) (body : FlitBody) : Flit :=
  { seq := 0, ack := h.ack, vc := 0, sof := false, eof := false, pool := h.pool, returned := h.returned, body := body }

/-- Send a flit that is not a data flit. -/
def sendPlain (s : State) (n : Nat) (body : FlitBody) : State :=
  let (l, h) := nextHead (lnkOf s n)
  emit (setLnk s n l) (.flit n (mkFlit h body))

/-- Send the next flit of entry `k` of queue `q`. -/
def sendData (s : State) (n q k : Nat) (i : EgItem) (f : Frame) : State :=
  let start := i.sent = 0
  let (s, f) := if start then sealFrame s n f else (s, f)
  let s := if start then chargeFrame s n q i.partition (frameBytes f + fldAt s Reg.LNK_CTL.shp_ovh [n]) else s
  let (l, h) := nextHead (lnkOf s n)
  let reserve := decide (4 ≤ i.heldReserve)
  let fl : Flit := { seq := l.nextSeq, ack := h.ack, vc := f.vc, sof := start, eof := i.sent + 1 = i.flits, pool := h.pool, returned := h.returned,
                     body := .data f i.sent }
  let i := { i with body := .frame f, sent := i.sent + 1, heldReserve := if reserve then i.heldReserve - 4 else i.heldReserve,
                    heldShared := if reserve then i.heldShared else i.heldShared - 4 }
  let items := tget [] l.queues q
  let items := if i.sent = i.flits then items.eraseIdx k else modAt (fun _ => i) k items
  let l := { l with nextSeq := (l.nextSeq + 1) % 2 ^ 16, replay := l.replay ++ [fl], queues := tset l.queues q items,
                    sentCr := modAt (fun v => (v + 4) % 2 ^ 32) (poolOf q) l.sentCr,
                    draws := match i.cls with | some c => l.draws ++ [{ cls := c, reserve := reserve }] | none => l.draws }
  emit (setLnk s n l) (.flit n fl)

/-- The queues in their order; the first that can send does. -/
def schedule (s : State) (n : Nat) : List Nat → Option State
  | [] => none
  | q :: qs =>
    match pickItem s (lnkOf s n) n q with
    | some (k, i) =>
      match i.body with
      | .frame f => if i.sent = 0 && keySpent s n f.dst then some (lnkHeld s n true) else some (sendData s n q k i f)
      | .roce _ _ => schedule s n qs
    | none => schedule s n qs

/-- TSYNC is stamped as it leaves (R434). -/
def stampCtl (s : State) (n : Nat) (c : Ctl) : State × Ctl :=
  match c with
  | .tsync t =>
    let now := s.timebase
    let seen := ((lnkOf s n).synced.map (·.1)).getD 0
    (modLnk s n fun l => { l with sentT1 := some now }, .tsync { t with t1 := now, t2 := seen, t3 := if seen = 0 then 0 else now })
  | .hbAnswer k t _ => (s, .hbAnswer k t s.timebase)
  | c => (s, c)

/-- The first control flit that a link has to send goes. -/
def sendFirstCtl (s : State) (n : Nat) : Option State :=
  match (lnkOf s n).ctl with
  | c :: cs =>
    let s := modLnk s n fun l => { l with ctl := cs }
    let (s, c) := stampCtl s n c
    some (sendPlain s n (.ctl c))
  | [] => none

/-- A flit boundary of a native link: a control flit, the replay, the scheduler's choice, or an idle flit (R412, R420, R440). -/
def linkBoundary (s : State) (n : Nat) : State :=
  match sendFirstCtl s n with
  | some s => s
  | none =>
    let l := lnkOf s n
    if l.st ≠ .up then s
    else match l.again with
      | fl :: rest =>
        let (l, h) := nextHead { l with again := rest }
        emit (setLnk s n l) (.flit n { fl with ack := h.ack, pool := h.pool, returned := h.returned })
      | [] =>
        match schedule s n (List.range 8) with
        | some s => s
        | none => sendPlain s n .idle

/-! ### The receiver side of data flits (R420, R438) -/

/-- How the first flit of a VC1 frame arrives (R438): 0 inside the window, 1 in the guard band, 2 elsewhere. -/
def expressArrival (s : State) : Nat :=
  let period := fld s Reg.LNK_EXPCFG.period_ns
  let window := fld s Reg.LNK_EXPCFG.window_ns
  let guard := fld s Reg.LNK_EXPCFG.guard_ns
  if period = 0 then 0
  else
    let x := (((s.timebase : Int) - (fld s Reg.LNK_EXPCFG.phase_ns : Int)) % (period : Int)).toNat
    if x < window then 0 else if x < window + guard || period ≤ x + guard then 1 else 2

/-- Judge the arrival of a VC1 frame's first flit; at miss_limit misses within 1 ms express is suspended (R438, R439). -/
def judgeExpress (s : State) (n : Nat) : State :=
  if fldAt s Reg.LNK_CTL.express [n] = 0 then s
  else match expressArrival s with
    | 0 => s
    | 1 => bumpAt s Reg.LNK_EXPRESS.guard [n] 1
    | _ =>
      let s := bumpAt s Reg.LNK_EXPRESS.misses [n] 1
      let l := lnkOf s n
      let misses := (l.misses ++ [s.timebase]).filter fun t => decide (s.timebase < t + 1000000)
      if l.partnerSuspended || misses.length < fld s Reg.LNK_EXPCFG.miss_limit then setLnk s n { l with misses := misses }
      else
        let s := setLnk s n { l with misses := [], partnerSuspended := true, errLow := if l.err < 20 then some s.timebase else none,
                                     ctl := l.ctl ++ [.expressSuspend] }
        report s 0x1006 n l.epoch [n, 1]

/-- A frame whose flits keep their credits to the end: a step frame that the step pool holds whole. -/
def keepsCredits (f : Frame) (vc : Nat) : Bool := poolOf vc = 1 && decide (4 * frameFlits f ≤ 1536)

/-- The receive buffer takes a flit in order: the frame that it completes, if any. -/
def takeData (s : State) (n : Nat) (fl : Flit) (f : Frame) (index : Nat) : State × Option RxFrame :=
  let s := if fl.sof && fl.vc = 1 then judgeExpress s n else s
  let l := lnkOf s n
  let pool := poolOf fl.vc
  let cur : Option RxFrame :=
    if fl.sof then (if index = 0 then some { frame := f, next := 0, credits := 0 } else none)
    else (tget? l.rx fl.vc).bind fun r => if r.next = index then some r else none
  match cur with
  | none => (setLnk s n (owe { l with rx := tdel l.rx fl.vc } pool 4), none)
  | some r =>
    let keep := keepsCredits r.frame fl.vc
    let l := if keep then l else owe l pool 4
    let r := { r with next := index + 1, credits := if keep then r.credits + 4 else 0 }
    if fl.eof then (setLnk s n { l with rx := tdel l.rx fl.vc }, some r)
    else (setLnk s n { l with rx := tset l.rx fl.vc r }, none)

/-- RETRY goes once per gap (R420). -/
def askRetry (s : State) (n : Nat) : State :=
  let l := lnkOf s n
  if l.retrySent then s else setLnk s n { l with retrySent := true, ctl := l.ctl ++ [.retry ((l.lastIn + 1) % 2 ^ 16)] }

/-- The sender replays from the oldest flit not acknowledged, or from a sequence number (R420). -/
def replayFrom (s : State) (n : Nat) (seq : Option Nat) : State :=
  let l := lnkOf s n
  let from_ : List Flit := match seq with
    | none => l.replay
    | some q => l.replay.dropWhile fun f => f.seq ≠ q
  if l.st ≠ .up || from_.isEmpty then s else bumpAt (setLnk s n { l with again := from_ }) Reg.LNK_ERR.replays [n] 1

/-- Queued C0 frames of a suspended link move to VC2, demoted (R439). -/
def suspendExpress (s : State) (n : Nat) : State :=
  modLnk s n fun l =>
    let q1 := tget [] l.queues 1
    let demote (i : EgItem) : EgItem := match i.body with | .frame f => { i with body := .frame { f with vc := 2, demoted := true } } | _ => i
    let keep := q1.filter fun i => 0 < i.sent
    let move := (q1.filter fun i => i.sent = 0).map demote
    { l with suspended := true, queues := tset (tset l.queues 1 keep) 2 (tget [] l.queues 2 ++ move) }

end Sys2Proof.Machine
end

