-- ==== Sys2Proof/Machine/Rotary.lean ====
section
/-! DEFINITION. Rotary position (R173 to R175): correctly rounded cosines and sines of exact products, the
rotation, the exact values the quantizer sees. -/
namespace Sys2Proof.Machine

/-- `2^1500 · atan(1/q)` by its series; `n` terms are left, `pw` is `2^1500 / q^(2i+1)`. -/
def atanFix (q : Nat) : Nat → Nat → Nat → Int → Int
  | 0, _, _, acc => acc
  | n + 1, i, pw, acc =>
    let t : Int := (pw / (2 * i + 1) : Nat)
    atanFix q n (i + 1) (pw / (q * q)) (if i % 2 = 0 then acc + t else acc - t)

/-- `2^1500 · π`, by Machin's formula. -/
def piFix : Int := 16 * atanFix 5 330 0 (2 ^ 1500 / 5) 0 - 4 * atanFix 239 110 0 (2 ^ 1500 / 239) 0

/-- Bits of the fixed point in which a reduced angle is evaluated. -/
def trigBits : Nat := 400

/-- The Taylor series of sine (from `i = 1`) or cosine (from `i = 0`) at `r / 2^400`. -/
def trigSeries (r2 : Int) : Nat → Nat → Int → Int → Int
  | 0, _, _, acc => acc
  | n + 1, i, t, acc =>
    trigSeries r2 n (i + 2) (-(t * r2 / (2 ^ trigBits : Nat)) / (((i + 1) * (i + 2) : Nat) : Int)) (acc + t)

/-- Quadrant and remainder in `2^-400` of an angle: `φ = k · π/2 + r`. -/
def trigReduce (phi : Dyadic) : Int × Int :=
  let f := dFloor ⟨phi.m, phi.e + 1500⟩
  let k := 2 * f / piFix
  let r := (2 * f - k * piFix) / 2
  (k, r / (2 ^ (1500 - trigBits) : Nat))

/-- Sine and cosine of an angle to about 400 bits. -/
def sinCos (phi : Dyadic) : Dyadic × Dyadic :=
  let (k, r) := trigReduce phi
  let r2 := r * r / (2 ^ trigBits : Nat)
  let s : Dyadic := ⟨trigSeries r2 60 1 r 0, -(trigBits : Int)⟩
  let c : Dyadic := ⟨trigSeries r2 60 0 (2 ^ trigBits : Nat) 0, -(trigBits : Int)⟩
  match (k % 4).toNat with
  | 0 => (s, c)
  | 1 => (c, dNeg s)
  | 2 => (dNeg s, dNeg c)
  | _ => (dNeg c, s)

/-- Whether an angle is so small that its sine is the angle but for less than a rounding. -/
def tinyAngle (phi : Dyadic) : Bool := dLt (dAbs phi) ⟨1, -60⟩

/-- Just inside a nonzero value: one part in 2^64 less in magnitude. -/
def justInside (d : Dyadic) : Dyadic :=
  ⟨if d.m < 0 then d.m * (2 ^ 64 : Nat) + 1 else d.m * (2 ^ 64 : Nat) - 1, d.e - 64⟩

/-- A value rounded to nearest binary32 that cannot overflow. -/
def near32 (d : Dyadic) : Dyadic :=
  match rnd32 d with
  | .fin v => v
  | .over _ => d

/-- `c` and `s` of R173: cosine and sine of `p · ω`, each rounded to nearest binary32. -/
def rotCS (p : Nat) (omega : Dyadic) : Dyadic × Dyadic :=
  let phi := dMul (dInt p) omega
  if phi.m = 0 then (dInt 1, dZero)
  else if tinyAngle phi then (dInt 1, near32 (justInside phi))
  else
    let (s, c) := sinCos phi
    (near32 c, near32 s)

/-- The rate of a rotary table entry (binary64). -/
def rateOf (bits : Nat) : Dyadic :=
  match decodeFloat 11 52 bits with
  | .fin d => d
  | _ => dZero

/-- The pair of element `k`: its pair number and whether it is the first of the two; none outside the pairs. -/
def rotPair (rot : Nat) (adjacent : Bool) (k : Nat) : Option (Nat × Bool) :=
  if rot ≤ k then none
  else if adjacent then some (k / 2, k % 2 = 0)
  else if k < rot / 2 then some (k, true) else some (k - rot / 2, false)

/-- The position of the other element of the pair. -/
def rotMate (rot : Nat) (adjacent : Bool) (i : Nat) (first : Bool) : Nat :=
  if adjacent then (if first then 2 * i + 1 else 2 * i) else (if first then i + rot / 2 else i)

/-- Element `k` of a head vector after rotation, exact; none where an input it depends on is not finite
(R173, R193). -/
def rotElem (rot : Nat) (adjacent : Bool) (cs : List (Dyadic × Dyadic)) (v : List Elt) (k : Nat) : Option Dyadic :=
  let u := v.getD k eltZero
  match rotPair rot adjacent k with
  | none => if u.poison then none else some (eltVal u)
  | some (i, first) =>
    let w := v.getD (rotMate rot adjacent i first) eltZero
    let (c, s) := cs.getD i (dInt 1, dZero)
    if u.poison || w.poison then none
    else if first then some (dSub (dMul (eltVal u) c) (dMul (eltVal w) s))
    else some (dAdd (dMul (eltVal u) c) (dMul (eltVal w) s))

/-- A head vector after rotation. -/
def rotVec (rot : Nat) (adjacent : Bool) (cs : List (Dyadic × Dyadic)) (v : List Elt) : List (Option Dyadic) :=
  (List.range v.length).map (rotElem rot adjacent cs v)

/-- Q′ of R174: each rotated element rounded to binary32, poisoned where not finite or overflowing. -/
def roundQ (o : Option Dyadic) : Elt :=
  match o with
  | none => eltPoison
  | some d =>
    match rnd32 d with
    | .over _ => eltPoison
    | .fin v => if v.m = 0 then eltZero else ⟨v.m, v.e, false⟩

/-- The groups of a head vector (R128). -/
def quantVec (bx16 : Bool) (v : List (Option Dyadic)) : List Group :=
  (List.range (v.length / 16)).map fun j => quantizeGroup (groupQmax bx16) ((v.drop (16 * j)).take 16)

end Sys2Proof.Machine
end

