-- ==== Sys2Proof/Machine/AtnMath.lean ====
section
/-! DEFINITION. What the attention arithmetic must produce (R173 to R193, R232 to R236): logits, partial results,
merges, selection scores, the state-space branch, centroids. -/
namespace Sys2Proof.Machine

/-! ### Logits and partials (R189, R191) -/

/-- One slot's head vectors: K and V elements. -/
structure Slot where
  k : List Elt
  v : List Elt
  deriving DecidableEq, Repr

/-- One tile of logits: up to four query rows against up to four slots, elements `r·4 + c` (R191, R215): the terms
of four vector elements at a time, element by element. -/
def logitTile (rows : List (List Elt)) (slots : List Slot) (d : Nat) : Acc :=
  (List.range (d / 4)).foldl (fun a b =>
    idx16.foldl (fun a k => (List.range 4).foldl (fun a t =>
      let u := (rows.getD (k / 4) []).getD (4 * b + t) eltZero
      let v := ((slots.map (·.k)).getD (k % 4) []).getD (4 * b + t) eltZero
      (accProd a k u v false).getD a) a) a) {}

/-- A partial result of one query head or row: reference, exact numerators and denominator. -/
structure Partial where
  r : Int
  den : Dyadic
  num : List Dyadic
  ix : Bool
  poison : Bool
  deriving DecidableEq, Repr

/-- The reference before any key is visible. -/
def refNone : Int := -(2 ^ 30)

/-- Multiply by a power of two. -/
def dShift (d : Dyadic) (k : Int) : Dyadic := ⟨d.m, d.e + k⟩

/-- Merge two partials under the greater reference: an exact shift (R189). A shift beyond 4,096 places is cut there:
what is left lies below every bit that a rounding of the quotient sees. -/
def mergePartial (a b : Partial) : Partial :=
  let r := max a.r b.r
  let sc (p : Partial) (x : Dyadic) : Dyadic := if x.m = 0 then dZero else dShift x (max (p.r - r) (-4096))
  { r := r, den := dAdd (sc a a.den) (sc b b.den),
    num := (a.num.zip b.num).map fun x => dAdd (sc a x.1) (sc b x.2), ix := a.ix || b.ix, poison := a.poison || b.poison }

/-- Merge partials in their order. -/
def mergeAll (zero : Partial) (l : List Partial) : Partial :=
  match l with
  | [] => zero
  | p :: t => t.foldl mergePartial p

/-- A quiet NaN in an output format. -/
def outNan (bf : Bool) : Nat := if bf then 0x7FC0 else 0x7FC00000

/-- `o = N / D` rounded once to the output format (R189 step 6), NaN where poisoned (R193). -/
def divideOut (bf : Bool) (p : Partial) : List Nat :=
  p.num.map fun n =>
    if p.poison || decide (p.den.m ≤ 0) then outNan bf
    else if bf then encodeFloat 8 7 (roundTo bf16 n.m p.den.m.toNat (n.e - p.den.e))
    else encodeFloat 8 23 (roundTo f32 n.m p.den.m.toNat (n.e - p.den.e))

/-- The running state of a block of up to four query heads over a chain of crates (entry 0 of R215). -/
structure Chain where
  refs : List Int
  den : Acc := {}
  num : List Acc
  ix : Bool := false
  poison : List Bool
  /-- a reference left the range of RREF (R222): the job ends with EXP_RANGE -/
  range : Bool := false
  deriving DecidableEq, Repr

/-- A chain before its first crate. -/
def chainStart (d : Nat) : Chain :=
  { refs := List.replicate 4 refNone, num := List.replicate (d / 4) {}, poison := List.replicate 4 false }

/-- Scale the rows of an accumulator down (ASCL); an empty one does not change. -/
def scaleRows (a : Acc) (sh : List Int) : Acc :=
  match ascl a (sh.map fun x => max x 0) with
  | .ok b => b
  | .error _ => a

/-- The greatest logit of row `i` over the visible slots, none where none is visible. -/
def rowMax (tiles : List Acc) (n i : Nat) : Option Dyadic :=
  (List.range n).foldl (fun m t =>
    let u := accVal (tiles.getD (t / 4) {}) (4 * i + t % 4)
    match m with
    | none => some u
    | some b => some (dMax b u)) none

/-- Whether a row met a poisoned logit among the visible slots. -/
def rowPoison (tiles : List Acc) (n i : Nat) : Bool :=
  (List.range n).any fun t => (accAt (tiles.getD (t / 4) {}) (4 * i + t % 4)).poison

/-- The weight of slot `t` for row `i` under a reference (R189 step 4). -/
def weight (tiles : List Acc) (lam : Dyadic) (ref : Int) (n i t : Nat) : Elt :=
  if n ≤ t then eltZero
  else
    let a := dSub (dMul lam (accVal (tiles.getD (t / 4) {}) (4 * i + t % 4))) (dInt ref)
    if dLt a (dInt (-64)) then eltZero
    else
      let w := exp2Fixed a
      ⟨w.m, w.e, false⟩

/-- One crate of a chain: logits, references, weights, denominators and numerators (the program of entry 0). -/
def chainCrate (d : Nat) (lam : Dyadic) (rows : List (List Elt)) (slots : List Slot) (c : Chain) : Chain :=
  let n := slots.length
  let blocks := (List.range (ceilDiv n 4)).map fun b => (slots.drop (4 * b)).take 4
  let tiles := blocks.map fun b => logitTile rows b d
  let vPoison := slots.any fun s => s.v.any (·.poison)
  let poison := (List.range 4).map fun i =>
    c.poison.getD i false || vPoison || (decide (i < rows.length) && rowPoison tiles n i)
  let refs := (List.range 4).map fun i =>
    match rowMax tiles n i with
    | none => c.refs.getD i refNone
    | some m => max (c.refs.getD i refNone) (dCeil (dMul lam m))
  let sh := (List.range 4).map fun i => refs.getD i 0 - c.refs.getD i refNone
  let w (i t : Nat) : Elt := if rows.length ≤ i then eltZero else weight tiles lam (refs.getD i 0) n i t
  let den := (List.range (ceilDiv n 4)).foldl (fun a b =>
    idx16.foldl (fun a k => (accElt a k (w (k / 4) (4 * b + k % 4))).getD a) a) (scaleRows c.den sh)
  let num := c.num.zipIdx.map fun x => (List.range (ceilDiv n 4)).foldl (fun a b =>
    idx16.foldl (fun a k => (List.range 4).foldl (fun a t =>
      let v := ((slots.map (·.v)).getD (4 * b + t) []).getD (4 * x.2 + k % 4) eltZero
      (accProd a k (w (k / 4) (4 * b + t)) v false).getD a) a) a) (scaleRows x.1 sh)
  { refs := refs, den := den, num := num, poison := poison,
    ix := c.ix || tiles.any (·.ix) || den.ix || num.any (·.ix),
    range := c.range || (List.range rows.length).any fun i =>
      match rowMax tiles n i with
      | some m => !poison.getD i false && decide (2 ^ 30 ≤ (dCeil (dMul lam m)).natAbs)
      | none => false }

/-- The partial of row `i` of a chain: the front end sums the denominator tile's columns (R189). -/
def chainPartial (c : Chain) (d i : Nat) : Partial :=
  { r := c.refs.getD i refNone
    den := (List.range 4).foldl (fun x j => dAdd x (accVal c.den (4 * i + j))) dZero
    num := (List.range d).map fun e => accVal (c.num.getD (e / 4) {}) (4 * i + e % 4)
    ix := c.ix
    poison := c.poison.getD i false }

/-- A crate as a reader sees it: index, the slots of one head that are visible, and where it lies. -/
structure View where
  index : Nat
  nbu : Nat
  slots : List Slot
  deriving DecidableEq, Repr

/-- The chains of a decode message: one per NBU in ascending crate order, at most 64 crates each (DESIGN CHOICE on
the cutting; R203 allows 64), in ascending order of the lowest crate index. -/
def chainsOf (vs : List View) : List (List View) :=
  let nbus := (vs.map (·.nbu)).foldl (fun acc a => if acc.contains a then acc else acc ++ [a]) ([] : List Nat)
  (nbus.map fun n =>
    let l := vs.filter (·.nbu = n)
    (List.range (ceilDiv l.length 64)).map fun k => (l.drop (64 * k)).take 64).flatten

/-- Decode attention of one KV head: query rows of its group against the visited crates (R184, R189), and whether a
job ended with EXP_RANGE. -/
def decodeHead (d : Nat) (lam : Dyadic) (qs : List (List Elt)) (vs : List View) : List Partial × Bool :=
  let chains := chainsOf vs
  (List.range (ceilDiv qs.length 4)).foldl (fun acc b =>
    let rows := (qs.drop (4 * b)).take 4
    let cs := chains.map fun ch => ch.foldl (fun c v => chainCrate d lam rows v.slots c) (chainStart d)
    let ps := rows.zipIdx.map fun x =>
      let p := mergeAll ⟨refNone, dZero, List.replicate d dZero, false, false⟩ (cs.map fun c => chainPartial c d x.2)
      { p with poison := p.poison || x.1.any (·.poison) }
    (acc.1 ++ ps, acc.2 || cs.any (·.range))) ([], false)

/-! ### The dense engine's ATTN_BLOCK (R232) -/

/-- A query row of a block: its position and Q′. -/
structure QRow where
  pos : Nat
  q : List Elt
  deriving DecidableEq, Repr

/-- The running state of one row: reference, denominator in element 0, numerators by sixteens. -/
structure RowState where
  ref : Int := refNone
  den : Acc := {}
  num : List Acc
  ix : Bool := false
  poison : Bool := false
  deriving DecidableEq, Repr

/-- A crate of a tile command's list: index and the slots that may be read, `visible` of them. -/
structure TileCrate where
  index : Nat
  slots : List Slot
  deriving DecidableEq, Repr

/-- Slots of a crate that the row at `p` sees (R171, R232). -/
def seen (c : TileCrate) (p : Nat) : Nat :=
  if p < 64 * c.index then 0 else Nat.min c.slots.length (p + 1 - 64 * c.index)

/-- Shift every element of an accumulator down by `k`. -/
def scaleAcc (a : Acc) (k : Int) : Acc := scaleRows a [k, k, k, k]

/-- One crate for one row, given the row's logits of the crate. -/
def rowCrate (lam : Dyadic) (us : List (Elt × Bool)) (vs : List (List Elt)) (s : RowState) : RowState :=
  if us.isEmpty then s
  else
    let bad := us.any (·.1.poison) || vs.any fun v => v.any (·.poison)
    let m := us.foldl (fun m u => match m with | none => some (eltVal u.1) | some b => some (dMax b (eltVal u.1)))
      (none : Option Dyadic)
    let ref := max s.ref (dCeil (dMul lam (m.getD dZero)))
    let sh := ref - s.ref
    let ws := us.map fun u =>
      let a := dSub (dMul lam (eltVal u.1)) (dInt ref)
      if u.1.poison || dLt a (dInt (-64)) then eltZero else let w := exp2Fixed a; ⟨w.m, w.e, false⟩
    let den := ws.foldl (fun a w => (accElt a 0 w).getD a) (scaleAcc s.den sh)
    let num := s.num.zipIdx.map fun x => (ws.zip vs).foldl (fun a wv =>
      idx16.foldl (fun a k => (accProd a k wv.1 (wv.2.getD (16 * x.2 + k) eltZero) false).getD a) a) (scaleAcc x.1 sh)
    { ref := ref, den := den, num := num, poison := s.poison || bad,
      ix := s.ix || us.any (·.2) || den.ix || num.any (·.ix) }

/-- ATTN_BLOCK over a crate list: the state of every row (R232). Logits form in tiles of four consecutive rows
against four consecutive slots (R191). -/
def attnBlock (d : Nat) (lam : Dyadic) (rows : List QRow) (crates : List TileCrate) : List RowState :=
  let start := rows.map fun r => ({ num := List.replicate (d / 16) {}, poison := r.q.any (·.poison) } : RowState)
  crates.foldl (fun sts c =>
    let tile (rb sb : Nat) : Acc :=
      logitTile (((rows.drop (4 * rb)).take 4).map (·.q)) ((c.slots.drop (4 * sb)).take 4) d
    (rows.zip sts).zipIdx.map fun x =>
      let n := seen c x.1.1.pos
      let us := (List.range n).map fun t =>
        let a := tile (x.2 / 4) (t / 4)
        (accAsElt a (4 * (x.2 % 4) + t % 4), a.ix)
      rowCrate lam us ((c.slots.take n).map (·.v)) x.1.2) start

/-- The partial of a row. -/
def rowPartial (d : Nat) (s : RowState) : Partial :=
  { r := s.ref, den := accVal s.den 0, num := (List.range d).map fun e => accVal (s.num.getD (e / 16) {}) (e % 16),
    ix := s.ix, poison := s.poison }

/-- The partial record of a row (R232 rule 6). -/
def rowRecord (s : RowState) : List Nat :=
  leBytes 4 (ofSigned 32 (if s.poison then intMin else s.ref)) ++ leBytes 4 (b2n s.ix + 2 * b2n s.poison) ++
    packAcc s.den ++ (s.num.map packAcc).flatten

/-- A partial record read back. -/
def recordPartial (d : Nat) (b : List Nat) : Partial :=
  let fl := leAt b 4 4
  rowPartial d { ref := toSigned 32 (leAt b 0 4), den := unpackAcc (slice b 8 208),
                 num := (List.range (d / 16)).map fun i => unpackAcc (slice b (216 + 208 * i) 208),
                 ix := bitOf fl 0, poison := bitOf fl 1 }

/-- Bytes of a partial record. -/
def recordBytes (d : Nat) : Nat := 8 + (1 + d / 16) * 208

/-- Cut a visited list into pieces (R240). -/
def piecesOf {α : Type} (chunk : Nat) (l : List α) : List (List α) :=
  let full := l.length / chunk
  let rest := l.length % chunk
  let ps := (List.range full).map fun k => (l.drop (chunk * k)).take chunk
  if rest = 0 then ps
  else if 0 < full ∧ 4 * rest < chunk ∧ chunk + rest ≤ 1024 then
    ps.dropLast ++ [l.drop (chunk * (full - 1))]
  else ps ++ [l.drop (chunk * full)]

/-! ### Scores (R181, R233) -/

/-- The greatest product of the query rows with a centroid, none where a centroid group is poisoned. -/
def scoreOf (qs : List (List Elt)) (cent : List Elt) : Option Dyadic :=
  if cent.any (·.poison) then none
  else qs.foldl (fun m q =>
    let u := (q.zip cent).foldl (fun s x => dAdd s (dMul (eltVal x.1) (eltVal x.2))) dZero
    match m with
    | none => some u
    | some b => some (dMax b u)) none

/-- Order of candidates: higher score first, −∞ last, higher index on a tie (R181). -/
def betterScore (a b : Nat × Option Dyadic) : Bool :=
  match a.2, b.2 with
  | none, none => decide (b.1 < a.1)
  | none, some _ => false
  | some _, none => true
  | some x, some y => dLt y x || (!dLt x y && decide (b.1 < a.1))

/-- The `k` best candidates. -/
def selectBest (k : Nat) (l : List (Nat × Option Dyadic)) : List Nat := ((sortBy betterScore l).take k).map (·.1)

/-! ### State-space branch (R186, R187) -/

/-- The quotient of two positive-denominator values to 64 bits. -/
def fdiv (a b : Dyadic) : Dyadic :=
  if b.m = 0 then dZero
  else
    let (m, e) := roundRat 64 (-1000000) a.m.natAbs b.m.natAbs (a.e - b.e)
    ⟨if (decide (a.m < 0)) = (decide (b.m < 0)) then m else -(m : Int), e⟩

/-- `2^t` to about 38 bits. -/
def exp2Near (t : Dyadic) : Dyadic :=
  let fl := dFloor t
  let frac := (dFloor ⟨t.m, t.e + 40⟩ - fl * (2 ^ 40 : Nat)).toNat
  ⟨(exp2Frac frac : Nat), fl - 40⟩

/-- log2(e) as in R360's constant, to 64 bits. -/
def log2e64 : Dyadic := ⟨26613026195688644984, -64⟩

/-- `z / (1 + 2^(-z·log2 e))`. -/
def gateOf (z : Dyadic) : Dyadic :=
  let a := dNeg (dMul z log2e64)
  if dLt a (dInt (-200)) then z
  else if dLt (dInt 200) a then (if dLt (dInt 100000) a then dZero else dMul z (exp2Near (dNeg a)))
  else fdiv z (dAdd (dInt 1) (exp2Near a))

/-- `1 / √v` to about 64 bits. -/
def rsqrtNear (v : Dyadic) : Dyadic :=
  if v.m ≤ 0 then dZero
  else
    let sh : Int := if v.e % 2 = 0 then 0 else 1
    let n := v.m.toNat * 2 ^ sh.toNat
    let k := Nat.log2 n + 130
    let k := k + k % 2
    ⟨(isqrt (2 ^ (k * 2) / n) : Nat), -((v.e - sh) / 2) - k⟩

/-- A binary32 result, free where it falls outside the format. -/
def free32 (d : Dyadic) : Nat :=
  match rnd32 d with
  | .fin v => encodeFloat 8 23 (.fin v)
  | .over _ => Config.overflow32 d % 2 ^ 32

/-- A state-space output: the exact value moved inside its bound of R187 by a free offset, then rounded. -/
def ssmOut (d : Dyadic) : Nat :=
  let k : Int := (Config.ssmOffset d % 1025 : Nat) - 512
  free32 (dAdd d (dShift (dMul d (dInt k)) (-31)))

/-- A quiet NaN of binary32. -/
def nan32 : Nat := 0x7FC00000

/-- The inputs of one state-space head for one token, elements decoded: x, z, B, C, Δ. -/
structure SsmIn where
  x : List Elem
  z : List Elem
  b : List Elem
  c : List Elem
  delta : Elem
  deriving DecidableEq, Repr

/-- Whether every input is finite and Δ is not negative (R193). -/
def ssmInOk (i : SsmIn) : Bool :=
  (i.x ++ i.z ++ i.b ++ i.c).all (fun e => match e with | .fin _ => true | _ => false) &&
    (match i.delta with | .fin d => decide (0 ≤ d.m) | _ => false)

/-- The finite value of an element, 0 where it has none. -/
def elemVal (e : Elem) : Dyadic := match e with | .fin d => d | _ => dZero

/-- One token of one state-space head: the new state (P·N binary32 patterns) and the P outputs, NaN where the inputs
or the state are not finite. -/
def ssmToken (p n : Nat) (eps : Dyadic) (gateAfter noNorm : Bool) (a : Nat) (dd gamma : List Nat) (i : SsmIn)
    (st : List Nat) : List Nat × List Nat × Bool :=
  let bad := !ssmInOk i || st.any fun b => match decode32 b with | .fin _ => false | _ => true
  if bad then (List.replicate (p * n) nan32, List.replicate p nan32, true)
  else
    let delta := elemVal i.delta
    let alpha := exp2Fixed (dMax (dMul delta (val32 a)) (dInt (-2000)))
    let s1 := (List.range (p * n)).map fun k =>
      free32 (dAdd (dMul alpha (val32 (st.getD k 0)))
        (dMul (dMul delta (elemVal (i.x.getD (k / n) (.fin dZero)))) (elemVal (i.b.getD (k % n) (.fin dZero)))))
    let y := (List.range p).map fun q =>
      val32 (free32 ((List.range n).foldl (fun acc k =>
        dAdd acc (dMul (val32 (s1.getD (q * n + k) 0)) (elemVal (i.c.getD k (.fin dZero)))))
        (dMul (val32 (dd.getD q 0)) (elemVal (i.x.getD q (.fin dZero))))))
    let gate := (List.range p).map fun q => gateOf (elemVal (i.z.getD q (.fin dZero)))
    if noNorm then (s1, (y.zip gate).map fun yg => ssmOut (dMul yg.1 yg.2), false)
    else
      let v := if gateAfter then y else (y.zip gate).map fun yg => dMul yg.1 yg.2
      let ms := fdiv (v.foldl (fun acc x => dAdd acc (dMul x x)) dZero) (dInt p)
      let r := rsqrtNear (dAdd ms eps)
      let out := (List.range p).map fun q =>
        ssmOut (dMul (dMul (dMul (v.getD q dZero) r) (val32 (gamma.getD q 0)))
          (if gateAfter then gate.getD q dZero else dInt 1))
      (s1, out, false)

/-- binary32 to an output format. -/
def outFmt (bf : Bool) (b : Nat) : Nat :=
  if !bf then b else match decode32 b with
    | .fin d => encodeFloat 8 7 (roundTo bf16 d.m 1 d.e)
    | .inf neg => b2n neg * 2 ^ 15 + 0x7F80
    | .nan => 0x7FC0

/-! ### Centroids (R177) -/

/-- quantize_group of the quotients of sixteen exact sums by `den`. -/
def quantizeMean (sums : List Dyadic) (den : Nat) : Group :=
  let e := (sums.map (·.e)).foldl min 0
  let ns := sums.map fun d => dScale d e
  let a := maxOf (ns.map Int.natAbs)
  if a = 0 ∨ den = 0 then ⟨0, List.replicate 16 0⟩
  else
    let ok (s : Int) : Bool :=
      let sh := s - e
      if 0 ≤ sh then decide (a ≤ 63 * 2 ^ sh.toNat * den) else decide (a * 2 ^ (-sh).toNat ≤ 63 * den)
    let s0 : Int := (Nat.log2 a : Int) - (Nat.log2 (63 * den) : Int) + e - 1
    let s := max (if ok s0 then s0 else if ok (s0 + 1) then s0 + 1 else s0 + 2) (-126)
    ⟨(s + 127).toNat, ns.map fun n =>
      let sh := e - s
      let q := if 0 ≤ sh then divEven (n.natAbs * 2 ^ sh.toNat) den else divEven n.natAbs (den * 2 ^ (-sh).toNat)
      if n < 0 then -(q : Int) else q⟩

/-- The centroid groups of a head from the K vectors of its committed slots. -/
def centroidOf (d : Nat) (ks : List (List Elt)) : List Group :=
  (List.range (d / 16)).map fun j =>
    let cols := (List.range 16).map fun i => ks.map fun k => k.getD (16 * j + i) eltZero
    if cols.any fun c => c.any (·.poison) then ⟨255, List.replicate 16 0⟩
    else quantizeMean (cols.map fun c => c.foldl (fun s u => dAdd s (eltVal u)) dZero) ks.length

end Sys2Proof.Machine
end

