-- ==== Sys2Proof/Machine/Hatch.lean ====
section
/-! DEFINITION. The hatch: headroom (R293 to R295), the C0 projection (R300 to R304), tallies (R311 to R316),
latency tracking (R306 to R310), the checks in their order (R291). -/
namespace Sys2Proof.Machine

/-- A report limited to once per second per key, carrying the count since the last one: the tables of last times
and counts after it, and the count to post if it is due. -/
def perSecond (at_ cnt : Tbl Nat) (now key : Nat) : Tbl Nat × Tbl Nat × Option Nat :=
  let n := tget 0 cnt key + 1
  if duePerSecond (tget? at_ key) now then (tset at_ key now, tset cnt key 0, some n)
  else (at_, tset cnt key n, none)

/-! ### Latency (R306 to R310) -/

/-- The histogram bucket of a value in ns (R310). -/
def histBucket (ns : Nat) : Nat := if ns < 1024 then 0 else Nat.min 31 (Nat.log2 ns - 9)

/-- Count a value in a class's histogram: metric 0 TTFT, 1 TBT, 2 step residency, 3 layer residency. -/
def recordHist (s : State) (cls metric ns : Nat) : State :=
  let k := cls * 4 + metric
  let h := tget [] s.hatch.hist k
  let b := histBucket ns
  { s with hatch := { s.hatch with hist := tset s.hatch.hist k (tset h b (satAdd 32 (tget 0 h b) 1)) } }

/-- The TBT bucket of a tracking entry (HAT_TRK). -/
def trackBucket (ns : Nat) : Nat := if ns < 16384 then 0 else Nat.min 15 (Nat.log2 ns - 13)

/-- Update a session's tracking entry, where it has one. -/
def modTrack (s : State) (x : Session) (f : Track → Track) : State :=
  match x.latency.tracked with
  | some i => { s with hatch := { s.hatch with track := tmodIf s.hatch.track i f } }
  | none => s

/-- Give a C0 session a tracking entry if one is free (R309). -/
def assignTrack (s : State) (h : Nat) (promoted : Bool) : State :=
  match sessOf s h with
  | none => s
  | some x =>
    if x.cls ≠ 0 then s
    else match firstFree s.hatch.track 8192 with
      | some i =>
        let s := { s with hatch := { s.hatch with track := tset s.hatch.track i { handle := h } } }
        setSess s { x with latency := { x.latency with tracked := some i } }
      | none => if promoted then report s 0x0904 0 0 [h] else s

/-- Free a session's tracking entry (R309). -/
def freeTrack (s : State) (x : Session) : State :=
  match x.latency.tracked with
  | some i => { s with hatch := { s.hatch with track := tdel s.hatch.track i } }
  | none => s

/-- Part 0 of a TEXT chunk of a session was posted now: it ends a TTFT or a TBT measurement (R306, R307). -/
def textPosted (s : State) (h : Nat) : State :=
  match sessOf s h with
  | none => s
  | some x =>
    let now := s.timebase
    if x.latency.ttftOpen then
      let ns := Nat.min (now - x.tStart) (2 ^ 40 - 1)
      let s := recordHist s x.cls 0 (now - x.tStart)
      let s := modTrack s x fun t => { t with ttftNs := ns }
      setSess s { x with tLast := now, latency := { x.latency with ttftNs := ns, ttftOpen := false } }
    else if x.state = .active then
      let ns := now - x.tLast
      let s := recordHist s x.cls 1 ns
      let s := modTrack s x fun t =>
        { t with tokens := wrapAdd 32 t.tokens 1, tbtSum := wrapAdd 64 t.tbtSum ns,
                 tbtMax := Nat.max t.tbtMax (Nat.min ns (2 ^ 32 - 1)),
                 buckets := tset t.buckets (trackBucket ns) (wrapAdd 32 (tget 0 t.buckets (trackBucket ns)) 1) }
      setSess s { x with tLast := now, latency := { x.latency with
        tbtMaxNs := Nat.max x.latency.tbtMaxNs (Nat.min ns (2 ^ 32 - 1)) } }
    else setSess s { x with tLast := now }

/-- The step residency of a session's step on the home (R308). -/
def recordResidency (s : State) (h ns : Nat) : State :=
  match sessOf s h with
  | none => s
  | some x =>
    let v := Nat.min ns (2 ^ 32 - 1)
    let s := modTrack s x fun t => { t with resMax := Nat.max t.resMax v }
    setSess s { x with latency := { x.latency with resMaxNs := Nat.max x.latency.resMaxNs v } }

/-! ### Tallies (R311 to R316) -/

/-- A tally is metered. -/
def tallyMetered (s : State) (i : Nat) : Bool := fldAt s Reg.HAT_TALLY.unmetered [i] = 0

/-- The balance of a tally. -/
def tallyBalance (s : State) (i : Nat) : Nat := fldAt s Reg.HAT_TALLY.balance [i]

/-- Add to a balance, saturating at 48 bits (R314). -/
def tallyAdd (s : State) (i n : Nat) : State := setFldAt s Reg.HAT_TALLY.balance [i] (satAdd 48 (tallyBalance s i) n)

/-- The balance was raised: TALLY_EMPTY may be posted again (R315). -/
def tallyRaised (s : State) (i : Nat) : State :=
  { s with sess := { s.sess with table := tmap (fun _ x => if x.customer = i then { x with tallyEmpty := false } else x) s.sess.table } }

/-- Draw tokens from a balance into the held count. -/
def tallyDraw (s : State) (i n : Nat) : State :=
  let s := setFldAt s Reg.HAT_TALLY.balance [i] (tallyBalance s i - n)
  setFldAt s Reg.HAT_TALLY.held [i] (fldAt s Reg.HAT_TALLY.held [i] + n)

/-- Take tokens out of the held count. -/
def tallyUnhold (s : State) (i n : Nat) : State :=
  setFldAt s Reg.HAT_TALLY.held [i] (fldAt s Reg.HAT_TALLY.held [i] - n)

/-- Return held tokens to the balance. -/
def tallyGiveBack (s : State) (i n : Nat) : State :=
  if n = 0 then s else tallyRaised (tallyAdd (tallyUnhold s i n) i n) i

/-- Return every token a session holds (R314). -/
def tallyReturn (s : State) (h : Nat) : State :=
  match sessOf s h with
  | none => s
  | some x => tallyGiveBack (setSess s { x with heldIn := 0, heldOut := 0 }) x.customer (x.heldIn + x.heldOut)

/-- The charge of a sealed step: the input of the verb it seals and one output token leave the held count. -/
def tallyCharge (s : State) (h : Nat) : State :=
  match sessOf s h with
  | none => s
  | some x =>
    let o := Nat.min 1 x.heldOut
    tallyUnhold (setSess s { x with heldIn := 0, heldOut := x.heldOut - o }) x.customer (x.heldIn + o)

/-- After tokenizing, the reservation above the real input charge returns (R313). -/
def tallyTrim (s : State) (h real : Nat) : State :=
  match sessOf s h with
  | none => s
  | some x => if real < x.heldIn then tallyGiveBack (setSess s { x with heldIn := real }) x.customer (x.heldIn - real) else s

/-! ### Headroom (R293 to R295) -/

/-- Crate pages of a session's format. -/
def cratePages (p : Params) (bx16 : Bool) : Nat := pagesOf (crateBytes bx16 p.kvHeads p.headDim)
/-- Strip page pages. -/
def stripPages (p : Params) : Nat := pagesOf (stripBytes p.kvHeads p.headDim)

/-- Hosted layers of a block in a range, with ATTN, with SSM. -/
def attnLayers (s : State) (serial : Nat) (p : Params) (first last : Nat) : List Nat :=
  (hostedLayers s serial p).filter fun l => decide (first ≤ l) && decide (l ≤ last) && (layerEntry p l).attn
/-- Hosted state-space layers of a range. -/
def ssmLayers (s : State) (serial : Nat) (p : Params) (first last : Nat) : List Nat :=
  (hostedLayers s serial p).filter fun l => decide (first ≤ l) && decide (l ≤ last) && (layerEntry p l).ssm

/-- Pages of the keep-set objects of a session that are not RESIDENT: crate pool, slab pool. -/
def keepNeed (s : State) (x : Session) : Headroom :=
  (keepSet s x).foldl (fun h id =>
    match objOf s id with
    | some o =>
      if o.state = .resident then h
      else if o.kind = .slab then { h with slab := h.slab + pagesOf o.size } else { h with crate := h.crate + pagesOf o.size }
    | none => h) {}

/-- New crates and strip pages of an input of `t` tokens (R294). -/
def inputNeed (s : State) (x : Session) (p : Params) (t first last : Nat) : Nat :=
  sumOf ((attnLayers s (hSerial x.handle) p first last).map fun l =>
    let c := ceilDiv t 64 + 1
    c * cratePages p x.bx16 + (if isSelective s x (layerEntry p l) then ceilDiv c 64 * stripPages p else 0))

/-- The need of an opening (or step 0). -/
def openNeed (s : State) (x : Session) (p : Params) (t first last : Nat) : Headroom :=
  { crate := inputNeed s x p t first last, slab := (ssmLayers s (hSerial x.handle) p first last).length * pagesOf (slabSize p) }

/-- New crates of a resume: no strip page of new crates is listed for it. -/
def resumeNeed (s : State) (x : Session) (p : Params) (t first last : Nat) : Headroom :=
  let k := keepNeed s x
  { k with crate := k.crate + (attnLayers s (hSerial x.handle) p first last).length * ((ceilDiv t 64 + 1) * cratePages p x.bx16) }

/-- The need of a decode entry. -/
def decodeNeed (s : State) (x : Session) (p : Params) (first last : Nat) : Headroom :=
  let k := keepNeed s x
  if x.length % 64 = 0 then { k with crate := k.crate + (attnLayers s (hSerial x.handle) p first last).length * cratePages p x.bx16 } else k

/-- Outstanding headroom reservations of a partition in a pool (R295). -/
def reservedRoom (s : State) (slab : Bool) (part : Nat) : Nat :=
  let pick (h : Headroom) : Nat := if slab then h.slab else h.crate
  sumOf (s.sess.table.map fun p => if p.2.partition = part then pick p.2.headroom else 0) +
    sumOf (s.steps.parts.map fun q =>
      if ((tget? s.contexts q.context).map (·.partition)) = some part then sumOf (q.entries.map fun e => pick e.headroom) else 0)

/-- Whether a sink of an object writes nothing (R150): clean, with a lower copy. -/
def sinkFree (o : Obj) : Bool := !o.dirty && o.lower.isSome

/-- The reclaimable space of a partition in a pool (R293). -/
def reclaimable (s : State) (slab : Bool) (part : Nat) : Nat :=
  let low := decide ((storeUnits s - storeUsed s) * 1000 < fld s Reg.LAD_WM.store_low * storeUnits s) && (usableTargets s).isEmpty
  let victims := (poolObjs s slab).filter fun x => evictable x.2 && (!x.2.inShare || x.2.partition = part) && (!low || sinkFree x.2)
  (poolShare s slab part - shareUsed s slab part) + (sharedPages s slab - sharedUsed s slab) +
    sumOf (victims.map (·.2.pages)) - reservedRoom s slab part

/-- Whether a need fits (check 3). -/
def headroomOk (s : State) (part : Nat) (h : Headroom) : Bool :=
  (h.crate = 0 || decide (h.crate ≤ reclaimable s false part)) && (h.slab = 0 || decide (h.slab ≤ reclaimable s true part))

/-- The input token estimate T (R294). -/
def estimateT (s : State) (isTokens : Bool) (inLen : Nat) : Nat :=
  if isTokens then inLen / 4
  else if 1048576 < inLen then fld s Reg.TOK_CFG.head + fld s Reg.TOK_CFG.tail + 1 else inLen

/-! ### The C0 projection (R300 to R304) -/

/-- The configured clock in MHz of an island, by CLOCKS index: attic stack k is index k, dense half h is 6 + h in
the section's order; `dflt` where the image gives none. -/
def clockMhz (s : State) (i dflt : Nat) : Nat :=
  let c := s.lay.active.clocks.getD i 0
  if c = 0 then dflt else c

/-- Cycles at a clock in MHz, in ns rounded up. -/
def cyclesNs (cycles mhz : Nat) : Nat := ceilDiv (cycles * 1000) mhz

/-- Usable tiles that a command of a part can reach (R301). -/
def reachTiles (s : State) : Nat :=
  let n (h : Nat) : Nat := ((usableTiles s).filter fun t => tileHalf t = h).length
  if flag s Reg.DEN_CFG.cross then n 0 + n 1
  else
    let halves := (List.range 2).filter fun h =>
      (List.range 3).any fun b => ((s.lay.active.bays.getD (3 * h + b) {}).personality ≠ 0)
    match minBy id (halves.map n) with | some m => m | none => 0

/-- The largest head set of R240. -/
def headSetSize (p : Params) : Nat := Nat.max 1 (Nat.min p.group (65536 / (64 * p.headDim)))

/-- The head sets of a KV head: sizes. -/
def headSets (p : Params) : List Nat :=
  let q := headSetSize p
  (List.range (ceilDiv p.group q)).map fun i => Nat.min q (p.group - q * i)

/-- Piece sizes of R240 for a visited list of `m` crates. -/
def pieceSizes (chunk m : Nat) : List Nat := (piecesOf chunk (List.range m)).map (·.length)

/-- Tile cycles of a block of `n` tokens at `pos` over every KV head (R237, R239, R240): the sum, and the longest
QUANT_APPEND, ATTN_BLOCK and ROWMAX summed. -/
def blockCycles (p : Params) (pos n chunk strips : Nat) : Nat × Nat :=
  let d := p.headDim
  let subs := (List.range (ceilDiv n 64)).map fun i => (i, Nat.min 64 (n - 64 * i))
  let app := (subs.map fun x => [64 + ceilDiv (x.2 * p.group * p.kvHeads * d) 256, 64 + ceilDiv (x.2 * p.kvHeads * d) 256,
    64 + ceilDiv (x.2 * p.kvHeads * d) 256]).flatten
  let att := (subs.map fun x =>
    let m := (pos + 64 * x.1 + x.2 - 1) / 64 + 1
    ((headSets p).map fun qc => (pieceSizes chunk m).map fun pc => 64 + pc * ceilDiv (x.2 * qc) 64 * d / 2).flatten).flatten
  let rowRuns := (List.range (ceilDiv (n * p.group) 1024)).map fun i => Nat.min 1024 (n * p.group - 1024 * i)
  let rmx := ((List.range (ceilDiv strips 64)).map fun i =>
    rowRuns.map fun r => 64 + Nat.min 64 (strips - 64 * i) * ceilDiv r 64 * d / 4).flatten
  (sumOf app + p.kvHeads * (sumOf att + sumOf rmx), maxOf app + maxOf att + maxOf rmx)

/-- Add cycles to an NBU's ledger entry of one layer. -/
def addCost (l : List LedgerCost) (layer nbu scoring visit : Nat) : List LedgerCost :=
  if l.any fun c => c.layer = layer && c.nbu = nbu && c.tile = 0 then
    modFirst (fun c => c.layer = layer && c.nbu = nbu && c.tile = 0)
      (fun c => { c with scoring := c.scoring + scoring, visit := c.visit + visit }) l
  else l ++ [{ layer := layer, nbu := nbu, scoring := scoring, visit := visit, tile := 0, tileMax := 0 }]

/-- The NBU of crate `c` of a session's layer: where it lies, or where it would be placed. -/
def crateNbu (s : State) (x : Session) (layer c : Nat) : Nat :=
  match (mapped s (hKey x.handle) .crate layer c).bind (objOf s) with
  | some o => if o.attic then o.nbu else (placeNbu s x.partition (hSerial x.handle) layer c).getD 0
  | none => (placeNbu s x.partition (hSerial x.handle) layer c).getD 0

/-- NBUs of a session's slab in a layer. -/
def slabNbus (s : State) (x : Session) (p : Params) (layer : Nat) : List Nat :=
  let span := slabSpan (slabSize p) s.lay.active.attic.slabKib
  match (mapped s (hKey x.handle) .slab layer 0).bind (objOf s) with
  | some o => (List.range o.span).map (o.nbu + ·)
  | none =>
    match placeSlab s (slabSize p) span with
    | some (n, _) => (List.range span).map (n + ·)
    | none => []

/-- Crates that a KV head is counted to visit (R300): the last selected set and the always-kept crates, or every
crate. -/
def countedCrates (s : State) (x : Session) (p : Params) (layer h pos n : Nat) : List Nat :=
  let tail := (pos + n - 1) / 64
  let all := List.range (tail + 1)
  match tget? s.atn.selected (selKey (hKey x.handle) layer) with
  | some sel =>
    if isSelective s x (layerEntry p layer) then
      all.filter fun c => c = 0 || decide (tail < c + windowOf p) || decide (pos / 64 ≤ c) || (sel.getD h []).contains c
    else all
  | none => all

/-- The projected cost of a request: `n` tokens at `pos`, in the hosted layers of a range (R300). -/
def projCost (s : State) (x : Session) (p : Params) (first last : Nat) (block : Bool) (pos n : Nat) : List LedgerCost :=
  let g := groupBytes x.bx16
  let d := p.headDim
  let visit := Nat.max (2 * p.group * d) (ceilDiv (2 * d * g) 7)
  let chunk := fld s Reg.DEN_CFG.chunk_crates
  let sel (l : Nat) : Bool := isSelective s x (layerEntry p l)
  let strips := ceilDiv (ceilDiv pos 64) 64
  let tile : List LedgerCost := if block then
      (attnLayers s (hSerial x.handle) p first last).map fun l =>
        let c := blockCycles p pos n chunk (if sel l then strips else 0)
        { layer := l, nbu := 0, scoring := 0, visit := 0, tile := c.1, tileMax := c.2 }
    else []
  let atn : List LedgerCost := if block then [] else
    (attnLayers s (hSerial x.handle) p first last).foldl (fun acc l =>
      let acc := (List.range p.kvHeads).foldl (fun acc h =>
        (countedCrates s x p l h pos n).foldl (fun acc c => addCost acc l (crateNbu s x l c) 0 visit) acc) acc
      if sel l then
        (List.range strips).foldl (fun acc k => addCost acc l (crateNbu s x l (64 * k)) (p.kvHeads * p.group * d) 0) acc
      else acc) []
  let span := slabSpan (slabSize p) s.lay.active.attic.slabKib
  let tok := Nat.max (ceilDiv (3 * p.ssmHeads * p.ssmP * p.ssmN) (16 * span)) (ceilDiv (8 * slabSize p) (224 * span))
  let all := (ssmLayers s (hSerial x.handle) p first last).foldl (fun acc l =>
    (slabNbus s x p l).foldl (fun acc nb => addCost acc l nb 0 (n * tok)) acc) atn
  tile ++ all

/-- Every cost of the ledgers in a layer, with extra cost added. -/
def layerCosts (s : State) (extra : List LedgerCost) (layer : Nat) : List LedgerCost :=
  (((s.hatch.ledger.map (·.costs)).flatten) ++ extra).filter (·.layer = layer)

/-- The NBU term of a layer in ns (R301): each entry at the clock of its NBU's island, then the largest scoring and
visit entries, then interference. -/
def nbuTerm (s : State) (extra : List LedgerCost) (layer : Nat) : Nat :=
  let cs := (layerCosts s extra layer).filter fun c => decide (0 < c.scoring + c.visit)
  if cs.isEmpty then 0
  else
    let nbus := cs.foldl (fun acc c => if acc.contains c.nbu then acc else acc ++ [c.nbu]) ([] : List Nat)
    let mhz (n : Nat) : Nat := clockMhz s (n / 1024) 800
    let sc := maxOf (nbus.map fun n => cyclesNs (sumOf ((cs.filter (·.nbu = n)).map (·.scoring))) (mhz n))
    let vi := maxOf (nbus.map fun n => cyclesNs (sumOf ((cs.filter (·.nbu = n)).map (·.visit))) (mhz n))
    let low := match minBy id (nbus.map mhz) with | some m => m | none => 800
    sc + vi + cyclesNs (3 * fld s Reg.HAT_PROJ.lowjob_cycles) low

/-- The lowest configured dense clock among halves with usable tiles. -/
def denseMhz (s : State) : Nat :=
  match minBy id ((List.range 2).filterMap fun h =>
      if (usableTiles s).any fun t => tileHalf t = h then some (clockMhz s (6 + h) 1600) else none) with
  | some m => m
  | none => 1600

/-- The tile term of a layer in ns, `none` where it has no bound (R301). A layer with no tile work has none. -/
def tileTerm (s : State) (extra : List LedgerCost) (layer : Nat) : Option Nat :=
  let cs := (layerCosts s extra layer).filter fun c => decide (0 < c.tile)
  if cs.isEmpty then some 0
  else
    let m := reachTiles s
    if m = 0 then none
    else
      let c := fld s Reg.DEN_CFG.chunk_crates
      let other := 64 + Nat.min (c + ceilDiv c 4 - 1) 1024 * 512
      let longest := maxOf ((extra.filter fun e => e.layer = layer).map (·.tileMax))
      some (cyclesNs (other + ceilDiv (sumOf (cs.map (·.tile))) m + longest) (denseMhz s))

/-- The checks of R302 with a cost added: every layer within layer_ns, the sum within step_ns; `home` is the number
of C0 sessions of the part at the home, 0 elsewhere. -/
def envelopeOk (s : State) (cost : List LedgerCost) (home : Nat) : Bool :=
  let layers := cost.foldl (fun acc c => if acc.contains c.layer then acc else acc ++ [c.layer]) ([] : List Nat)
  let proj := layers.map fun l => (tileTerm s cost l).map (nbuTerm s cost l + ·)
  proj.all (fun o => match o with | some n => decide (n ≤ fld s Reg.HAT_C0.layer_ns) | none => false) &&
    decide (sumOf (proj.map fun o => o.getD 0 + 8000) +
      (if home = 0 then 0 else fld s Reg.HAT_PROJ.home_base_ns + home * fld s Reg.HAT_PROJ.home_per_ns) ≤ fld s Reg.HAT_C0.step_ns)

/-- Add an admitted cost to the ledgers. -/
def ledgerAdd (s : State) (h : Nat) (ref : Option Nat) (cost : List LedgerCost) : State :=
  { s with hatch := { s.hatch with ledger := s.hatch.ledger ++ [{ handle := h, stepRef := ref, costs := cost }] } }

/-- Remove a session's part from the ledgers: its own items and those of its verb (R302). -/
def ledgerDrop (s : State) (h : Nat) : State :=
  { s with hatch := { s.hatch with ledger := s.hatch.ledger.filter (·.handle ≠ h) } }

/-- A C0 step runs outside the envelope (R304): OUTSIDE, the counters, the event once per second per context. -/
def noteOutside (s : State) (h ctx : Nat) : State :=
  let s := bump s Reg.HAT_COUNT.outside
  let s := modSess s h fun x => { x with latency := { x.latency with outside := true } }
  let s := match sessOf s h with | some x => modTrack s x fun t => { t with outside := wrapAdd 32 t.outside 1 } | none => s
  match perSecond s.hatch.outsideAt s.hatch.outsideCount s.timebase ctx with
  | (a, c, due) =>
    let s := { s with hatch := { s.hatch with outsideAt := a, outsideCount := c } }
    match due with | some n => report s 0x0902 ctx 0 [ctx, n] | none => s

/-! ### The checks (R291) -/

/-- A refusal of a check: counted by kind, HATCH_REFUSE once per second per check (R318). -/
def hatchRefused (s : State) (check : Nat) : State :=
  let s := if check = 3 then bump s Reg.HAT_COUNT.refused_mem
    else if check = 5 then bump s Reg.HAT_COUNT.refused_time
    else if check = 6 || check = 7 then bump s Reg.HAT_COUNT.refused_budget else s
  if flag s Reg.HAT_CFG.refuse_evt then
    match perSecond s.hatch.refuseAt s.hatch.refuseCount s.timebase check with
    | (a, c, due) =>
      let s := { s with hatch := { s.hatch with refuseAt := a, refuseCount := c } }
      match due with | some n => report s 0x0901 check 0 [check, n] | none => s
  else s

/-- Check 1: the partition's class_mask and the context's class_floor. -/
def classOk (s : State) (ctx part cls : Nat) : Bool :=
  bitOf (partEntry s part).classMask cls && decide (fldAt s Reg.HAT_CTX.class_floor [ctx] ≤ cls)

/-- Open sessions of a context other than SHADOW homed here, of a class where asked. -/
def openSessions (s : State) (ctx : Nat) (c0 : Bool) : Nat :=
  (s.sess.table.filter fun p => hCtx p.2.handle = ctx && !p.2.guest && p.2.state ≠ .free && (!c0 || p.2.cls = 0)).length

/-- Check 6: the context budget (R317). -/
def budgetOk (s : State) (ctx cls : Nat) : Bool :=
  let ms := fldAt s Reg.HAT_CTX.max_sessions [ctx]
  let m0 := fldAt s Reg.HAT_CTX.max_c0 [ctx]
  (ms = 0 || decide (openSessions s ctx false + 1 ≤ ms)) && (cls ≠ 0 || m0 = 0 || decide (openSessions s ctx true + 1 ≤ m0))

/-- The outcome of the hatch. -/
inductive Verdict where
  | refuse (check : Nat) (st : Status) (detail : Nat)
  | accept (room : Headroom) (cost : List LedgerCost) (outside : Bool) (draw : Nat)
  deriving DecidableEq, Repr

/-- The hatch's decision on SES_OPEN and SES_RESUME: `x` the session as it would stand, `t` the estimate (R290 to
R294, R313). -/
def decideVerb (s : State) (x : Session) (p : Params) (open_ : Bool) (t : Nat) : Verdict :=
  let ctx := hCtx x.handle
  let room := if open_ then openNeed s x p t 0 255 else resumeNeed s x p t 0 255
  let cost := if x.cls = 0 then projCost s x p 0 255 true (if open_ then 0 else x.length) (Nat.max t 1) else []
  let fits := x.cls ≠ 0 || envelopeOk s cost 1
  let draw := t + Nat.min (fld s Reg.HAT_CFG.out_chunk) x.maxTokens
  if open_ && !classOk s ctx x.partition x.cls then .refuse 1 .protection 0x2
  else if !headroomOk s x.partition room then .refuse 3 .noCapacity 0x5
  else if open_ && x.cls = 0 && (firstFree s.hatch.track 8192).isNone then .refuse 4 .noCapacity 0x7
  else if !fits && !flag s Reg.HAT_C0.over_mode then .refuse 5 .noCapacity 0x6
  else if open_ && !budgetOk s ctx x.cls then .refuse 6 .budgetExhausted 0x2
  else if tallyMetered s x.customer && decide (tallyBalance s x.customer < draw) then .refuse 7 .budgetExhausted 0x1
  else .accept room (if fits then cost else []) (!fits) (if tallyMetered s x.customer then draw else 0)

/-- The hatch's decision on a descriptor entry (R290, R291): checks 2, 3, 5, 7. `home` is the count of C0 sessions
of the part at the home with this one, 0 on another participant. -/
def decideEntry (s : State) (x : Session) (p : Params) (descCls first last : Nat) (block : Bool) (tokens home : Nat) : Verdict :=
  let room := if block then (if x.step = 0 then openNeed s x p tokens first last else resumeNeed s x p tokens first last)
    else decodeNeed s x p first last
  let cost := if descCls = 0 then projCost s x p first last block x.length tokens else []
  let fits := descCls ≠ 0 || envelopeOk s cost home
  let bal := tallyBalance s x.customer
  let need := home ≠ 0 && x.heldOut = 0 && tallyMetered s x.customer
  if !x.guest && decide (x.cls < descCls) then .refuse 2 .protection 0x3
  else if !headroomOk s x.partition room then .refuse 3 .noCapacity 0x5
  else if !fits && !flag s Reg.HAT_C0.over_mode then .refuse 5 .noCapacity 0x6
  else if need && bal = 0 then .refuse 7 .budgetExhausted 0x1
  else .accept room (if fits then cost else []) (!fits)
    (if need then Nat.min bal (Nat.min (fld s Reg.HAT_CFG.out_chunk) x.maxTokens) else 0)

end Sys2Proof.Machine
end

