-- ==== Sys2Proof/Machine/TokenFns.lean ====
section
/-! DEFINITION. The functions of the token services: table images, tokenizer, sampler, detokenizer (chapter
"Tokens, sampling and embeddings"). -/
namespace Sys2Proof.Machine

/-! ### Tokenizing (R353, R354) -/

/-- Whether byte string `p` begins with the bytes of `t`. -/
def isPrefix : List Nat → List Nat → Bool
  | [], _ => true
  | _ :: _, [] => false
  | a :: t, b :: p => a = b && isPrefix t p

/-- The longest matchable token at the head of the input, with its length: (token, length). Special tokens are
never matched; strings are unique among the others (R352). -/
def longestToken (v : Vocab) (p : List Nat) : Option (Nat × Nat) :=
  (v.strings.zip v.special).zipIdx.foldl (fun best x =>
    let str := x.1.1
    if x.1.2 || str.isEmpty || decide (64 < str.length) || !isPrefix str p then best
    else match best with
      | some (_, len) => if len < str.length then some (x.2, str.length) else best
      | none => some (x.2, str.length)) none

/-- Greedy longest-match tokenizing (R353); `fuel` bounds the tokens by the bytes. -/
def tokenizeGo (v : Vocab) : Nat → List Nat → List Nat
  | 0, _ => []
  | f + 1, p =>
    match p with
    | [] => []
    | _ :: rest =>
      match longestToken v p with
      | some (t, len) => t :: tokenizeGo v f (p.drop len)
      | none => tokenizeGo v f rest

/-- The tokens of a byte string. -/
def tokenize (v : Vocab) (p : List Nat) : List Nat := tokenizeGo v p.length p

/-- A UTF-8 continuation byte. -/
def isCont (b : Nat) : Bool := b / 64 = 2

/-- The head length h of R354. -/
def headCut (data : List Nat) (head : Nat) : Nat :=
  match (List.range 4).find? fun k => !isCont (data.getD (head - k) 0) with
  | some k => head - k
  | none => head

/-- The tail start s of R354. -/
def tailCut (data : List Nat) (len tail : Nat) : Nat :=
  match (List.range 4).find? fun k => !isCont (data.getD (len - tail + k) 0) with
  | some k => len - tail + k
  | none => len - tail

/-- The length limit of a text input. -/
def textLimit : Nat := 1048576

/-- The tokens of a text input, cut by the head-and-tail rule where it is over the limit (R354). -/
def tokenizeText (v : Vocab) (head tail inLen : Nat) (data : List Nat) : List Nat :=
  if inLen ≤ textLimit then tokenize v (data.take inLen)
  else
    let h := headCut data head
    let s := tailCut data inLen tail
    tokenize v (data.take h) ++ [v.marker] ++ tokenize v ((data.take inLen).drop s)

/-! ### Sampling (R360 to R362) -/

/-- A logit as the sampler sees it: NaN and −∞ are none, +∞ is the largest finite value. -/
def logitOf (e : Elem) : Option Dyadic :=
  match e with
  | .fin d => some d
  | .inf true => none
  | .inf false => some fltMax
  | .nan => none

/-- Decode a logit pattern: format 0 BF16, 1 FP16, 2 binary32. -/
def decodeLogit (fmt bits : Nat) : Elem :=
  if fmt = 2 then decode32 bits else decode16 (fmt = 1) bits

/-- The distinct elements of a list, first occurrences in order. -/
def distinct (l : List Nat) : List Nat := l.foldl (fun acc a => if acc.contains a then acc else acc ++ [a]) []

/-- Apply the repetition penalty to one logit. -/
def penalise (pen : Nat) (d : Dyadic) : Dyadic :=
  if 0 < d.m then sat32 (d.m * 4096) pen d.e else sat32 (d.m * pen) 4096 d.e

/-- Index of the greatest logit, the lowest ID on a tie. -/
def argmaxGo : List (Option Dyadic) → Nat → Option (Nat × Dyadic) → Option (Nat × Dyadic)
  | [], _, best => best
  | none :: t, i, best => argmaxGo t (i + 1) best
  | some d :: t, i, best =>
    match best with
    | some (j, b) => argmaxGo t (i + 1) (if dLt b d then some (i, d) else some (j, b))
    | none => argmaxGo t (i + 1) (some (i, d))

/-- `keep_largest`: the `n` greatest logits stay, ties keep the lower ID, the others become −∞. -/
def keepLargest (l : List (Option Dyadic)) (n : Nat) : List (Option Dyadic) :=
  let ranked := sortBy (fun a b => dLt b.1 a.1) (l.zipIdx.filterMap fun x => x.1.map fun d => (d, x.2))
  let keep := (ranked.take n).map (·.2)
  l.zipIdx.map fun x => if keep.contains x.2 then x.1 else none

/-- The cut of R360; 0 means no cut. -/
def cutOf (topK topP : Nat) : Nat :=
  if topP = 0 then topK else if 1 ≤ topK ∧ topK ≤ 1024 then topK else 1024

/-- The shortest leading run whose sum reaches the threshold. -/
def nucleusRun : List (Nat × Nat) → Nat → Nat → List Nat
  | [], _, _ => []
  | (w, i) :: t, acc, thr => i :: (if thr ≤ acc + w then [] else nucleusRun t (acc + w) thr)

/-- `keep_nucleus`. -/
def keepNucleus (w : List Nat) (thr : Nat) : List Nat :=
  let ranked := sortBy (fun a b => decide (b.1 < a.1)) (w.zipIdx.filter fun x => decide (0 < x.1))
  let keep := nucleusRun ranked 0 thr
  w.zipIdx.map fun x => if keep.contains x.2 then x.1 else 0

/-- LOG2E of R360: the binary32 0x3FB8_AA3B. -/
def log2e : Dyadic := ⟨12102203, -23⟩

/-- The weight of a logit against the maximum. -/
def weightOf (mx : Dyadic) (minP : Nat) (l : Option Dyadic) : Nat :=
  match l with
  | none => 0
  | some d =>
    match rnd32 (dSub d mx) with
    | .over _ => 0
    | .fin x =>
      match rnd32 (dMul x log2e) with
      | .over _ => 0
      | .fin t =>
        if dLt t (dInt (-32)) then 0
        else
          let r := exp2Fixed t
          let w := (roundRat 64 0 r.m.natAbs 1 (r.e + 31)).1
          if minP ≠ 0 ∧ w < minP * 2 ^ 15 then 0 else w

/-- draw(seed, step) of R362. -/
def draw (seed step : Nat) : Nat := leNat ((sha256 (leBytes 8 seed ++ leBytes 4 step)).take 8)

/-- The final scan in ascending token ID. -/
def scanDraw : List Nat → Nat → Nat → Option Nat
  | [], _, _ => none
  | w :: t, i, x => if x < w then some i else scanDraw t (i + 1) (x - w)

/-- The sampler of R360, over the masked set `allowed` (automaton mask and NO_SPECIAL): the token and whether
R361 chose it. -/
def sample (p : Sampler) (allowed : List Bool) (history : List Nat) (lg : List Elem) (seed step : Nat) : Nat × Bool :=
  let l0 := (lg.zip allowed).map fun x => if x.2 then logitOf x.1 else none
  let pen := (distinct history).foldl (fun l t => modAt (fun o => o.map (penalise p.repPen)) t l) l0
  match argmaxGo pen 0 none with
  | none => ((allowed.zipIdx.find? (·.1)).elim 0 (·.2), true)
  | some (best, _) =>
    if p.temp = 0 then (best, false)
    else
      let l := pen.map fun o => o.map fun d => sat32 (d.m * 4096) p.temp d.e
      let c := cutOf p.topK p.topP
      let l := if c = 0 then l else keepLargest l c
      match argmaxGo l 0 none with
      | none => (best, false)
      | some (_, mx) =>
        let w := l.map (weightOf mx p.minP)
        let w := if p.topP = 0 then w else keepNucleus w (ceilDiv (p.topP * sumOf w) 65536)
        ((scanDraw w 0 (draw seed step * sumOf w / 2 ^ 64)).getD best, false)

/-! ### Constraint automata (R364, R365) -/

/-- The states of automaton `a` (from 1): first state and count. -/
def autoRange (c : Constr) (a : Nat) : Nat × Nat := c.autos.getD (a - 1) (0, 0)

/-- Whether the automaton word names a state of the table. -/
def autoOk (c : Option Constr) (a q : Nat) : Bool :=
  if a = 0 then true
  else match c with
    | none => false
    | some c => decide (a ≤ c.autos.length) && decide ((autoRange c a).1 ≤ q) &&
        decide (q < (autoRange c a).1 + (autoRange c a).2)

/-- The mask of state `q`. -/
def maskAt (c : Constr) (q : Nat) : Nat := c.masks.getD (c.states.getD q ⟨0, 0, []⟩).mask 0

/-- The state after token `t` (R365). -/
def nextAuto (c : Option Constr) (a q t : Nat) : Nat :=
  if a = 0 then q
  else match c with
    | none => q
    | some c =>
      let st := c.states.getD q ⟨0, q, []⟩
      match st.trans.find? (·.1 = t) with
      | some (_, n) => n
      | none => st.dflt

/-- The tokens a session may draw: automaton mask, and NO_SPECIAL except for its park and end tokens. -/
def allowedSet (v : Vocab) (c : Option Constr) (p : Sampler) (park end_ : Option Nat) : List Bool :=
  v.special.zipIdx.map fun x =>
    let i := x.2
    let byAuto := p.autoId = 0 || (match c with | some c => bitOf (maskAt c p.autoState) i | none => true)
    byAuto && !(p.noSpecial && x.1 && park ≠ some i && end_ ≠ some i)

/-! ### Detokenizing (R366, R114) -/

/-- How many bytes a UTF-8 lead byte calls for (RFC 3629); 0 for a byte that leads nothing. -/
def utf8Len (b : Nat) : Nat :=
  if b < 0x80 then 1 else if 0xC2 ≤ b ∧ b ≤ 0xDF then 2 else if 0xE0 ≤ b ∧ b ≤ 0xEF then 3
  else if 0xF0 ≤ b ∧ b ≤ 0xF4 then 4 else 0

/-- Whether `b` may follow lead byte `lead` at position `i` (1 to 3). -/
def utf8Follows (lead i b : Nat) : Bool :=
  let lo := if i = 1 ∧ lead = 0xE0 then 0xA0 else if i = 1 ∧ lead = 0xF0 then 0x90 else 0x80
  let hi := if i = 1 ∧ lead = 0xED then 0x9F else if i = 1 ∧ lead = 0xF4 then 0x8F else 0xBF
  decide (lo ≤ b) && decide (b ≤ hi)

/-- The longest well-formed start of a sequence at the head of the bytes: its length. -/
def goodRun (lead n : Nat) : Nat → Nat → List Nat → Nat
  | 0, i, _ => i
  | f + 1, i, l =>
    match l with
    | [] => i
    | b :: t => if i < n && utf8Follows lead i b then goodRun lead n f (i + 1) t else i

/-- Split bytes into emitted text and held bytes: complete sequences pass, a start that may still complete is
held, each maximal ill-formed subsequence becomes EF BF BD. `fuel` bounds the sequences. -/
def detokGo : Nat → List Nat → List Nat → List Nat × List Nat
  | 0, _, acc => (acc, [])
  | f + 1, l, acc =>
    match l with
    | [] => (acc, [])
    | b :: t =>
      let n := utf8Len b
      if n = 0 then detokGo f t (acc ++ [0xEF, 0xBF, 0xBD])
      else
        let k := goodRun b n 3 1 t
        if k = n then detokGo f (l.drop n) (acc ++ l.take n)
        else if k = l.length then (acc, l)
        else detokGo f (l.drop k) (acc ++ [0xEF, 0xBF, 0xBD])

/-- Detokenize: text emitted and bytes held. -/
def detok (held str : List Nat) : List Nat × List Nat := detokGo (held.length + str.length) (held ++ str) []

/-- Cut text into the parts of R114: at most 40 bytes each, one empty part for no bytes. -/
def textParts : Nat → List Nat → List (List Nat)
  | 0, l => [l]
  | f + 1, l => if l.length ≤ 40 then [l] else l.take 40 :: textParts f (l.drop 40)

/-! ### Table images (R346, R351, R352, R364, R367) -/

/-- Why a table image is refused: order 1 (structure) or order 2 (digest) of R348. -/
inductive TableFault where
  | structure_ | digest
  deriving DecidableEq, Repr

/-- The hash entries of a vocabulary that are valid: (index, crc, token, length, string). -/
def vocabHash (kh body : List Nat) : List (Option (Nat × Nat × List Nat)) :=
  let b := leAt kh 8 4
  let ho := leAt kh 0x14 4
  let so := leAt kh 0x1C 4
  (List.range b).map fun i =>
    let e := leAt body (ho + 16 * i) 16
    if bitOf e 63 then
      let len := bitsOf e 50 6 + 1
      some (bitsOf e 0 32, bitsOf e 32 18, slice body (so + bitsOf e 64 32) len)
    else none

/-- The valid run that ends at entry `i`, counted back to the bucket of its CRC, is unbroken and short
enough. -/
def probeOk (hash : List (Option (Nat × Nat × List Nat))) (b maxRun i crc : Nat) : Bool :=
  let start := crc % b
  let n := (i + b - start) % b + 1
  decide (n ≤ maxRun) && (List.range n).all fun k => ((hash.getD ((start + k) % b) none).isSome)

/-- Parse and check a vocabulary (R351, R352). -/
def parseVocab (kh body : List Nat) : Option Vocab :=
  let v := leAt kh 0 4
  let marker := leAt kh 4 4
  let b := leAt kh 8 4
  let maxRun := leAt kh 12 1
  let mo := leAt kh 0x10 4
  let dof := leAt kh 0x18 4
  let so := leAt kh 0x1C 4
  let sl := leAt kh 0x20 4
  let dec := (List.range v).map fun t => leAt body (dof + 8 * t) 8
  let strs := dec.map fun e => slice body (so + bitsOf e 0 32) (bitsOf e 32 7)
  let spec := dec.map fun e => bitOf e 40
  let hash := vocabHash kh body
  let entries := hash.zipIdx.filterMap fun x => x.1.map fun h => (x.2, h)
  let header := decide (257 ≤ v) && decide (v ≤ 262144) && decide (marker < v) && decide (v ≤ b) &&
    decide (2 ^ Nat.log2 b = b) && decide (1 ≤ maxRun) && decide (maxRun ≤ 16) && leAt kh 13 3 = 0 &&
    leAt kh 0x24 28 = 0 && decide (mo + 2048 ≤ body.length) && decide (leAt kh 0x14 4 + 16 * b ≤ body.length) &&
    decide (dof + 8 * v ≤ body.length) && decide (so + sl ≤ body.length)
  let decOk := dec.all fun e => decide (bitsOf e 32 7 ≤ 64) && bitsOf e 41 23 = 0 && bitOf e 39 = false &&
    decide (bitsOf e 0 32 + bitsOf e 32 7 ≤ sl)
  let hashOk := entries.all fun (i, crc, tok, str) =>
    decide (tok < v) && spec.getD tok true = false && strs.getD tok [] = str && crc32c str = crc &&
      probeOk hash b maxRun i crc
  let once := spec.zipIdx.all fun x => x.1 || ((entries.filter fun e => e.2.2.1 = x.2).length = 1)
  let bytes := (List.range 256).all fun c => entries.any fun e => e.2.2.2 = [c]
  let masks := (List.range 256).all fun c =>
    leAt body (mo + 8 * c) 8 =
      maskOf (distinct ((entries.filter fun e => e.2.2.2.head? = some c).map fun e => e.2.2.2.length - 1))
  if header && decOk && hashOk && once && bytes && masks then some ⟨marker, strs, spec⟩ else none

/-- Parse and check a constraint table against the bound vocabulary's size (R364). -/
def parseConstr (kh body : List Nat) (boundV : Option Nat) : Option Constr :=
  let f (i : Nat) := leAt kh (4 * i) 4
  let v := f 0
  let a := f 1
  let ns := f 2
  let nm := f 3
  let autos := (List.range a).map fun i => (leAt body (f 4 + 8 * i) 4, leAt body (f 4 + 8 * i + 4) 4)
  let states := (List.range ns).map fun i =>
    let e := leAt body (f 5 + 16 * i) 16
    let tr := (List.range (bitsOf e 96 16)).map fun k =>
      let x := leAt body (f 6 + 8 * (bitsOf e 64 32 + k)) 8
      (bitsOf x 0 18, bitsOf x 32 32)
    ({ mask := bitsOf e 0 32, dflt := bitsOf e 32 32, trans := tr } : AutoState)
  let mbytes := ceilDiv v 64 * 8
  let masks := (List.range nm).map fun i => leAt body (f 8 + mbytes * i) mbytes
  let transOk := (List.range ns).all fun i =>
    let e := leAt body (f 5 + 16 * i) 16
    decide (bitsOf e 64 32 + bitsOf e 96 16 ≤ f 7) && bitsOf e 112 16 = 0
  let inRange := autos.all fun (q0, n) => decide (q0 + n ≤ ns) && ((states.drop q0).take n).all fun st =>
    decide (q0 ≤ st.dflt) && decide (st.dflt < q0 + n) && decide (st.mask < nm) &&
      st.trans.all fun t => decide (q0 ≤ t.2) && decide (t.2 < q0 + n)
  let maskOk := masks.all fun m => decide (0 < m % 2 ^ v)
  let fits := decide (f 4 + 8 * a ≤ body.length) && decide (f 5 + 16 * ns ≤ body.length) &&
    decide (f 6 + 8 * f 7 ≤ body.length) && decide (f 8 + mbytes * nm ≤ body.length)
  if decide (1 ≤ a) && decide (a ≤ 65535) && boundV = some v && leAt kh 36 28 = 0 && fits && transOk && inRange && maskOk
  then some ⟨v, autos, states, masks⟩ else none

/-- Parse and check an embedding table (R367). -/
def parseEmbed (kh body : List Nat) : Option EmbTable :=
  let rn := leAt kh 0 4
  let w := leAt kh 4 4
  let fmt := leAt kh 8 1
  let om := leAt kh 9 1
  let dof := leAt kh 12 4
  let rof := leAt kh 16 4
  let header := decide (1 ≤ rn) && decide (rn ≤ 262144) && w % 64 = 0 && decide (64 ≤ w) && decide (w ≤ 32768) &&
    decide (fmt ≤ 1) && decide (om ≤ 1) && leAt kh 10 2 = 0 && leAt kh 20 44 = 0 &&
    decide (dof + 8 * (rn + 1) ≤ body.length)
  let rows := (List.range (rn + 1)).map fun i =>
    let e := leAt body (dof + 8 * i) 8
    let at_ := rof + 64 * bitsOf e 0 40
    let cold := bitOf e 63
    ({ absent := bitOf e 61, cold := cold, scale := if cold then leAt body at_ 4 else 0,
       elems := if cold then (slice body (at_ + 64) w)
         else (List.range w).map fun k => leAt body (at_ + 2 * k) 2 } : EmbRow)
  let dirOk := (List.range (rn + 1)).all fun i =>
    let e := leAt body (dof + 8 * i) 8
    bitsOf e 40 21 = 0 && bitOf e 62 = false &&
      (bitOf e 61 || decide (rof + 64 * bitsOf e 0 40 + (if bitOf e 63 then 64 + w else 2 * w) ≤ body.length))
  let scaleOk := rows.all fun r => !r.cold || r.absent ||
    (match decode32 r.scale with | .fin d => decide (0 ≤ d.m) | _ => false)
  let dflt := rows.getD rn ⟨true, true, 0, []⟩
  if header && dirOk && scaleOk && !dflt.absent && !dflt.cold then some ⟨w, fmt, om = 1, rows⟩ else none

/-- Check a table image (orders 1 and 2 of R348): the body and its digest. `slot` decides the kind. -/
def parseTable (slot : Nat) (img : List Nat) (length : Nat) (boundV : Option Nat) :
    Except TableFault (TableBody × Nat) :=
  let kind := leAt img 4 1
  let bodyLen := leAt img 8 4
  let body := slice img 128 bodyLen
  let kh := slice img 0x40 64
  let kindOk := if slot < 4 then kind = 1 else if slot < 8 then kind = 2 else kind = 3
  let header := slice img 0 4 = [0x53, 0x59, 0x54, 0x42] && leAt img 5 1 = 1 && leAt img 6 2 = 0 &&
    bodyLen % 8 = 0 && leAt img 12 4 = 0 && length = 128 + bodyLen && decide (slot ≤ 15) && kindOk
  let parsed : Option TableBody :=
    if kind = 1 then (parseVocab kh body).map .vocab
    else if kind = 2 then (parseEmbed kh body).map .embed
    else (parseConstr kh body boundV).map .constr
  if !header then .error .structure_
  else match parsed with
    | none => .error .structure_
    | some b => if sha384 body = slice img 0x10 48 then .ok (b, beNat (slice img 0x10 48)) else .error .digest

/-- A cold element expanded: q × scale rounded once in the table's format (R368). -/
def expandCold (fmt scale q : Nat) : Nat :=
  match decode32 scale with
  | .fin d =>
    let x := dMul (dInt (toSigned 8 q)) d
    if fmt = 1 then encodeFloat 5 10 (roundTo fp16 x.m 1 x.e) else encodeFloat 8 7 (roundTo bf16 x.m 1 x.e)
  | _ => 0

end Sys2Proof.Machine
end

