-- ==== Sys2Proof/Machine/TokOps.lean ====
section
/-! DEFINITION. Operations of the token services on the state: bindings (R349), embedding rows (R368 to R371),
sampling a session's token (R360). -/
namespace Sys2Proof.Machine

/-- The bind block of a context. -/
def bindingOf (s : State) (ctx : Nat) : Option Binding := (tget? s.contexts ctx).bind (·.binding)

/-- The table in a slot. -/
def slotTable (s : State) (i : Nat) : Option Table := tget? s.tok.slots i

/-- The vocabulary a context binds. -/
def vocabOf (s : State) (ctx : Nat) : Option Vocab :=
  match ((bindingOf s ctx).bind (·.vocab)).bind (slotTable s) with
  | some t => (match t.body with | .vocab v => some v | _ => none)
  | none => none

/-- The constraint table a context binds. -/
def constrOf (s : State) (ctx : Nat) : Option Constr :=
  match ((bindingOf s ctx).bind (·.constr)).bind (slotTable s) with
  | some t => (match t.body with | .constr c => some c | _ => none)
  | none => none

/-- The embedding slot and table a context binds. -/
def embedOf (s : State) (ctx : Nat) : Option (Nat × EmbTable) :=
  match (bindingOf s ctx).bind (·.embed) with
  | none => none
  | some i => match slotTable s i with
    | some t => (match t.body with | .embed e => some (i, e) | _ => none)
    | none => none

/-! ### The row cache (R371) -/

/-- Bytes of the embedding row cache. -/
def cacheBytes (s : State) : Nat := s.lay.active.sram.embed * 1048576

/-- Stored bytes of a row. -/
def rowBytes (e : EmbTable) (r : EmbRow) : Nat := if r.cold then 64 + e.width else 2 * e.width

/-- The victim comes first: lowest count, then least recently used. -/
def cacheVictim (a b : CacheRow) : Bool := if a.uses ≠ b.uses then decide (a.uses < b.uses) else decide (a.touched < b.touched)

/-- Drop victims until `n` more bytes fit. -/
def cacheMake : Nat → Nat → List CacheRow → Nat → List CacheRow
  | 0, _, l, _ => l
  | f + 1, cap, l, n =>
    if sumOf (l.map (·.bytes)) + n ≤ cap then l
    else match (sortBy cacheVictim l).head? with
      | some v => cacheMake f cap (dropFirst (fun r => r.slot = v.slot && r.row = v.row) l) n
      | none => l

/-- A use of a row: hit or miss is counted; in mode 0 the row is kept with its use count. -/
def useRow (s : State) (slot row bytes : Nat) : State :=
  let t := s.tok
  let now := t.cacheClock + 1
  let same (r : CacheRow) : Bool := r.slot = slot && r.row = row
  if t.cache.any same then
    let c := modFirst same (fun r => { r with uses := Nat.min 15 (r.uses + 1), touched := now }) t.cache
    { s with tok := { t with cacheClock := now, hitCount := t.hitCount + 1, cache := c } }
  else if fld s Reg.EMB_CFG.mode = 0 then
    let room := cacheMake t.cache.length (cacheBytes s) t.cache bytes
    let c := room ++ [{ slot := slot, row := row, bytes := bytes, uses := 1, touched := now }]
    { s with tok := { t with cacheClock := now, missCount := t.missCount + 1, cache := c } }
  else { s with tok := { t with cacheClock := now, missCount := t.missCount + 1 } }

/-- A token took the default row: counted, reported at most once per second (R368, R374). -/
def noteDefault (s : State) : State :=
  let s := bump s Reg.EMB_COUNT.defaults
  let s := { s with tok := { s.tok with defaultCount := s.tok.defaultCount + 1 } }
  if duePerSecond s.tok.defaultAt s.timebase then
    let n := s.tok.defaultCount
    report { s with tok := { s.tok with defaultAt := some s.timebase, defaultCount := 0 } } 0x0B03 0 0 [n]
  else s

/-- The row of a token as it is sent, whole (R368). -/
def sentRow (e : EmbTable) (token : Nat) (r : EmbRow) : EmbSlice :=
  if r.cold then
    if e.stored then { token := token, cold := true, scale := r.scale, values := r.elems }
    else { token := token, cold := false, scale := 0, values := r.elems.map (expandCold e.fmt r.scale) }
  else { token := token, cold := false, scale := 0, values := r.elems }

/-- Fetch one row. -/
def fetchRow (s : State) (slot : Nat) (e : EmbTable) (token : Nat) : State × EmbSlice :=
  let last := e.rows.length - 1
  let absent := decide (last ≤ token) || (e.rows.getD token ⟨true, false, 0, []⟩).absent
  let i := if absent then last else token
  let r := e.rows.getD i ⟨false, false, 0, []⟩
  let s := if absent then noteDefault s else s
  (useRow s slot i (rowBytes e r), sentRow e token r)

/-- Fetch the rows of a list of tokens. -/
def fetchRows (s : State) (slot : Nat) (e : EmbTable) (toks : List Nat) : State × List EmbSlice :=
  toks.foldl (fun acc t => let r := fetchRow acc.1 slot e t; (r.1, acc.2 ++ [r.2])) (s, [])

/-- One block of up to 64 rows to every destination of the bind block (R369). -/
def sendBlock (s : State) (x : Session) (b : Binding) (toks : List Nat) (pos total : Nat) (input final : Bool) (forStep : Nat) : State :=
  let hdr (col n : Nat) (stored : Bool) (rows : List EmbSlice) : Msg :=
    .embRows { stored := stored, input := input, final := final, epoch := x.homeEpoch, src := s.device, colFirst := col, colCount := n,
               handle := x.handle, forStep := forStep, pos := pos, total := total, rows := rows }
  match embedOf s (hCtx x.handle) with
  | none => sendEach s b.dests (hdr 0 0 false (toks.map fun t => { token := t, cold := false, scale := 0, values := [] }))
  | some (slot, e) =>
    let (s, rows) := fetchRows s slot e toks
    let k := b.dests.length
    b.dests.zipIdx.foldl (fun s d =>
      let c0 := if b.slice then d.2 * e.width / k else 0
      let c1 := if b.slice then (d.2 + 1) * e.width / k else e.width
      sendMsg s d.1 (hdr c0 (c1 - c0) e.stored (rows.map fun r => { r with values := (r.values.drop c0).take (c1 - c0) }))) s

/-- The input rows of the step a verb seals, from the first unsupplied position, in blocks of up to 64 (R370). -/
def sendInputRows (s : State) (x : Session) : State :=
  match bindingOf s (hCtx x.handle) with
  | none => s
  | some b =>
    let toks := x.inTokens.drop x.supplied
    let n := ceilDiv toks.length 64
    (List.range n).foldl (fun s i =>
      sendBlock s x b ((toks.drop (64 * i)).take 64) (x.length + 64 * i) toks.length true (i + 1 = n) x.step) s

/-- The row of the token of a step, for the next step, at the position it will occupy (R370). -/
def sendDecodeRow (s : State) (x : Session) (token forStep pos : Nat) : State :=
  match bindingOf s (hCtx x.handle) with
  | none => s
  | some b => sendBlock s x b [token] pos 1 false false forStep

/-- Send again the rows that the session's step being re-run consumes (R370). -/
def resendRows (s : State) (x : Session) : State :=
  if !x.inTokens.isEmpty then sendInputRows s x else sendDecodeRow s x x.lastToken x.step x.length

/-! ### Sampling (R358, R360) -/

/-- Whether the slices received cover token IDs 0 to `v` − 1 exactly once. -/
def logitsCovered (sl : List LogitSlice) (v : Nat) : Bool := sumOf (sl.map (·.values.length)) = v

/-- The logits in token order. -/
def logitVector (sl : List LogitSlice) : List Elem :=
  ((sortBy (fun a b => decide (a.first < b.first)) sl).map fun g => g.values.map (decodeLogit g.fmt)).flatten

/-- The history a sampling reads: the last rep_window tokens of the committed ring followed by the step's own input
tokens (R356). -/
def samplingHistory (x : Session) : List Nat :=
  let all := (x.tokens.drop (x.tokens.length - 1024)) ++ x.inTokens
  all.drop (all.length - x.sampler.repWindow)

/-- The token that the sampler chooses for a session, and whether R361 chose it. -/
def chooseToken (s : State) (x : Session) (v : Vocab) : Nat × Bool :=
  sample x.sampler (allowedSet v (constrOf s (hCtx x.handle)) x.sampler x.parkToken x.endToken)
    (if x.sampler.repWindow = 0 then [] else samplingHistory x) (logitVector x.logits) x.seed x.step

/-- The decode string of a token. -/
def tokenString (v : Vocab) (t : Nat) : List Nat := v.strings.getD t []

end Sys2Proof.Machine
end

