-- ==== Sys2Proof/Machine/SessOps.lean ====
section
/-! DEFINITION. Operations on sessions: chunks (R113 to R117), mirror messages (R101 to R108, R482 to R485), state
changes (R93), shelves and spills (R96 to R100), retirement (R109, R110), the seal of a step at the home. -/
namespace Sys2Proof.Machine

/-! ### Chunks -/

/-- A chunk before posting: time and phase are set when it is posted. -/
def mkChunk (k : ChunkKind) (h first part : Nat) (replay more : Bool) (bytes payload : List Nat) : Chunk :=
  { kind := k, replay := replay, more := more, part := part, firstIndex := first, handle := h, time := 0, phase := true,
    bytes := bytes, payload := payload }

/-- The TEXT chunks of a token (R114). -/
def textChunks (h idx : Nat) (replay : Bool) (text : List Nat) : List Chunk :=
  let ps := textParts text.length text
  ps.zipIdx.map fun x => mkChunk .text h idx x.2 replay (decide (x.2 + 1 < ps.length)) x.1 []

/-- Number of parts of a token's text. -/
def partCount (text : List Nat) : Nat := (textParts text.length text).length

/-- Post a list of chunks in order. -/
def postChunks (s : State) (h : Nat) (cs : List Chunk) : State := cs.foldl (fun s c => postChunk s h c) s

/-- Post the text of a token for the first time: part 0 ends a latency measurement. -/
def postText (s : State) (h idx : Nat) (text : List Nat) : State :=
  postChunks (textPosted s h) h (textChunks h idx false text)

/-- Post the token that the step in flight has fixed (R108): not for a cancelled session (R109), not twice. -/
def postFixed (s : State) (h : Nat) : State :=
  match sessOf s h with
  | none => s
  | some x =>
    match x.fixing with
    | some f =>
      if x.posted || x.cancelPending then s
      else if x.restoring.isSome then postChunks (setSess s { x with posted := true }) h (textChunks h f.step true f.text)
      else postText (setSess s { x with posted := true }) h f.step f.text
    | none => s

/-! ### Mirrors -/

/-- This controller's mirror link for a session, of its home or participant role. -/
def mirLink (s : State) (h : Nat) (home : Bool) : Option MirLink :=
  s.mir.links.find? fun l => l.handle = h && l.home = home

/-- Replace a mirror link. -/
def setLink (s : State) (l : MirLink) : State :=
  { s with mir := { s.mir with links := modFirst (fun x => x.handle = l.handle && x.home = l.home) (fun _ => l) s.mir.links } }

/-- Forget a mirror link. -/
def dropLink (s : State) (h : Nat) (home : Bool) : State :=
  { s with mir := { s.mir with links := s.mir.links.filter fun l => !(l.handle = h && l.home = home) } }

/-- Whether a session counts as mirrored here (R105, R106, R494). -/
def isMirrored (s : State) (h : Nat) (home : Bool) : Bool :=
  match mirLink s h home with | some l => l.counts | none => false

/-- The header of a mirror message on a link. -/
def mirHeader (s : State) (l : MirLink) (step aux : Nat) : MirrorHdr :=
  { layers := !l.home, sync := false, last := false, epoch := l.epoch, src := s.device, aux := aux, handle := l.handle, step := step,
    seq := l.seq, attempt := 0, first := l.first, lastLayer := l.lastLayer, status := .ok, ref := 0 }

/-- Send the next mirror message of a link and remember what its acknowledgement is for. -/
def sendMirror (s : State) (h : Nat) (home : Bool) (w : MirWait) (f : MirrorHdr → MirrorHdr) (step aux : Nat) (b : MirrorBody) : State :=
  match mirLink s h home with
  | none => s
  | some l =>
    let l := { l with seq := l.seq + 1, waits := l.waits ++ [(l.seq + 1, w)] }
    sendMsg (setLink s l) l.dev (.mirror (f (mirHeader s l step aux)) b)

/-- The descriptor of a session as it travels. -/
def descOf (x : Session) : SessDesc :=
  { handle := x.handle, state := x.state, cls := x.cls, fullAttn := x.fullAttn, bx16 := x.bx16, cancelPending := x.cancelPending,
    fixed := x.fixed, posted := x.posted, fault := x.fault, customer := x.customer, partition := x.partition, outRing := x.outRing,
    step := x.step, length := x.length, maxTokens := x.maxTokens, pendingToken := x.pendingToken, seed := x.seed,
    parkToken := x.parkToken, endToken := x.endToken, homeDev := x.homeDev, homeEpoch := x.homeEpoch, mirrorDev := x.mirrorDev,
    mirrorEpoch := x.mirrorEpoch, mirrorAcked := x.mirrorAcked, shadowOf := x.shadowOf, holdBytes := x.holdBytes,
    cmdTag := match x.verb with | some v => v.sub.tag | none => 0, cmdRing := match x.verb with | some v => v.sub.ring | none => 0,
    cmdOp := match x.verb with | some v => (if v.resume then 0x21 else 0x20) | none => 0,
    resumeCount := if x.verb.elim false (·.resume) || x.state == .resuming || x.shadowOf == .resuming then x.inTokens.length else 0,
    prefixRef := x.prefixRef, tOpen := x.tOpen, tStart := x.tStart, tLast := x.tLast, tTouch := x.tTouch, sampler := x.sampler,
    latency := x.latency }

/-- The session record of a descriptor. -/
def sessOfDesc (d : SessDesc) : Session :=
  { handle := d.handle, state := d.state, cls := d.cls, fullAttn := d.fullAttn, bx16 := d.bx16, fixed := d.fixed, posted := d.posted,
    fault := d.fault, customer := d.customer, partition := d.partition, outRing := d.outRing, step := d.step, length := d.length,
    maxTokens := d.maxTokens, pendingToken := d.pendingToken, seed := d.seed, parkToken := d.parkToken, endToken := d.endToken,
    homeDev := d.homeDev, homeEpoch := d.homeEpoch, mirrorDev := d.mirrorDev, mirrorEpoch := d.mirrorEpoch,
    mirrorAcked := d.mirrorAcked, shadowOf := d.shadowOf, holdBytes := d.holdBytes, prefixRef := d.prefixRef, tOpen := d.tOpen,
    tStart := d.tStart, tLast := d.tLast, tTouch := d.tTouch, sampler := d.sampler, latency := d.latency }

/-- Devices in the promotion table. -/
def lostDevices (s : State) : List Nat := (tvals s.mir.lost).map (·.device)

/-- The mirror choice of R101 over this controller's kind-2 roles, excluding devices: device, m and i. -/
def chooseMirror (s : State) (serial : Nat) (exclude : List Nat) : Option (Nat × Nat × Nat) :=
  let rs := (rolesOf s 2).filter fun r => !exclude.contains r.device
  match rs[serial % rs.length]? with
  | some r => if rs.isEmpty then none else some (r.device, rs.length, serial % rs.length)
  | none => none

/-- Open a mirror for the home role of a session: MIRROR_OPEN with the descriptor and the input tokens (R101); `sync`
for a replacement (R494), `counts` false until it is acknowledged. -/
def openHomeMirror (s : State) (h : Nat) (exclude : List Nat) (sync counts : Bool) : State :=
  match sessOf s h with
  | none => s
  | some x =>
    match chooseMirror s (hSerial h) exclude with
    | none => setSess s { x with mirrorDev := 0x7FF }
    | some (dev, m, i) =>
      let x := { x with mirrorDev := dev, mirrorEpoch := wrapAdd 16 x.mirrorEpoch 1 }
      let l : MirLink := { handle := h, home := true, dev := dev, epoch := x.mirrorEpoch, first := 0, lastLayer := 0, m := m, i := i, counts := counts }
      let s := setSess s x
      let s := { s with mir := { s.mir with links := s.mir.links ++ [l] } }
      sendMirror s h true .open_ (fun q => { q with sync := sync }) 0 0 (.open_ (descOf x) x.inTokens)

/-- Open a layer shadow for this controller's participant role (R482): flag LAYERS, the kind-1 epoch, (m, i). -/
def openLayerMirror (s : State) (h : Nat) (exclude : List Nat) (sync : Bool) : State :=
  match sessOf s h, chooseMirror s (hSerial h) exclude, (rolesOf s 1).find? (·.device = s.device) with
  | some x, some (dev, m, i), some r =>
    let l : MirLink := { handle := h, home := false, dev := dev, epoch := r.epoch, first := bitsOf r.key 0 8, lastLayer := bitsOf r.key 8 8,
                         m := m, i := i, counts := !sync }
    let s := { s with mir := { s.mir with links := s.mir.links ++ [l] } }
    sendMirror s h false .open_ (fun q => { q with sync := sync }) 0 (m + 256 * i) (.open_ (descOf x) [])
  | _, _, _ => s

/-! ### State changes (R93, R104) -/

/-- Write-backs of a parked session's dirty objects (R149). -/
def parkWritebacks (s : State) (hk : Nat) : State :=
  if flag s Reg.LAD_CFG.wb_park then
    (sessObjs s hk).foldl (fun s i => match objOf s i with
      | some o => if o.dirty && o.state = .resident && !hasMove s i then pushMove s i o .writeback qWriteback else s
      | none => s) s
  else s

/-- Enter a state: holds follow, the mirror is told, with a payload where the rule gives one. -/
def setStateP (s : State) (h : Nat) (st : SesState) (payload : List Nat) : State :=
  match sessOf s h with
  | none => s
  | some x =>
    if x.state = st then s
    else
      let s := rehold (setSess s { x with state := st }) h
      let s := if st = .parked then parkWritebacks s (hKey h) else s
      if x.guest then s else sendMirror s h true .state id 0 st.code (.state payload)

/-- Enter a state. -/
def setState (s : State) (h : Nat) (st : SesState) : State := setStateP s h st []

/-- A session parks: PARKED, or DORMANT when nothing of it is in the attic. -/
def parkState (s : State) (h : Nat) : SesState := if inAttic s (hKey h) then .parked else .dormant

/-! ### Inventory references (R324) -/

/-- The prefix_ref of a record. -/
def nodeRef (i gen : Nat) : Nat := i + gen * 2 ^ 32

/-- The reference count of a node. -/
def nodeRefs (s : State) (i : Nat) (n : InvNode) : Nat :=
  b2n n.indexed + (s.inv.nodes.filter fun p => p.2.parent = some i).length +
    (s.sess.table.filter fun p => p.2.prefixRef = nodeRef i n.gen).length +
    (s.inv.pins.filter fun p => p.nodes.contains i || p.partial_ = some i).length

/-- A record with no reference and no shared crate left is freed, with its stored slabs. -/
def sweepOne (s : State) : State :=
  match s.inv.nodes.find? fun p => nodeRefs s p.1 p.2 = 0 && p.2.crates.all (fun c => (objOf s c.2).isNone) with
  | none => s
  | some (i, n) =>
    let s := n.slabs.foldl (fun s x => dropRef s x.2) s
    { s with inv := { s.inv with nodes := tdel s.inv.nodes i } }

/-- Free records until none is free to go. -/
def invSweep : Nat → State → State
  | 0, s => s
  | n + 1, s => invSweep n (sweepOne s)

/-- Sweep the whole inventory. -/
def sweepAll (s : State) : State := invSweep s.inv.nodes.length s

/-! ### Shelves, spill and fetch (R96 to R100) -/

/-- Records that count for the session limit: sessions homed here and shadows. -/
def countedSess (s : State) : List Session :=
  ((tvals s.sess.table).filter fun x => !x.guest && x.state ≠ .free) ++ (tvals s.mir.shadows).map (·.desc)

/-- A record occupies a shelf. -/
def onShelf (x : Session) : Bool := x.place = .shelf || x.place = .spilling

/-- Shelves in use. -/
def shelvesUsed (s : State) : Nat := ((countedSess s).filter onShelf).length

/-- Descriptors in the spill table. -/
def spilledCount (s : State) : Nat := ((countedSess s).filter fun x => x.place = .spilled || x.place = .fetching).length

/-- A part of a session is queued or in flight here. -/
def inFlight (s : State) (h : Nat) : Bool :=
  s.steps.parts.any fun p => p.entries.any fun e => e.handle = h && e.ended.isNone && !e.committed

/-- A descriptor may be spilled: on a shelf, nothing in progress. -/
def spillable (s : State) (x : Session) : Bool :=
  x.place = .shelf && !inFlight s x.handle && x.verb.isNone && x.publish.isNone && x.cancels.isEmpty && x.waiting.isEmpty

/-- The spill victim of R97. -/
def spillVictim (s : State) : Option Nat :=
  let c := (countedSess s).filter (spillable s)
  match minBy (·.tTouch) (c.filter fun x => x.state = .parked || x.state = .dormant || x.state = .shadow) with
  | some x => some x.handle
  | none => (minBy (·.tTouch) (c.filter fun x => x.state = .active && x.cls = 3)).map (·.handle)

/-- Set where a descriptor lies, of a session or a shadow. -/
def setPlace (s : State) (h : Nat) (p : Place) : State :=
  match sessOf s h with
  | some x => if x.guest then { s with mir := { s.mir with shadows := tmodIf s.mir.shadows (hKey h) fun d => { d with desc := { d.desc with place := p } } } }
      else setSess s { x with place := p }
  | none => { s with mir := { s.mir with shadows := tmodIf s.mir.shadows (hKey h) fun d => { d with desc := { d.desc with place := p } } } }

/-- The partition a descriptor is charged to (R260). -/
def descPart (s : State) (h : Nat) : Nat :=
  match sessOf s h with
  | some x => x.partition
  | none => (tget? s.mir.shadows (hKey h)).elim 0 (·.desc.partition)

/-- SPILL_FULL at most once per second. -/
def noteSpillFull (s : State) : State :=
  if duePerSecond s.sess.spillFullAt s.timebase then
    report { s with sess := { s.sess with spillFullAt := some s.timebase } } 0x0304 0 0 []
  else s

/-- Start a background spill when fewer than spill_low shelves are free and none is running (R97). -/
def checkSpill (s : State) : State :=
  if shelves s - shelvesUsed s < fld s Reg.SES_CFG.spill_low && !(countedSess s).any (·.place = .spilling) then
    if spillCap s ≤ spilledCount s then noteSpillFull s
    else match spillVictim s with
      | some h =>
        let part := descPart s h
        if !bucketOpen s part resStore then s else
        let s := charge (setPlace s h .spilling) part resStore 256
        match sessOf s h with | some x => (if x.guest then s else tallyReturn s h) | none => s
      | none => noteSpillFull s
  else s

/-- Start the fetch of a spilled descriptor (R100). -/
def startFetch (s : State) (h : Nat) : State :=
  let go (x : Session) : State :=
    if x.place = .spilled && bucketOpen s x.partition resStore then
      let s := charge (setPlace s h .fetching) x.partition resStore 256
      bump { s with sess := { s.sess with fetches := s.sess.fetches + 1 } } Reg.SES_SPILL.fetches
    else s
  match sessOf s h with
  | some x => go x
  | none => match tget? s.mir.shadows (hKey h) with | some d => go d.desc | none => s

/-! ### Results of session verbs (R119) -/

/-- Results of a pending SES_OPEN or SES_RESUME. -/
def verbResults (x : Session) (v : PendVerb) : List Nat :=
  if v.resume then [x.inTokens.length, x.step]
  else [x.handle, x.inTokens.length, x.supplied, x.mirrorDev, x.homeEpoch]

/-- Complete the pending verb of a session. -/
def endVerb (s : State) (h : Nat) (st : Status) (detail : Nat) : State :=
  match sessOf s h with
  | none => s
  | some x =>
    match x.verb with
    | some v => complete (setSess s { x with verb := none }) v.sub st detail (verbResults x v)
    | none => s

/-! ### Retirement (R93, R110) -/

/-- Release every object and reference a session holds in its maps. -/
def releaseObjs (s : State) (h : Nat) : State :=
  let hk := hKey h
  let ids := sessObjs s hk
  let s := { s with tier := { s.tier with map := s.tier.map.filter fun e => e.1 / (65536 * 256 * 4) ≠ hk } }
  let s := { s with atn := { s.atn with selected := s.atn.selected.filter fun e => e.1 / 256 ≠ hk } }
  let s := { s with atn := { s.atn with newSel := s.atn.newSel.filter fun e => e.1 / 256 ≠ hk } }
  let s := modSess (ids.foldl dropRef s) h fun x => { x with prefixRef := 0 }
  sweepAll s

/-- The held bytes become the replacement character in a final TEXT chunk (R114). -/
def postHeldBytes (s : State) (h : Nat) : State :=
  match sessOf s h with
  | none => s
  | some x =>
    if x.holdBytes.isEmpty || x.step = 0 then s
    else postChunk s h (mkChunk .text h (x.step - 1) (x.lastPart + 1) false false [0xEF, 0xBF, 0xBD] [])

/-- Enter RETIRING: END chunk with the fault, pending commands complete with a status, references and reservations go
back, the mirror retires (R110). Queued commands end with a torn context (R287), else R94 says what they do then. -/
def retire (s : State) (h : Nat) (fault verbSt : Status) (detail : Nat) : State :=
  match sessOf s h with
  | none => s
  | some x =>
    if x.state = .retiring || x.guest then s
    else
      let s := postHeldBytes s h
      let s := postChunk s h (mkChunk .end_ h x.step 0 false false [] [fault.code])
      let s := endVerb s h verbSt detail
      let s := if fault = .contextTorn then x.waiting.foldl (fun s v => refuse s v.sub (match v with | .cancel _ => .ok | _ => verbSt) 0) s else s
      let s := match x.publish with | some (sub, _) => refuse s sub verbSt detail | none => s
      let s := modSess s h fun x => { x with fault := fault, fixing := none, fixed := false, posted := false, waiting := if fault = .contextTorn then [] else x.waiting,
                                             publish := none, publishing := false, input := none, lookup := none, logits := [], headroom := {} }
      let s := tallyReturn s h
      let s := ledgerDrop s h
      let s := setState s h .retiring
      let s := if s.mir.pinned.contains h then s else releaseObjs s h
      let s := sendMirror s h true .retire id 0 0 .retire
      let s := x.cancels.foldl (fun s sub => refuse s sub .ok 0) s
      modSess s h fun x => { x with cancels := [] }

/-! ### Tokens fixed, steps sealed at the home -/

/-- The step reference and entry index of the part in flight that names a session: what a note and a prepare copy carry
so that a promoted mirror can name the step (DEDUCED, R268). -/
def flightOf (s : State) (h : Nat) : Nat × Nat :=
  ((s.steps.parts.map fun p => (p.entries.zipIdx.filter fun e => e.1.handle = h && e.1.ended.isNone && !e.1.committed).map fun e =>
    (p.stepRef, e.2)).flatten).headD (0, 0)

/-- An input is being appended: its tokens go with the next step. -/
def hasInput (x : Session) : Bool := !x.inTokens.isEmpty

/-- Tokens a step of the session appends: the unsupplied input, or one. -/
def stepTokens (x : Session) : Nat := if hasInput x then x.inTokens.length - x.supplied else 1

/-- Fix a token for the session's step (R107): detokenize, next automaton state, row for the next step unless the
session is mirrored (R370), note to the mirror, chunk for an unmirrored session (R108). -/
def fixToken (s : State) (h t : Nat) (v : Vocab) : State :=
  match sessOf s h with
  | none => s
  | some x =>
    let (text, hold) := detok x.holdBytes (tokenString v t)
    let f : Fixing := { step := x.step, token := t,
                        nextAuto := nextAuto (constrOf s (hCtx h)) x.sampler.autoId x.sampler.autoState t,
                        holdAfter := hold, text := text, parts := partCount text }
    let s := setSess s { x with fixed := true, pendingToken := t, fixing := some f, noteAcked := false }
    if isMirrored s h true then
      let fl := flightOf s h
      sendMirror s h true (.note x.step) (fun q => { q with ref := fl.1 }) x.step fl.2 (.note t x.step x.holdBytes)
    else
      let s := sendDecodeRow s x t (x.step + 1) (x.length + stepTokens x)
      postFixed s h

/-- Whether the session ends with this seal (R93). -/
def endsSession (x : Session) (token : Nat) : Bool :=
  x.endToken = some token || x.maxTokens = 0 || decide (4194304 ≤ x.length)

/-- The home's seal of a session's step, the state after the commit of its own part (R93, R107, R313). `keepLength`:
the commit has already advanced the committed length. -/
def sealSession (s : State) (h : Nat) : State :=
  match sessOf s h with
  | none => s
  | some x =>
    let token := x.pendingToken
    let f : Fixing := x.fixing.getD { step := x.step, token := token, nextAuto := x.sampler.autoState, holdAfter := x.holdBytes, text := [], parts := 1 }
    let n := stepTokens x
    let wasResume := x.state = .resuming
    let resumed := x.inTokens.length
    let kv := if hasInput x then (x.kv ++ x.inTokens.drop x.supplied) else x.kv ++ [x.lastToken]
    let s := match x.verb with
      | some v => complete s v.sub (if v.truncated then .truncated else .ok) 0 (verbResults x v)
      | none => s
    let s := if x.restoring.isSome then s else tallyCharge s h
    let s := modSess s h fun x =>
      { x with step := x.step + 1, length := x.length + n,
               maxTokens := if x.maxTokens = 0xFFFFFFFF then x.maxTokens else x.maxTokens - 1,
               tokens := x.tokens ++ (if hasInput x then x.inTokens else []) ++ [token], kv := kv, lastToken := token,
               verb := none, inTokens := [], input := none, supplied := 0, fixed := false, posted := false, fixing := none,
               sampler := { x.sampler with autoState := f.nextAuto }, holdBytes := f.holdAfter, lastText := f.text,
               lastPart := f.parts - 1, logits := [], coveredAt := none, noteAcked := false, headroom := {} }
    let s := if wasResume then postChunk s h (mkChunk .resumed h (x.step + 1) 0 false false [] [resumed]) else s
    match sessOf s h with
    | none => s
    | some y =>
      if let some t := y.restoring then
        let s := modSess s h fun x => { x with restoring := none }
        setState s h (if t = .parked || t = .dormant then parkState s h else t)
      else if endsSession y token then retire s h .ok .cancelled 0
      else if y.parkToken = some token then
        let s := postChunk s h (mkChunk .parked h y.step 0 false false [] [])
        let s := tallyReturn s h
        setState s h (parkState s h)
      else setState s h .active

end Sys2Proof.Machine
end

