-- ==== Sys2Proof/Machine/StepBase.lean ====
section
/-! DEFINITION. Step slots and shares (R256, R257), the class of a part (R258, R284), and the steps that a home submits
itself: step 0 and the resume step (R93). -/
namespace Sys2Proof.Machine

/-- Step-buffer region in KiB (R68). -/
def stepRegion (s : State) : Nat := s.lay.active.sram.step * 1024

/-- A partition's reserved share of the step buffers in KiB (R257). -/
def stepReserve (s : State) (p : Nat) : Nat := stepRegion s * (partEntry s p).stepShare / 1000 / 4 * 4

/-- The shared pool of the step buffers in KiB. -/
def stepShared (s : State) : Nat :=
  stepRegion s - sumOf ((List.range s.lay.active.partitions.length).map fun p => if (partEntry s p).enable then stepReserve s p else 0)

/-- KiB of one step slot (R256). -/
def slotKib (p : Params) : Nat := ceilDiv (p.kvHeads * p.group * p.headDim * 4 + 2048) 4096 * 4

/-- KiB of a session of a part: one slot, or up to 64 for a BLOCK part. -/
def entryKib (p : Params) (block : Bool) (tokens : Nat) : Nat := slotKib p * (if block then Nat.min tokens 64 else 1)

/-- KiB that a context's state-space records hold in the step buffers (R160), taken from the shared pool. -/
def recordKib (p : Params) : Nat :=
  ceilDiv (p.ssm.length * (4 * p.ssmHeads + 8 * p.ssmHeads * p.ssmP)) 4096 * 4

/-- Partition of a context. -/
def ctxPart (s : State) (ctx : Nat) : Nat := (tget? s.contexts ctx).elim 0 (·.partition)

/-- KiB of a partition's reserve in use. -/
def reserveUsed (s : State) (p : Nat) : Nat :=
  sumOf (s.steps.parts.map fun q => if ctxPart s q.context = p then sumOf (q.entries.map (·.ownKib)) else 0)

/-- KiB of the shared pool in use: step slots, state-space records, delegated payloads (R249). -/
def stepSharedUsed (s : State) : Nat :=
  sumOf (s.steps.parts.map fun q => sumOf (q.entries.map (·.sharedKib))) + sumOf (s.contexts.map fun c => recordKib c.2.params) +
    sumOf (s.den.serving.map (·.kib))

/-- KiB of the shared pool that are free. -/
def stepSharedFree (s : State) : Nat := stepShared s - stepSharedUsed s

/-- A part's class, raised by inheritance (R258, R284). -/
def partClass (s : State) (p : StepPart) : Nat :=
  s.steps.sems.foldl (fun c x =>
    match x.2.holder, x.2.inherit with
    | some h, some i => if h.dev = s.device && h.ctx = p.context then Nat.min c i else c
    | _, _ => c) p.cls

/-- An entry that has neither ended nor committed. -/
def liveEntry (e : PartEntry) : Bool := e.ended.isNone && !e.committed

/-- The part of a step reference. -/
def partOf (s : State) (ref : Nat) : Option StepPart := s.steps.parts.find? (·.stepRef = ref)

/-- Update the part of a step reference. -/
def modPart (s : State) (ref : Nat) (f : StepPart → StepPart) : State :=
  { s with steps := { s.steps with parts := modFirst (fun p => p.stepRef = ref) f s.steps.parts } }

/-- Update entry `i` of a part. -/
def modEntry (s : State) (ref i : Nat) (f : PartEntry → PartEntry) : State :=
  modPart s ref fun p => { p with entries := modAt f i p.entries }

/-- Update the home's record of entry `i`. -/
def modHome (s : State) (ref i : Nat) (f : HomeEntry → HomeEntry) : State :=
  modPart s ref fun p => { p with homeRec := modAt f i p.homeRec }

/-- This controller is the home of a part. -/
def isHome (s : State) (p : StepPart) : Bool := p.home = s.device

/-- The index of a handle in a part. -/
def entryIndex (p : StepPart) (h : Nat) : Option Nat := (p.entries.zipIdx.find? fun e => e.1.handle = h).map (·.2)

/-- The next step reference of this controller's own sequence. -/
def nextRef (s : State) : State × Nat :=
  ({ s with steps := { s.steps with nextSeq := (s.steps.nextSeq + 1) % 2 ^ 21 } }, s.device * 2 ^ 21 + s.steps.nextSeq % 2 ^ 21)

/-- Devices of a step's participants: the hosts of the range, and the home. -/
def stepParticipants (s : State) (serial first last home : Nat) : List Nat :=
  let l := (rangeHosts s serial first last).map (·.1)
  if l.contains home then l else l ++ [home]

/-- Put a part into the scheduler, in arrival order. -/
def addPart (s : State) (p : StepPart) : State :=
  { s with steps := { s.steps with parts := s.steps.parts ++ [{ p with arrival := s.steps.nextArrival }], nextArrival := s.steps.nextArrival + 1 } }

/-- A session's step ends without re-run (R93, "Endings of a part"): `cancelled`, `contextTorn`, a lost copy without
another, then step 0 and the resume step; an ACTIVE session stays as it is. -/
def sessionStepEnds (s : State) (h : Nat) (st : Status) (detail : Nat) : State :=
  match sessOf s h with
  | none => s
  | some x =>
    if st = .cancelled then retire s h .ok .cancelled 0
    else if st = .contextTorn then retire s h .contextTorn .contextTorn 0
    else if st = .tierFault then
      if isMirrored s h true || s.trunk.trunks.any (·.handles.contains h) then s else retire s h .tierFault .tierFault detail
    else if x.state = .prefilling then retire s h st st detail
    else if x.state = .resuming then
      let s := tallyReturn (endVerb s h st detail) h
      let s := modSess s h fun x => { x with inTokens := [], input := none, headroom := {}, fixed := false, fixing := none, logits := [] }
      setState s h (parkState s h)
    else s

/-- Step 0 or the resume step of a session, which its home submits itself (R93): one BLOCK descriptor over every layer, to
the other hosts and to the devices that the bind block names (DEDUCED: they need the step reference). Orders 5 and 6 of R255 come
before it is sent: a step that its home refuses goes to nobody (DEDUCED, log 132). -/
def startOwnStep (s : State) (h : Nat) : State :=
  match sessOf s h, paramsOf s (hCtx h) with
  | some x, some p =>
    let n := Nat.max 1 (stepTokens x)
    let (s, ref) := nextRef s
    if stepReserve s x.partition + stepShared s < entryKib p true n then sessionStepEnds s h .noCapacity 0x4
    else if !classOk s (hCtx h) x.partition x.cls then sessionStepEnds (hatchRefused s 1) h .protection 0x2 else
    let last := lastLayer p
    let hosts := rangeHosts s (hSerial h) 0 last
    let nr := match x.verb with | some v => v.sub.noRerun | none => false
    let d : StepDesc := { noRerun := nr, block := true, epoch := 0, src := s.device, home := s.device, stepRef := ref, cls := x.cls, first := 0,
                          last := last, context := hCtx h, count := 1, tokens := n, reserved := 0,
                          entries := [{ handle := h, step := x.step, homeEpoch := x.homeEpoch }] }
    let s := hosts.foldl (fun s d' => if d'.1 = s.device then s else sendMsg s d'.1 (.stpDesc { d with epoch := d'.2 })) s
    let dests := (match bindingOf s (hCtx h) with | some b => b.dests | none => []).filter fun t => t ≠ s.device && !hosts.any (fun q => q.1 = t)
    let s := sendEach s dests (.stpDesc d)
    addPart s { stepRef := ref, submitter := s.device, home := s.device, cls := x.cls, first := 0, last := last, context := hCtx h, tokens := n,
                block := true, noRerun := nr, own := true, participants := stepParticipants s (hSerial h) 0 last s.device, senders := dests,
                entries := [{ handle := h, step := x.step, homeEpoch := x.homeEpoch, tokens := n, admitted := true }], homeRec := [{}] }
  | _, _ => s

end Sys2Proof.Machine
end

