-- ==== Sys2Proof/Machine/InvOps.lean ====
section
/-! DEFINITION. Operations of the prefix inventory (chapter "The prefix inventory"): records, the local lookup, links,
publishing, withdrawal, reclaim, and the home's coordination of them. -/
namespace Sys2Proof.Machine

/-! ### Records (R319 to R323) -/

/-- The format code of a crate format (R121). -/
def fmtCode (bx16 : Bool) : Nat := if bx16 then 2 else 1

/-- h(0) of a context and format. -/
def rootHash (ctx fmt : Nat) : Nat := ctx + fmt * 65536

/-- The chained hash of a chunk. -/
def chunkHash (h : Nat) (toks : List Nat) (fmt : Nat) : Nat :=
  leNat ((sha256 (leBytes 8 h ++ (toks.map (leBytes 4)).flatten ++ [fmt])).take 8)

/-- Chunk `k` of a token list. -/
def chunkOf (toks : List Nat) (k : Nat) : List Nat := (toks.drop (64 * k)).take 64

/-- Record size of a context's layers. -/
def recordSize (lh ls : Nat) : Nat := ceilDiv (256 + 32 * lh + 16 * ls) 64 * 64

/-- Records in `pages` pages of 4 KiB. -/
def recordsIn (pages size : Nat) : Nat := if size ≤ 4096 then pages * (4096 / size) else pages / ceilDiv size 4096

/-- Record capacity of the region for a record size (R323). -/
def recordCapacity (s : State) (size : Nat) : Nat :=
  let pages := s.lay.active.attic.invKib / 4 * bankPairs s
  let n0 := recordsIn pages size
  if n0 = 0 then 0 else recordsIn (pages - ceilDiv (4 * 2 ^ Nat.log2 n0) 4096) size

/-- Record capacity for a session's context. -/
def capacityFor (s : State) (serial : Nat) (p : Params) : Nat :=
  recordCapacity s (recordSize (attnLayers s serial p 0 255).length (ssmLayers s serial p 0 255).length)

/-- The INDEXED node that a chunk matches (R320). -/
def findNode (s : State) (ctx fmt depth hash : Nat) (toks : List Nat) : Option (Nat × InvNode) :=
  s.inv.nodes.find? fun n => n.2.indexed && n.2.ctx = ctx && n.2.fmt = fmt && n.2.depth = depth && n.2.hash = hash && n.2.tokens = toks

/-- The children of a node in list order, newest first. -/
def childrenOf (s : State) (i : Nat) : List (Nat × InvNode) :=
  sortBy (fun a b => decide (b.2.born < a.2.born)) (s.inv.nodes.filter fun n => n.2.indexed && n.2.parent = some i)

/-- Leading tokens two lists share. -/
def commonLen : List Nat → List Nat → Nat
  | a :: s, b :: t => if a = b then commonLen s t + 1 else 0
  | _, _ => 0

/-- Update a node. -/
def modNode (s : State) (i : Nat) (f : InvNode → InvNode) : State := { s with inv := { s.inv with nodes := tmodIf s.inv.nodes i f } }

/-- A hybrid context (R326). -/
def isHybrid (p : Params) : Bool := p.layers.any (·.ssm)

/-! ### Local lookup (R326) -/

/-- The walk down from the root: matched nodes in order, best depth in chunks with its points so far. -/
def walkDown (s : State) (ctx fmt n : Nat) (toks : List Nat) (pointed : Bool) : Nat → Nat → Nat → List Nat → Nat → List Nat → List Nat × Nat × List Nat
  | 0, _, _, nodes, best, pts => (nodes, best, pts)
  | fuel + 1, f, h, nodes, best, pts =>
    if n < 64 * (f + 1) + 1 then (nodes, best, pts)
    else
      let hk := chunkHash h (chunkOf toks f) fmt
      match findNode s ctx fmt f hk (chunkOf toks f) with
      | none => (nodes, best, pts)
      | some (i, x) =>
        if !pointed then walkDown s ctx fmt n toks pointed fuel (f + 1) hk (nodes ++ [i]) (64 * (f + 1)) pts
        else if x.slabPoint then walkDown s ctx fmt n toks pointed fuel (f + 1) hk (nodes ++ [i]) (64 * (f + 1)) ((64 * (f + 1)) :: pts)
        else walkDown s ctx fmt n toks pointed fuel (f + 1) hk (nodes ++ [i]) best pts

/-- The child of a partial match: the first with the most leading tokens, among the first partial_scan (R326). -/
def partialChild (s : State) (last room : Nat) (toks : List Nat) : Option (Nat × Nat) :=
  ((childrenOf s last).take (fld s Reg.INV_CFG.partial_scan)).foldl (fun best c =>
    let k := Nat.min room (commonLen c.2.tokens toks)
    match best with
    | some b => if b.2 < k then some (c.1, k) else best
    | none => if 0 < k then some (c.1, k) else none) none

/-- The local answer for a prompt: pins are taken, t_use set; the answer, and the listed points (deepest 16, in
descending order) where this controller hosts state-space layers of a hybrid context. -/
def localLookup (s : State) (src req h : Nat) (p : Params) (toks : List Nat) (fmt : Nat) : State × Nat × Option (List Nat) :=
  let ctx := hCtx h
  let hosted := !(ssmLayers s (hSerial h) p 0 255).isEmpty
  let pointed := isHybrid p && hosted
  let n := toks.length
  let (nodes, best, pts) := walkDown s ctx fmt n toks pointed (n / 64 + 1) 0 (rootHash ctx fmt) [] 0 []
  let mp := fld s Reg.INV_CFG.min_partial
  let part : Option (Nat × Nat) :=
    if !isHybrid p && decide (0 < mp) && best = 64 * nodes.length then
      match nodes.getLast? with
      | some l => (match partialChild s l (Nat.min 63 (n - 1 - best)) (toks.drop best) with
        | some c => if mp ≤ c.2 then some c else none
        | none => none)
      | none => none
    else none
  let s := nodes.foldl (fun s i => modNode s i fun x => { x with tUse := s.timebase }) s
  let pin : InvPin := { src := src, request := req, handle := h, nodes := nodes.take (best / 64), tokens := toks, partial_ := part.map (·.1), since := s.timebase }
  let s := bump { s with inv := { s.inv with pins := s.inv.pins ++ [pin] } } Reg.INV_COUNT.lookups
  (s, best + (match part with | some c => c.2 | none => 0), if pointed then some (pts.take 16) else none)

/-- The pins a request holds here. -/
def pinsOf (s : State) (src req : Nat) : Option InvPin := s.inv.pins.find? fun q => q.src = src && q.request = req

/-- Release the pins of a request. -/
def dropPins (s : State) (src req : Nat) : State :=
  sweepAll { s with inv := { s.inv with pins := s.inv.pins.filter fun q => !(q.src = src && q.request = req) } }

/-! ### Links (R328, R329) -/

/-- Name an object in a session's map. -/
def setMap (s : State) (hk : Nat) (k : ObjKind) (layer index id : Nat) : State :=
  { s with tier := { s.tier with map := tset s.tier.map (mapKey hk k.num layer index) id } }

/-- Enter a new object into the table; its number. -/
def addObj (s : State) (o : Obj) : State × Nat :=
  let id := s.tier.nextObj
  ({ s with tier := { s.tier with objs := tset s.tier.objs id o, nextObj := id + 1 } }, id)

/-- A new object of a session, with nothing in it and no place. -/
def blankObj (x : Session) (p : Params) (k : ObjKind) (layer index now : Nat) : Obj :=
  { kind := k, creator := hSerial x.handle, layer := layer, index := index, ctx := hCtx x.handle, partition := x.partition,
    cls := x.cls, bx16 := x.bx16, heads := p.kvHeads, dim := p.headDim,
    size := (match k with | .crate => crateBytes x.bx16 p.kvHeads p.headDim | .slab => slabSize p | .strip => stripBytes p.kvHeads p.headDim),
    state := .home, attic := false, age := now }

/-- Ask the Ladder for an object that is made by a copy from another (R328, R329). -/
def copyFrom (s : State) (x : Session) (o : Obj) (layer index src count : Nat) : State :=
  let (s, id) := addObj s o
  let s := setMap s (hKey x.handle) o.kind layer index id
  let s := match objOf s src with | some so => (if so.state = .home && so.kind = .crate then requestRaise s src (qDemand x.cls) else s) | none => s
  pushMove s id o (.tail src count) (qDemand x.cls)

/-- The crate ID of an object as a header names it (R121). -/
def crateId (o : Obj) : Nat := o.index % 2 ^ 16 + o.layer % 2 ^ 8 * 2 ^ 16 + o.creator % 2 ^ 27 * 2 ^ 24

/-- Link and copy `t` tokens from the pinned nodes of a request (R328). -/
def applyLinks (s : State) (h t : Nat) (p : Params) (pin : InvPin) : State :=
  match sessOf s h with
  | none => s
  | some x =>
    let f := t / 64
    let q := t % 64
    let nodes := (pin.nodes.take f).filterMap fun i => (tget? s.inv.nodes i).map fun n => (i, n)
    let s := nodes.foldl (fun s n => n.2.crates.foldl (fun s c =>
      setMap (modObj s c.2 fun o => { o with refs := o.refs + 1 }) (hKey h) .crate c.1 n.2.depth c.2) s) s
    let last := nodes.getLast?
    let s := match (if q = 0 then none else pin.partial_.bind fun i => tget? s.inv.nodes i) with
      | some pn => pn.crates.foldl (fun s c =>
          let src := match objOf s c.2 with | some so => crateId so | none => 0
          copyFrom s x { blankObj x p .crate c.1 f s.timebase with copy := true, valid := q, srcId := src } c.1 f c.2 q) s
      | none => s
    let s := match last with
      | some l => l.2.slabs.foldl (fun s c => copyFrom s x (blankObj x p .slab c.1 0 s.timebase) c.1 0 c.2 0) s
      | none => s
    let ref := match last with | some l => nodeRef l.1 l.2.gen | none => 0
    modSess s h fun x => { x with prefixRef := ref, length := t, kv := x.inTokens.take t, supplied := t }

/-- Undo the links and copies of a request: the session starts with nothing (R328). -/
def undoLinks (s : State) (h : Nat) : State :=
  modSess (releaseObjs s h) h fun x => { x with length := 0, kv := [], supplied := 0 }

/-- COMMIT with `t` on this controller: the status it answers with (R328). -/
def commitLocal (s : State) (src req h t : Nat) : State × Status × Nat :=
  match sessOf s h, paramsOf s (hCtx h) with
  | some x, some p =>
    if t = 0 then
      let s := if 0 < x.length && x.step = 0 then undoLinks s h else s
      (dropPins s src req, .ok, 0)
    else match pinsOf s src req with
      | none => (s, .busyMaint, 0x1)
      | some pin => (dropPins (applyLinks s h t p pin) src req, .ok, 0)
  | _, _ => (s, .badHandle, 0x1)

/-! ### Withdrawal and reclaim (R339, R340) -/

/-- The INDEXED nodes of the subtree of a node, the node included. -/
def subtree (s : State) : Nat → List Nat → List Nat
  | 0, l => l
  | f + 1, l =>
    let kids := (s.inv.nodes.filter fun n => n.2.indexed && !l.contains n.1 && (match n.2.parent with | some q => l.contains q | none => false)).map (·.1)
    if kids.isEmpty then l else subtree s f (l ++ kids)

/-- Take one node out of the index: the counts that INDEXED gave go. -/
def unindex (s : State) (i : Nat) : State :=
  match tget? s.inv.nodes i with
  | some n =>
    if n.indexed then
      n.crates.foldl (fun s c => dropRef s c.2) (modNode s i fun x => { x with indexed := false, pinned := false })
    else s
  | none => s

/-- Withdraw a node with its subtree: the count of nodes withdrawn. -/
def withdrawNode (s : State) (i : Nat) : State × Nat :=
  match tget? s.inv.nodes i with
  | some n =>
    if n.indexed then
      let l := subtree s s.inv.nodes.length [i]
      (sweepAll (l.foldl unindex s), l.length)
    else (s, 0)
  | none => (s, 0)

/-- Withdraw every node of a context. -/
def withdrawCtx (s : State) (ctx : Nat) : State × Nat :=
  let l := (s.inv.nodes.filter fun n => n.2.indexed && n.2.ctx = ctx).map (·.1)
  (sweepAll (l.foldl unindex s), l.length)

/-- Count the nodes that PFX_REMOVE, R342 or a teardown withdrew. -/
def countWithdrawn (r : State × Nat) : State × Nat := (bump r.1 Reg.INV_CHURN.withdrawn r.2, r.2)

/-- A node reclaim may take: no child, not PINNED, no session names it or its crates. -/
def reclaimableNode (s : State) (i : Nat) (n : InvNode) : Bool :=
  n.indexed && !n.pinned && !(s.inv.nodes.any fun c => c.2.parent = some i) && !(s.sess.table.any fun x => x.2.prefixRef = nodeRef i n.gen) &&
    n.crates.all fun c => match objOf s c.2 with | some o => decide (o.refs ≤ 1) | none => true

/-- Reclaim in ascending t_use until `need` records are free. -/
def reclaim : Nat → Nat → Nat → State → State × Nat
  | 0, _, _, s => (s, 0)
  | f + 1, cap, need, s =>
    if s.inv.nodes.length + need ≤ cap then (s, 0)
    else match minBy (fun n => n.2.tUse) (s.inv.nodes.filter fun n => reclaimableNode s n.1 n.2) with
      | some n => let r := reclaim f cap need (sweepAll (unindex s n.1)); (r.1, r.2 + 1)
      | none => (s, 0)

/-- Reclaim for a walk, counted and reported at most once per second. -/
def reclaimFor (s : State) (cap need : Nat) : State :=
  let (s, n) := reclaim s.inv.nodes.length cap need s
  if n = 0 then s
  else
    let s := bump s Reg.INV_CHURN.reclaimed n
    let s := { s with inv := { s.inv with reclaimCount := s.inv.reclaimCount + n } }
    if duePerSecond s.inv.reclaimAt s.timebase then
      let c := s.inv.reclaimCount
      report { s with inv := { s.inv with reclaimAt := some s.timebase, reclaimCount := 0 } } 0x0A01 0 0 [c]
    else s

/-! ### Publishing (R334 to R336) -/

/-- The result of a walk. -/
structure Walk where
  indexed : Nat := 0
  created : List Nat := []
  linked : Nat := 0
  slabPoint : Bool := false
  last : Option Nat := none
  deriving DecidableEq, Repr

/-- A session's crate `j` of a layer may be published: full, not poisoned. -/
def publishable (s : State) (hk layer j : Nat) : Bool :=
  match (mapped s hk .crate layer j).bind (objOf s) with
  | some o => o.valid = 64 && !o.poison
  | none => false

/-- The chunks the walk takes (R334): full in every hosted ATTN layer, tokens known, below the limit. -/
def walkChunks (s : State) (x : Session) (p : Params) (maxChunks : Nat) : Nat :=
  let ls := attnLayers s (hSerial x.handle) p 0 255
  let lim := if maxChunks = 0 then x.kv.length / 64 else Nat.min maxChunks (x.kv.length / 64)
  match (List.range lim).find? fun j => !ls.all fun l => publishable s (hKey x.handle) l j with
  | some j => j
  | none => lim

/-- The chained hashes of the first `n` chunks. -/
def chunkHashes (ctx fmt : Nat) (toks : List Nat) : Nat → List Nat
  | 0 => []
  | n + 1 =>
    let l := chunkHashes ctx fmt toks n
    l ++ [chunkHash (match l.getLast? with | some h => h | none => rootHash ctx fmt) (chunkOf toks n) fmt]

/-- Link a session to the crates of a node in place of its own (R334); whether anything was replaced. -/
def linkNode (s : State) (hk : Nat) (n : InvNode) : State × Bool :=
  n.crates.foldl (fun acc c =>
    match mapped acc.1 hk .crate c.1 n.depth with
    | some id =>
      if id = c.2 then acc
      else
        let s := modObj acc.1 c.2 fun o => { o with refs := o.refs + 1 }
        (dropRef (setMap s hk .crate c.1 n.depth c.2) id, true)
    | none => acc) (s, false)

/-- Create the node of a chunk from the session's private crates (R334). -/
def createNode (s : State) (x : Session) (p : Params) (j hash : Nat) (parent : Option Nat) (pin : Bool) : State × Nat :=
  let i := match firstFree s.inv.nodes (s.inv.nodes.length + 1) with | some i => i | none => s.inv.nodes.length
  let gen := tget 0 s.inv.gens i + 1
  let hk := hKey x.handle
  let crates := (attnLayers s (hSerial x.handle) p 0 255).filterMap fun l => (mapped s hk .crate l j).map fun id => (l, id)
  let n : InvNode := { hash := hash, parent := parent, ctx := hCtx x.handle, fmt := fmtCode x.bx16, depth := j, gen := gen, pinned := pin,
                       tUse := s.timebase, born := s.inv.nextBorn, tokens := chunkOf x.kv j, crates := crates }
  let s := crates.foldl (fun s c =>
    match objOf s c.2 with
    | some o =>
      let s := putObj s c.2 { o with shared := true, refs := 2, dirty := true }
      if o.state = .resident then s else requestRaise s c.2 (qDemand x.cls)
    | none => s) s
  ({ s with inv := { s.inv with nodes := tset s.inv.nodes i n, gens := tset s.inv.gens i gen, nextBorn := s.inv.nextBorn + 1 } }, i)

/-- One chunk of the walk. -/
def walkOne (x : Session) (p : Params) (pin : Bool) (acc : State × Walk) (j : Nat × Nat) : State × Walk :=
  let (s, w) := acc
  match findNode s (hCtx x.handle) (fmtCode x.bx16) j.2 j.1 (chunkOf x.kv j.2) with
  | some (i, n) =>
    let (s, any) := linkNode s (hKey x.handle) n
    let s := if pin then modNode s i fun n => { n with pinned := true } else s
    (s, { w with indexed := w.indexed + 1, linked := w.linked + b2n any, last := some i })
  | none =>
    let (s, i) := createNode s x p j.2 j.1 w.last pin
    (s, { w with indexed := w.indexed + 1, created := w.created ++ [i], last := some i })

/-- Stored slabs of a session's hosted state-space layers for a slab point (R335). -/
def slabPoints (s : State) (x : Session) (p : Params) : State × List (Nat × Nat) :=
  (ssmLayers s (hSerial x.handle) p 0 255).foldl (fun acc l =>
    match (mapped acc.1 (hKey x.handle) .slab l 0).bind (objOf acc.1) with
    | some o =>
      let c : Lower := { tier := 1, target := 0, unit := nextUnit acc.1 1 0,
                         bytes := if o.attic then storedBytes acc.1 o else (match o.lower with | some b => b.bytes | none => []), step := x.step }
      let r := addObj acc.1 { blankObj x p .slab l 0 acc.1.timebase with dirty := false, lower := some c }
      (r.1, acc.2 ++ [(l, r.2)])
    | none => acc) (s, [])

/-- The walk of R334 on this controller: NO_CAPACITY when records stay short. -/
def publishLocal (s : State) (h maxChunks : Nat) (pin : Bool) : State × Status × Walk :=
  match sessOf s h, paramsOf s (hCtx h) with
  | some x, some p =>
    let ctx := hCtx h
    let fmt := fmtCode x.bx16
    let n := walkChunks s x p maxChunks
    let hashes := (chunkHashes ctx fmt x.kv n).zipIdx
    let need := (hashes.filter fun j => (findNode s ctx fmt j.2 j.1 (chunkOf x.kv j.2)).isNone).length
    let cap := capacityFor s (hSerial h) p
    let s := if cap < s.inv.nodes.length + need && flag s Reg.INV_CFG.reclaim then reclaimFor s cap need else s
    if cap < s.inv.nodes.length + need || cap = 0 then (report s 0x0A02 ctx 0 [ctx], .noCapacity, {})
    else
      let (s, w) := hashes.foldl (walkOne x p pin) (s, {})
      match w.last with
      | none => (s, .ok, w)
      | some i =>
        let gen := (tget? s.inv.nodes i).elim 0 (·.gen)
        let s := modSess s h fun x => { x with prefixRef := nodeRef i gen }
        if isHybrid p && x.length = 64 * n then
          let had := (tget? s.inv.nodes i).elim false (·.slabPoint)
          let (s, sl) := if had then (s, []) else slabPoints s x p
          let s := modNode s i fun m => { m with slabPoint := true, slabs := m.slabs ++ sl }
          (sweepAll s, .ok, { w with slabPoint := true })
        else (sweepAll s, .ok, w)
  | _, _ => (s, .badHandle, {})

/-! ### Coordination at the home -/

/-- The other controllers that host a layer of a context, with their epochs. -/
def otherHosts (s : State) (serial : Nat) (p : Params) : List (Nat × Nat) :=
  (rangeHosts s serial 0 (lastLayer p)).filter fun d => d.1 ≠ s.device

/-- An INV_REQ of this controller. -/
def invReq (s : State) (op epoch ctx fmt req value h : Nat) : InvReq :=
  { op := op, epoch := epoch, src := s.device, context := ctx, fmt := fmt, pin := false, all := false, request := req, value := value,
    handle := h, hash := 0, tokens := [] }

/-- The lookup of an open is over: the tokens supplied are counted, the headroom of linked crates returns (R331), the
session enters PREFILLING, its input rows go out (R370), the mirror learns t and the hashes of the linked nodes, each as two words,
where there are any (R332). -/
def lookupDone (s : State) (h t : Nat) : State :=
  match sessOf s h, paramsOf s (hCtx h) with
  | some x, some p =>
    let pages := (attnLayers s (hSerial h) p 0 255).length * (t / 64) * cratePages p x.bx16
    let hashes := chunkHashes (hCtx h) (fmtCode x.bx16) x.inTokens (t / 64)
    let s := { s with inv := { s.inv with suppliedTokens := s.inv.suppliedTokens + t } }
    let s := setSess s { x with lookup := none, supplied := t, headroom := { x.headroom with crate := x.headroom.crate - pages } }
    let s := tallyTrim s h (x.inTokens.length - t)
    let s := setStateP s h .prefilling (if t = 0 then [] else t :: (hashes.map fun h => [h % 2 ^ 32, h / 2 ^ 32]).flatten)
    match sessOf s h with | some x => startOwnStep (sendInputRows s x) h | none => s
  | _, _ => s

/-- Send COMMIT with `t` to every controller probed. -/
def sendCommit (s : State) (x : Session) (l : Lookup) (t : Nat) (p : Params) : State :=
  (otherHosts s (hSerial x.handle) p).foldl (fun s d =>
    if l.probed.contains d.1 then
      sendMsg s d.1 (.invReq (invReq s 2 d.2 (hCtx x.handle) (fmtCode x.bx16) l.req t x.handle))
    else s) s

/-- Give up the lookup after a COMMIT that failed: COMMIT with 0 everywhere, the open proceeds with nothing supplied and waits
no further (R328). -/
def lookupFails (s : State) (h : Nat) : State :=
  match sessOf s h, paramsOf s (hCtx h) with
  | some x, some p =>
    match x.lookup with
    | none => s
    | some l =>
      let s := sendCommit s x l 0 p
      let (s, _, _) := commitLocal s s.device l.req h 0
      lookupDone s h 0
  | _, _ => s

/-- The supplied count of R327 from the answers. -/
def decideSupplied (s : State) (answers : List (Nat × Nat × Option (List Nat))) : Nat :=
  let cand := (answers.map fun a => a.2.1 :: a.2.2.getD []).flatten
  let ok (t : Nat) : Bool := answers.all fun a =>
    (match a.2.2 with | some l => l.contains t || t = 0 | none => decide (t ≤ a.2.1)) && (a.1 ≠ s.device || decide (t ≤ a.2.1))
  let t := maxOf (cand.filter ok)
  if t % 64 < fld s Reg.INV_CFG.min_partial then t / 64 * 64 else t

/-- COMMIT with `t` to every controller probed, whose answers the home awaits (R327, R328). -/
def lookupSend (s : State) (h t : Nat) : State :=
  match sessOf s h, paramsOf s (hCtx h) with
  | some x, some p =>
    match x.lookup with
    | none => s
    | some l =>
      let s := sendCommit s x l t p
      let (s, st, _) := commitLocal s s.device l.req h t
      if st ≠ .ok then lookupFails s h
      else if l.probed.isEmpty then lookupDone s h t
      else modSess s h fun x => { x with lookup := some { l with committing := true, t := t, waitingFor := l.probed } }
  | _, _ => s

/-- Every PROBE has been answered: decide t and commit (R327). -/
def lookupCommit (s : State) (h : Nat) : State :=
  match (sessOf s h).bind (·.lookup) with
  | some l => lookupSend s h (decideSupplied s l.answers)
  | none => s

/-- A PROBE went unanswered or was refused: t is 0 (item 4 of R327). -/
def lookupZero (s : State) (h : Nat) : State := lookupSend s h 0

/-- Start the lookup of an open after tokenizing (R325, R327). -/
def startLookup (s : State) (h : Nat) : State :=
  match sessOf s h, paramsOf s (hCtx h) with
  | some x, some p =>
    if decide (s.attached < 2) || !hasCap s 6 || !flag s Reg.INV_CFG.enable then lookupDone s h 0
    else
      let req := s.inv.nextReq
      let s := { s with inv := { s.inv with nextReq := req + 1 } }
      let fmt := fmtCode x.bx16
      let (s, best, pts) := localLookup s s.device req h p x.inTokens fmt
      let others := otherHosts s (hSerial h) p
      let l : Lookup := { req := req, probed := others.map (·.1), waitingFor := others.map (·.1), answers := [(s.device, best, pts)],
                          committing := false, t := 0 }
      let s := modSess s h fun x => { x with lookup := some l }
      let s := others.foldl (fun s d =>
        sendMsg s d.1 (.invReq { invReq s 1 d.2 (hCtx h) fmt req x.inTokens.length h with tokens := x.inTokens })) s
      if others.isEmpty then lookupCommit s h else s
  | _, _ => s

/-- The operation of a request. -/
def invOp (s : State) (req : Nat) : Option InvOp := s.inv.ops.find? (·.request = req)

/-- Replace an operation. -/
def setInvOp (s : State) (o : InvOp) : State :=
  { s with inv := { s.inv with ops := modFirst (fun x => x.request = o.request) (fun _ => o) s.inv.ops } }

/-- Withdraw on another controller the nodes a failed publication created (R336). -/
def withdrawCreated (s : State) (h : Nat) (created : List Nat) (p : Params) : State :=
  created.foldl (fun s i =>
    match tget? s.inv.nodes i with
    | some n =>
      let s := (otherHosts s (hSerial h) p).foldl (fun s d =>
        sendMsg s d.1 (.invReq { invReq s 4 d.2 (hCtx h) n.fmt s.inv.nextReq n.depth h with hash := n.hash })) s
      (withdrawNode s i).1
    | none => s) s

/-- Every controller has answered: the verb completes (R336 to R338). -/
def finishInvOp (s : State) (o : InvOp) : State :=
  let s := { s with inv := { s.inv with ops := s.inv.ops.filter (·.request ≠ o.request) } }
  if !o.publish then complete s o.sub .ok 0 [o.withdrawn]
  else
    let s := modSess s o.handle fun x => { x with publish := none, publishing := false }
    match o.status with
    | some (st, d) =>
      let s := match paramsOf s (hCtx o.handle) with | some p => withdrawCreated s o.handle o.created p | none => s
      refuse s o.sub st d
    | none =>
      let ref := match sessOf s o.handle with | some x => x.prefixRef | none => 0
      complete s o.sub .ok 0 [o.indexed, o.created.length, o.linked, b2n o.slabPoint, ref]

/-- Start the publication of a session at its step boundary (R333). -/
def startPublish (s : State) (h : Nat) : State :=
  match sessOf s h, paramsOf s (hCtx h) with
  | some x, some p =>
    match x.publish with
    | none => s
    | some (sub, maxChunks, pin) =>
      let req := s.inv.nextReq
      let s := { s with inv := { s.inv with nextReq := req + 1 } }
      let s := modSess s h fun x => { x with publishing := true }
      let (s, st, w) := publishLocal s h maxChunks pin
      let others := otherHosts s (hSerial h) p
      let o : InvOp := { request := req, sub := sub, publish := true, handle := h, waitingFor := others.map (·.1),
                         status := (if st = .ok then none else some (st, 0)), indexed := w.indexed, created := w.created, linked := w.linked,
                         slabPoint := w.slabPoint }
      let s := { s with inv := { s.inv with ops := s.inv.ops ++ [o] } }
      let s := others.foldl (fun s d =>
        sendMsg s d.1 (.invReq { invReq s 3 d.2 (hCtx h) (fmtCode x.bx16) req maxChunks h with pin := pin })) s
      if others.isEmpty then finishInvOp s o else s
  | _, _ => s

end Sys2Proof.Machine
end

