-- ==== Sys2Proof/Machine/SessVerbs.lean ====
section
/-! DEFINITION. How verbs start (R35 to R38, R45, R47, R51), and the session verbs SES_OPEN, SES_RESUME, SES_QUERY,
PFX_INSERT up to what a step decides (R93, R94, R118, R119, R630). -/
namespace Sys2Proof.Machine

/-! ### The prologue of every verb -/

/-- Account for an entry as read: a slot was reserved when the doorbell read it, else one is reserved now (R580). -/
def takeEntry (s : State) (sub : Sub) : State :=
  let x := ringOf s sub.ring
  let x := if 0 < x.unstarted then { x with unstarted := x.unstarted - 1 }
    else { x with reserved := x.reserved + 1, outstanding := x.outstanding + 1 }
  setRing s sub.ring { x with tags := x.tags ++ [sub.tag] }

/-- A verb's entry: nothing while the host port is in reset (R36); else read, refused for a tag in use (R37), for want of an ATTACH (R47), or for its level (R51); else
`f`. ATTACH and QUERY_CAP have level 0: they need no attachment. -/
def verb (level : Nat) (sub : Sub) (f : State → State) (s : State) : State :=
  let dup := (ringOf s sub.ring).tags.contains sub.tag
  if s.host.inReset then s else
  let s := takeEntry s sub
  if dup then refuse s sub .badHandle 0x1
  else if level ≠ 0 && s.attached = 0 then refuse s sub .versionMismatch 0x1
  else if s.attached < level then refuse s sub .versionMismatch 0x2
  else f s

/-- Why a context cannot serve a command: missing, torn. -/
def ctxBad (s : State) (ctx : Nat) : Option (Status × Nat) :=
  match tget? s.contexts ctx with
  | none => some (.badHandle, 0x1)
  | some c => if c.torn.isSome then some (.contextTorn, 0x0) else none

/-- The detail of a refusal by session state (R94). -/
def stateDetail (st : SesState) : Nat := 2 + 256 * st.code

/-- The session a verb names, or why it cannot be served: BAD_HANDLE, PROTECTION, CONTEXT_TORN, STALE_ROLE in the
general order (R45, R91, R94). -/
def verbSession (s : State) (sub : Sub) : Except (Status × Nat) Session :=
  let torn := (tget? s.contexts (hCtx sub.handle)).elim false (·.torn.isSome)
  match sessOf s sub.handle with
  | some x =>
    if x.guest then
      match tget? s.mir.shadows (hKey sub.handle) with
      | some d => if d.desc.handle = sub.handle then .error (.staleRole, d.desc.homeEpoch) else .error (.badHandle, 0x1)
      | none => .error (.badHandle, 0x1)
    else if hCtx sub.handle ≠ sub.context then .error (.protection, 0x1)
    else if torn && x.state ≠ .retiring then .error (.contextTorn, 0x0)
    else .ok x
  | none =>
    match tget? s.mir.shadows (hKey sub.handle) with
    | some d =>
      if d.desc.handle ≠ sub.handle then .error (.badHandle, 0x1)
      else if hCtx sub.handle ≠ sub.context then .error (.protection, 0x1)
      else .error (.staleRole, d.desc.homeEpoch)
    | none => .error (.badHandle, 0x1)

/-- A swap in progress concerns a context (R373). -/
def swapping (s : State) (ctx : Nat) : Bool := s.tok.swaps.any fun w => w.ctxs.contains ctx

/-! ### Inputs (R118, R119, R354, R630) -/

/-- The token IDs of a token input. -/
def tokenIds (a : OpenArgs) : List Nat := (List.range (a.inLen / 4)).map fun i => leAt a.data (4 * i) 4

/-- TOKEN_INPUT. -/
def isTokenInput (a : OpenArgs) : Bool := bitOf a.flags 2

/-- Check 5 of R630: the input breaks R119 or R354. -/
def inputBad (s : State) (ctx : Nat) (a : OpenArgs) : Bool :=
  if isTokenInput a then
    a.inLen = 0 || a.inLen % 4 ≠ 0 || decide (1048576 < a.inLen) ||
      (match vocabOf s ctx with
       | some v => (tokenIds a).any fun t => decide (v.strings.length ≤ t)
       | none => true)
  else a.inLen = 0

/-- A token field with its enable bit (R118). -/
def tokenField (v : Nat) : Option Nat := if bitOf v 31 then some (v % 2 ^ 18) else none

/-- The sampler parameters of a params block (R359). -/
def samplerOf (b : Option (List Nat)) : Sampler :=
  match b with
  | none => {}
  | some l => { temp := leAt l 0 2, topK := leAt l 2 2, topP := leAt l 4 2, minP := leAt l 6 2, repPen := leAt l 8 2,
                repWindow := leAt l 10 2, noSpecial := bitOf (leAt l 12 1) 0, autoId := leAt l 16 2, autoState := leAt l 18 4 }

/-- Check 4 of R630: a parameter out of range, a reserved byte, or a refused automaton word (R359, R364). -/
def samplerBad (s : State) (ctx : Nat) (b : Option (List Nat)) : Bool :=
  match b with
  | none => false
  | some l =>
    let p := samplerOf b
    decide (1024 < p.topK) || decide (p.repPen < 4096) || decide (1024 < p.repWindow) || decide (2 ≤ leAt l 12 1) ||
      leAt l 13 3 ≠ 0 || leAt l 22 2 ≠ 0 || leAt l 24 8 ≠ 0 || !autoOk (constrOf s ctx) p.autoId p.autoState

/-- The VERSION_MISMATCH checks of R630 in order: the detail of the first that fails. -/
def openArgsBad (s : State) (open_ : Bool) (ctx : Nat) (a : OpenArgs) : Option Nat :=
  if a.rsv ≠ 0 || decide (8 ≤ a.flags) || (open_ && (decide (4 ≤ a.cls) || bitsOf a.park 18 13 ≠ 0 || bitsOf a.end_ 18 13 ≠ 0)) ||
      (!open_ && a.flags % 4 ≠ 0) || (open_ && decide (s.attached < 3) && (a.customer ≠ 0 || (samplerOf a.params).autoId ≠ 0)) then some 0x2
  else if open_ && (vocabOf s ctx).isNone then some 0xD
  else if open_ && fldAt s Reg.TOP_ORING_CFG.kind [a.outRing % 1024] ≠ 0 then some 0x14
  else if open_ && samplerBad s ctx a.params then some 0xC
  else if inputBad s ctx a then some 0x5
  else none

/-! ### Inputs known -/

/-- The tokens of a pending open or resume are known: reservations above the real count return, the mirror is opened
or told, the inventory lookup or the resume step proceeds (R101, R104, R294, R313, R355, R370). -/
def inputReady (s : State) (h : Nat) (toks : List Nat) (truncated : Bool) : State :=
  match sessOf s h, paramsOf s (hCtx h) with
  | some x, some p =>
    let s := { s with tok := { s.tok with tokCount := s.tok.tokCount + toks.length } }
    let s := if truncated then bump s Reg.TOK_COUNT.truncated else s
    let x := { x with inTokens := toks, input := none, verb := x.verb.map fun v => { v with truncated := truncated } }
    let need := if x.state = .resuming then resumeNeed s x p toks.length 0 255 else openNeed s x p toks.length 0 255
    let room : Headroom := { crate := Nat.min x.headroom.crate need.crate, slab := Nat.min x.headroom.slab need.slab }
    let s := tallyTrim (setSess s { x with headroom := room }) h toks.length
    if x.state = .resuming then
      let s := sendMirror s h true .state id 0 SesState.resuming.code (.state toks)
      match sessOf s h with | some y => startOwnStep (sendInputRows s y) h | none => s
    else startLookup (openHomeMirror s h [] false true) h
  | _, _ => s

/-- Start the input of a pending verb: a token input is known at once, a text waits for the tokenizer (R355). -/
def startInput (s : State) (h : Nat) (a : OpenArgs) : State :=
  if isTokenInput a then inputReady s h (tokenIds a) false
  else
    let inp : Input := { isTokens := false, inLen := a.inLen, data := a.data, order := s.tok.nextInput }
    let busy : Bool := s.sess.table.any fun p => (p.2.input.elim false fun i => s.tok.serving = some i.order)
    let now := if busy then s.tok.serving else some inp.order
    modSess { s with tok := { s.tok with nextInput := s.tok.nextInput + 1, serving := now } } h fun x => { x with input := some inp }

/-! ### SES_OPEN -/

/-- The next serial and its generation (R33, R89), `none` when every serial is held. -/
def nextSerial (s : State) : Option (Nat × Nat) :=
  let z := s.sess.serials
  if z.nextFresh < sessionLimit s then some (z.nextFresh, 0)
  else match z.freed with
    | f :: _ => some (f, (tget 0 z.generation f + 1) % 65536)
    | [] => none

/-- Take the next serial. -/
def takeSerial (s : State) : State :=
  let z := s.sess.serials
  if z.nextFresh < sessionLimit s then { s with sess := { s.sess with serials := { z with nextFresh := z.nextFresh + 1 } } }
  else match z.freed with
    | f :: rest =>
      let g := tset z.generation f ((tget 0 z.generation f + 1) % 65536)
      { s with sess := { s.sess with serials := { z with freed := rest, generation := g } } }
    | [] => s

/-- A shelf for a new descriptor is free, or the next spill will free one (R99). -/
def shelfComes (s : State) : Bool :=
  decide (shelvesUsed s < shelves s) || (countedSess s).any (·.place = .spilling) ||
    ((spillVictim s).isSome && decide (spilledCount s < spillCap s))

/-- The session a SES_OPEN would make. -/
def openRecord (s : State) (h part : Nat) (a : OpenArgs) : Session :=
  { handle := h, state := .admitting, cls := a.cls % 4, fullAttn := bitOf a.flags 0, bx16 := bitOf a.flags 1, customer := a.customer % 4096,
    partition := part, outRing := a.outRing % 1024, maxTokens := if a.maxTokens = 0 then 0xFFFFFFFF else a.maxTokens, seed := a.seed,
    parkToken := tokenField a.park, endToken := tokenField a.end_, homeDev := s.device, tOpen := s.timebase, tStart := s.timebase,
    tTouch := s.timebase, sampler := samplerOf a.params, latency := { ttftOpen := true } }

/-- Hold what the hatch admitted for a verb. -/
def holdVerb (s : State) (h : Nat) (room : Headroom) (cost : List LedgerCost) (outside : Bool) (t draw : Nat) : State :=
  let s := modSess s h fun x => { x with headroom := room, heldIn := x.heldIn + Nat.min t draw, heldOut := x.heldOut + (draw - t) }
  let s := match sessOf s h with | some x => tallyDraw s x.customer draw | none => s
  let s := if cost.isEmpty then s else ledgerAdd s h none cost
  if outside then noteOutside s h (hCtx h) else s

/-- SES_OPEN after its general checks: the hatch, the shelf and serial, OPENED, the input (R93, R96, R99, R101). -/
def openAdmit (s : State) (sub : Sub) (a : OpenArgs) (c : Ctx) : State :=
  match nextSerial s with
  | none => refuse s sub .noCapacity 0x0
  | some (serial, gen) =>
    if sessionLimit s ≤ (countedSess s).length || !shelfComes s then refuse (noteSpillFull s) sub .noCapacity 0x0
    else
      let h := mkHandle s.device sub.context serial gen
      let x := openRecord s h c.partition a
      let t := estimateT s (isTokenInput a) a.inLen
      match decideVerb s x c.params true t with
      | .refuse k st d => refuse (hatchRefused s k) sub st d
      | .accept room cost outside draw =>
        let place := if shelvesUsed s < shelves s then Place.shelf else .waiting
        let mirror := match chooseMirror s serial [] with | some m => m.1 | none => 0x7FF
        let s := setSess (takeSerial s) { x with place := place, mirrorDev := mirror, verb := some { sub := sub, resume := false } }
        let s := holdVerb s h room cost outside t draw
        let s := assignTrack s h false
        let s := postChunk s h (mkChunk .opened h 0 0 false false [] [sub.tag, sub.ring])
        startInput (checkSpill s) h a

/-- SES_OPEN (R93, R118, R119, R291, R630). -/
def doOpen (s : State) (sub : Sub) (a : OpenArgs) : State :=
  match openArgsBad s true sub.context a with
  | some d => refuse s sub .versionMismatch d
  | none =>
    match tget? s.contexts sub.context with
    | none => refuse s sub .badHandle 0x1
    | some c =>
      if !hasCap s 0 && !hasCap s 1 then refuse s sub .unitAbsent 0x1
      else if c.torn.isSome then refuse s sub .contextTorn 0x0
      else if s.steps.paused then { s with tok := { s.tok with paused := s.tok.paused ++ [.open_ sub a] } }
      else if swapping s sub.context then
        if sub.nowait then refuse s sub .tablePaused 0x0
        else { s with tok := { s.tok with paused := s.tok.paused ++ [.open_ sub a] } }
      else openAdmit s sub a c

/-! ### SES_RESUME, SES_QUERY, PFX_INSERT -/

/-- A later command that names the session waits: an earlier SES_RESUME or PFX_INSERT has not completed (R39), the
descriptor is not on its shelf (R100), or its rejoin has no answer yet (R550). -/
def mustWait (x : Session) : Bool :=
  x.rejoin ||
  (match x.verb with | some v => v.resume | none => false) || x.publish.isSome || x.place = .spilled || x.place = .fetching || x.place = .spilling

/-- Queue a command behind its session. -/
def queueVerb (s : State) (h : Nat) (v : SessVerb) : State := startFetch (modSess s h fun x => { x with waiting := x.waiting ++ [v] }) h

/-- SES_RESUME of a PARKED or DORMANT session that the hatch admits (R26, R93, R308). -/
def resumeAdmit (s : State) (sub : Sub) (a : OpenArgs) (x : Session) (p : Params) : State :=
  let h := x.handle
  let t := estimateT s (isTokenInput a) a.inLen
  match decideVerb s x p false t with
  | .refuse k st d => refuse (hatchRefused s k) sub st d
  | .accept room cost outside draw =>
    let lat := { x.latency with ttftOpen := true, outside := false, tbtMaxNs := 0, resMaxNs := 0 }
    let s := setSess s { x with verb := some { sub := sub, resume := true }, tStart := s.timebase, tTouch := s.timebase, supplied := 0,
                                inTokens := [], latency := lat, state := .resuming }
    let s := modTrack s x fun k => { k with tbtMax := 0, resMax := 0 }
    let s := rehold (holdVerb s h room cost outside t draw) h
    let s := (keepSet s x).foldl (fun s id => match objOf s id with
      | some o => if o.state = .home && !hasMove s id then requestRaise s id (qDemand x.cls) else s
      | none => s) s
    startInput s h a

/-- SES_RESUME. -/
def doResume (s : State) (sub : Sub) (a : OpenArgs) : State :=
  match openArgsBad s false sub.context a with
  | some d => refuse s sub .versionMismatch d
  | none =>
    match verbSession s sub with
    | .error e => refuse s sub e.1 e.2
    | .ok x =>
      if x.state = .retiring then refuse s sub .cancelled 0
      else if mustWait x then queueVerb s sub.handle (.resume sub a)
      else if x.state ≠ .parked && x.state ≠ .dormant then refuse s sub .badHandle (stateDetail x.state)
      else if !hasCap s 0 && !hasCap s 1 then refuse s sub .unitAbsent 0x1
      else if s.steps.paused then { s with tok := { s.tok with paused := s.tok.paused ++ [.resume sub a] } }
      else if swapping s sub.context then
        if sub.nowait then refuse s sub .tablePaused 0x0
        else { s with tok := { s.tok with paused := s.tok.paused ++ [.resume sub a] } }
      else match paramsOf s sub.context with
        | some p => resumeAdmit s sub a x p
        | none => refuse s sub .badHandle 0x1

/-- The flags byte of a descriptor (R95). -/
def flagsByte (x : Session) : Nat :=
  b2n x.fullAttn + 2 * b2n x.bx16 + 4 * b2n x.cancelPending + 8 * b2n x.fixed + 16 * b2n x.posted

/-- The results of SES_QUERY (R119). -/
def queryResults (x : Session) : List Nat :=
  [x.state.code, x.cls, flagsByte x, x.fault.code, x.step, x.length, if x.step = 0 then 0xFFFFFFFF else x.step - 1,
   x.homeDev, x.homeEpoch, x.mirrorDev + 65536 * x.mirrorEpoch]

/-- SES_QUERY: OK in every state a descriptor is held in, SHADOW included (R94). -/
def doQuery (s : State) (sub : Sub) : State :=
  match tget? s.mir.shadows (hKey sub.handle) with
  | some d =>
    if d.desc.handle = sub.handle && (match sessOf s sub.handle with | some x => x.guest | none => true) then
      if hCtx sub.handle ≠ sub.context then refuse s sub .protection 0x1
      else complete s sub .ok 0 (queryResults { d.desc with state := .shadow })
    else refuse s sub .badHandle 0x1
  | none =>
    match verbSession s sub with
    | .error e => refuse s sub e.1 e.2
    | .ok x => if mustWait x then queueVerb s sub.handle (.query sub) else complete s sub .ok 0 (queryResults x)

/-- PFX_INSERT (R333, R337): pending until the session's next step boundary. -/
def doInsert (s : State) (sub : Sub) (maxChunks flags rsv : Nat) : State :=
  if rsv ≠ 0 || decide (2 ≤ flags) then refuse s sub .versionMismatch 0x2
  else match verbSession s sub with
    | .error e => refuse s sub e.1 e.2
    | .ok x =>
      if !hasCap s 6 then refuse s sub .unitAbsent 0x0
      else if mustWait x then queueVerb s sub.handle (.insert sub maxChunks flags rsv)
      else if x.state ≠ .active && x.state ≠ .parked && x.state ≠ .dormant then refuse s sub .badHandle (stateDetail x.state)
      else
        let s := setSess s { x with publish := some (sub, maxChunks, flags = 1) }
        if inFlight s sub.handle then s else startPublish s sub.handle

/-- The node that PFX_REMOVE names in a context (R338): by node_ref, or the prefix of the session `x`. -/
def removeNode (s : State) (ctx ref : Nat) (x : Option Session) : Except (Status × Nat) (Nat × InvNode) :=
  let r := if ref = 0 then x.elim 0 (·.prefixRef) else ref
  match tget? s.inv.nodes (bitsOf r 0 32) with
  | some n =>
    if r = 0 || nodeRef (bitsOf r 0 32) n.gen ≠ r then .error (.badHandle, 0xB)
    else if n.ctx ≠ ctx then .error (.protection, 0x1)
    else .ok (bitsOf r 0 32, n)
  | none => .error (.badHandle, 0xB)

/-- Withdraw nodes here and on every controller of the context: PFX_REMOVE completes when all have answered (R338). -/
def withdrawAll (s : State) (sub : Sub) (node : Option (Nat × InvNode)) : State :=
  let req := s.inv.nextReq
  let s := { s with inv := { s.inv with nextReq := req + 1 } }
  let others := match paramsOf s sub.context with | some p => otherHosts s (hSerial sub.handle) p | none => []
  let (s, n) := countWithdrawn (match node with | some q => withdrawNode s q.1 | none => withdrawCtx s sub.context)
  let o : InvOp := { request := req, sub := sub, publish := false, handle := sub.handle, waitingFor := others.map (·.1), withdrawn := n }
  let s := { s with inv := { s.inv with ops := s.inv.ops ++ [o] } }
  let s := others.foldl (fun s d => sendMsg s d.1 (.invReq (match node with
    | some q => { invReq s 4 d.2 sub.context q.2.fmt req q.2.depth sub.handle with hash := q.2.hash }
    | none => { invReq s 4 d.2 sub.context 0 req 0 0 with all := true }))) s
  if others.isEmpty then finishInvOp s o else s

/-- PFX_REMOVE (R338): flags bit 0 ALL; without it, node_ref 0 names the prefix of the named session. -/
def doRemove (s : State) (sub : Sub) (ref flags rsv : Nat) : State :=
  let all := flags = 1
  if rsv ≠ 0 || 1 < flags || (all && (ref ≠ 0 || sub.handle ≠ 0)) then refuse s sub .versionMismatch 0x2
  else match tget? s.contexts sub.context with
    | none => refuse s sub .badHandle 0x1
    | some c =>
      let absent (s : State) (f : State → State) : State :=
        if !hasCap s 6 then refuse s sub .unitAbsent 0x0 else if c.torn.isSome then refuse s sub .contextTorn 0x0 else f s
      if all then absent s fun s => withdrawAll s sub none
      else
        let named : Except (Status × Nat) (Option Session) :=
          if sub.handle = 0 then .ok none else (match verbSession s sub with | .ok x => .ok (some x) | .error e => .error e)
        match named with
        | .error e => refuse s sub e.1 e.2
        | .ok x =>
          if x.elim false mustWait then queueVerb s sub.handle (.remove sub ref flags rsv)
          else match removeNode s sub.context ref x with
            | .error e => refuse s sub e.1 e.2
            | .ok n => absent s fun s => withdrawAll s sub (some n)

/-- Start the next commands queued behind a session, until one of them is pending again. -/
def runQueue : Nat → State → Nat → State
  | 0, s, _ => s
  | n + 1, s, h =>
    match sessOf s h with
    | none => s
    | some x =>
      if mustWait x then s
      else match x.waiting with
        | [] => s
        | v :: rest =>
          let s := setSess s { x with waiting := rest }
          let s := match v with
            | .open_ sub a => doOpen s sub a
            | .resume sub a => doResume s sub a
            | .query sub => doQuery s sub
            | .insert sub k f r => doInsert s sub k f r
            | .cancel sub => refuse s sub .ok 0
            | .remove sub n f r => doRemove s sub n f r
          runQueue n s h

/-- The queue of a session, whole. -/
def runWaiting (s : State) (h : Nat) : State :=
  match sessOf s h with | some x => runQueue x.waiting.length s h | none => s

end Sys2Proof.Machine
end

