-- ==== Sys2Proof/Machine/AtnOps.lean ====
section
/-! DEFINITION. Operations of the attention service (chapter "The attention service") and of the units that carry it
out: NBU jobs (R195 to R214), tile queues (R241), appends, selection, results,
commit and kill. -/
namespace Sys2Proof.Machine

/-! ### NBU jobs (R205 to R210) -/

/-- Thread `t` of an NBU in the table. -/
def thKey (nbu t : Nat) : Nat := nbu * 4 + t

/-- A thread. -/
def threadOf (s : State) (nbu t : Nat) : NbuThread := tget {} s.nbu.threads (thKey nbu t)

/-- Replace a thread. -/
def setThread (s : State) (nbu t : Nat) (x : NbuThread) : State :=
  { s with nbu := { s.nbu with threads := tset s.nbu.threads (thKey nbu t) x } }

/-- The store a stack runs, where an image replaced the built-in one. -/
def storeOf (s : State) (nbu : Nat) : Option NbuStoreState := tget? s.nbu.stores (nbu / 1024)

/-- Threads that a unit of the controller may use (R210). -/
def unitThreads (s : State) : Nat := if flag s Reg.NBU_CTL.host_jobs then 3 else 4

/-- Start the next queued job of an NBU on a free thread: the oldest whose attic bucket is open (R261); while a C0 job waits
for the NBU, no other starts (R303). -/
def nbuStart (s : State) (nbu : Nat) : State :=
  match (List.range (unitThreads s)).find? fun t => !(threadOf s nbu t).busy with
  | none => s
  | some t =>
    let c0 := s.nbu.queued.any fun q => q.nbu = nbu && q.c0
    match s.nbu.queued.find? fun q => q.nbu = nbu && (q.c0 || !c0) && bucketOpen s (ctxPart s q.ctx) resAttic with
    | none => s
    | some q =>
      if (s.lay.reloads.any fun r => r.left.contains (nbu / 1024)) || s.clk.inReset.contains (nbu / 1024) then s
      else
        let s := { s with nbu := { s.nbu with queued := dropFirst (fun x => x = q) s.nbu.queued } }
        let s := charge s (ctxPart s q.ctx) resAttic q.bytes
        setThread s nbu t { threadOf s nbu t with entry := q.entry, ctx := q.ctx, issuer := q.issuer, busy := true, inexact := false,
                                                  poison := false, code := 0, pc := 0, detail := 0, cycles := 0 }

/-- Start jobs of an NBU while one can start; `n` bounds them. -/
def nbuStartAll : Nat → State → Nat → State
  | 0, s, _ => s
  | n + 1, s, nbu => nbuStartAll n (nbuStart s nbu) nbu

/-- Queue jobs and start what can start. -/
def queueJobs (s : State) (l : List NbuQueued) : State :=
  let s := { s with nbu := { s.nbu with queued := s.nbu.queued ++ l } }
  let nbus := l.foldl (fun acc q => if acc.contains q.nbu then acc else acc ++ [q.nbu]) ([] : List Nat)
  nbus.foldl (fun s n => nbuStartAll 4 s n) s

/-- After regulator buckets were refilled or a reload ended: every NBU with queued jobs tries again. -/
def nbuKick (s : State) : State :=
  let nbus := s.nbu.queued.foldl (fun acc q => if acc.contains q.nbu then acc else acc ++ [q.nbu]) ([] : List Nat)
  nbus.foldl (fun s n => nbuStartAll 4 s n) s

/-! ### Tile queues (R241) -/

/-- Queue tile commands of a half and class. -/
def queueTiles (s : State) (l : List TileCmd) : State :=
  l.foldl (fun s c =>
    let k := 4 * c.half + c.cls
    { s with den := { s.den with queues := tset s.den.queues k (tget [] s.den.queues k ++ [c]) } }) s

/-- Drop the queued tile commands of an attention work (R242). -/
def dropTiles (s : State) (work : Nat) : State :=
  { s with den := { s.den with queues := (tmap (fun _ q => q.filter fun c => c.serve || decide (c.work ≠ work)) s.den.queues).filter fun q => !q.2.isEmpty } }

/-! ### Coverage (R166, R168, R170) -/

/-- The cover record of a session's layer in a part. -/
def coverOf (s : State) (ref h layer : Nat) : AtnCover :=
  (s.atn.cover.find? fun c => c.stepRef = ref && c.handle = h && c.layer = layer).getD { stepRef := ref, handle := h, layer := layer }

/-- Replace a cover record. -/
def setCover (s : State) (c : AtnCover) : State :=
  let same (x : AtnCover) : Bool := x.stepRef = c.stepRef && x.handle = c.handle && x.layer = c.layer
  let l := if s.atn.cover.any same then modFirst same (fun _ => c) s.atn.cover else s.atn.cover ++ [c]
  { s with atn := { s.atn with cover := l } }

/-- Tokens appended for a KV head of a layer in the attempt. -/
def seenKv (s : State) (ref h layer kv : Nat) : Nat := tget 0 (coverOf s ref h layer).kvSeen kv

/-- Add tokens to the heads of a range. -/
def addRange (t : Tbl Nat) (first count n : Nat) : Tbl Nat := (List.range count).foldl (fun t i => tmod 0 t (first + i) (· + n)) t

/-- The heads of a message, KV and state-space. -/
def kvHeadsOf (q : AtnQkv) : List Nat := if q.attn then (List.range q.kvCount).map (q.kvFirst + ·) else []
/-- State-space heads of a message. -/
def ssmHeadsOf (q : AtnQkv) : List Nat := if q.ssm then (List.range q.gCount).map (q.gFirst + ·) else []

/-- Tokens of a message. -/
def msgTokens (q : AtnQkv) : Nat := q.tokensM1 + 1

/-- The layer's coverage is complete with answers (R168). -/
def layerCovered (s : State) (p : Params) (ref : Nat) (e : PartEntry) (layer : Nat) : Bool :=
  let c := coverOf s ref e.handle layer
  let le := layerEntry p layer
  (!le.attn || (List.range p.kvHeads).all fun h => decide (e.tokens ≤ tget 0 c.kvDone h)) &&
    (!le.ssm || (List.range p.ssmHeads).all fun g => decide (e.tokens ≤ tget 0 c.ssmDone g))

/-! ### Message elements (R164) -/

/-- Elements of Q, K and V of one token. -/
def tokenElems (p : Params) (q : AtnQkv) : Nat := if q.attn then q.kvCount * (p.group + 2) * p.headDim else 0

/-- Query head `j` (within the message) of token `i`. -/
def qBits (p : Params) (q : AtnQkv) (i j : Nat) : List Nat := slice q.elems (i * tokenElems p q + j * p.headDim) p.headDim
/-- K of KV head `k` (within the message) of token `i`. -/
def kBits (p : Params) (q : AtnQkv) (i k : Nat) : List Nat :=
  slice q.elems (i * tokenElems p q + (q.kvCount * p.group + k) * p.headDim) p.headDim
/-- V likewise. -/
def vBits (p : Params) (q : AtnQkv) (i k : Nat) : List Nat :=
  slice q.elems (i * tokenElems p q + (q.kvCount * (p.group + 1) + k) * p.headDim) p.headDim

/-- Elements of one token's state-space section. -/
def ssmElems (p : Params) (q : AtnQkv) : Nat := q.gCount * (2 * p.ssmP + 2 * p.ssmN + 1)

/-- Bits of part `o` (offset per head `w` wide) of state-space head `g` within the message. -/
def ssmBits (p : Params) (q : AtnQkv) (i o w g : Nat) : List Nat :=
  slice q.elems (msgTokens q * tokenElems p q + i * ssmElems p q + q.gCount * o + g * w) w

/-- x, z, B, C and Δ of a state-space head of token `i`, as bit patterns. -/
def ssmRaw (p : Params) (q : AtnQkv) (i g : Nat) : List (List Nat) :=
  [ssmBits p q i 0 p.ssmP g, ssmBits p q i p.ssmP p.ssmP g, ssmBits p q i (2 * p.ssmP) p.ssmN g,
   ssmBits p q i (2 * p.ssmP + p.ssmN) p.ssmN g, ssmBits p q i (2 * p.ssmP + 2 * p.ssmN) 1 g]

/-- Bytes that the header and the parameter block imply (R163, R164). -/
def impliedLength (p : Params) (q : AtnQkv) : Nat :=
  let e := msgTokens q * tokenElems p q + (if q.ssm then msgTokens q * ssmElems p q else 0)
  48 + ceilDiv (2 * e) 8 * 8

/-- What the header fixes by itself (order 1 of R166). -/
def headerOk (q : AtnQkv) : Bool :=
  q.rsv = 0 && (q.attn || q.kvCount = 0) && (q.ssm || q.gCount = 0) && (q.block || q.tokensM1 = 0) && decide (48 ≤ q.length)

/-- Order 1 of R166 with a parameter block. A section the layer does not carry has no heads (DEDUCED). -/
def messageOk (p : Params) (q : AtnQkv) : Bool :=
  let le := layerEntry p q.layer
  headerOk q && (!q.attn || (le.attn && decide (q.kvFirst + q.kvCount ≤ p.kvHeads))) &&
    (!q.ssm || (le.ssm && decide (q.gFirst + q.gCount ≤ p.ssmHeads))) && q.length = impliedLength p q

/-! ### Rotation and appends (R173 to R176) -/

/-- Rotary dimensions of a layer. -/
def rotOf (p : Params) (layer : Nat) : Nat := if (layerEntry p layer).noRope then 0 else p.rotDims

/-- The tables of a position. -/
def rotTable (p : Params) (rot pos : Nat) : List (Dyadic × Dyadic) := (List.range (rot / 2)).map fun i => rotCS pos (rateOf (p.rates.getD i 0))

/-- Q′ of query head `j` of token `i`. -/
def qPrime (p : Params) (q : AtnQkv) (i j : Nat) : List Elt :=
  let rot := rotOf p q.layer
  (rotVec rot p.rotAdjacent (rotTable p rot (q.pos + i)) ((qBits p q i j).map (elt16 p.inFp16))).map roundQ

/-- The groups of the K of KV head `k` of token `i`. -/
def kGroups (p : Params) (bx16 : Bool) (q : AtnQkv) (i k : Nat) : List Group :=
  let rot := rotOf p q.layer
  quantVec bx16 (rotVec rot p.rotAdjacent (rotTable p rot (q.pos + i)) ((kBits p q i k).map (elt16 p.inFp16)))

/-- The groups of V. -/
def vGroups (p : Params) (bx16 : Bool) (q : AtnQkv) (i k : Nat) : List Group :=
  quantVec bx16 (rotVec 0 false [] ((vBits p q i k).map (elt16 p.inFp16)))

/-- Write the groups of a slot. -/
def writeGroups (s : State) (o : Obj) (kv h t : Nat) (gs : List Group) : State :=
  writeObj s o (groupOffset o.bx16 o.heads o.dim kv h t 0) ((gs.map (packGroup o.bx16)).flatten)

/-- Make an object of a session, with pages in the attic; `.error` holds what is missing: a victim to wait for, or no
room at all (R145, R151). -/
def createObj (s : State) (x : Session) (p : Params) (k : ObjKind) (layer index : Nat) : Except (Option Nat) State :=
  let o := blankObj x p k layer index s.timebase
  match findRoom s o with
  | .at_ n pg sh =>
    let o := { withPages s o n pg sh with state := .resident }
    let (s, id) := addObj s o
    .ok (checkAttic (setMap (putObj s id o) (hKey x.handle) k layer index id))
  | .evict v => .error (some v)
  | .none_ => .error none

/-- Objects that a message's appends need and that do not exist: new crates, strip pages of a selective session, the
slab (R125, R178, R131). -/
def newObjs (s : State) (x : Session) (p : Params) (q : AtnQkv) : List (ObjKind × Nat) :=
  let hk := hKey x.handle
  let le := layerEntry p q.layer
  let tail := (q.pos + msgTokens q - 1) / 64
  let crates := if q.attn then (List.range (tail + 1)).filter fun c => decide (q.pos / 64 ≤ c) && (mapped s hk .crate q.layer c).isNone else []
  let strips := if q.attn && isSelective s x le then (List.range (tail / 64 + 1)).filter fun k => (mapped s hk .strip q.layer k).isNone else []
  let slab := if q.ssm && (mapped s hk .slab q.layer 0).isNone then [0] else []
  crates.map (fun c => (.crate, c)) ++ strips.map (fun k => (.strip, k)) ++ slab.map (fun k => (.slab, k))

/-- Make every new object of a message, or say what is missing: nothing is kept then. -/
def createAll (s : State) (x : Session) (p : Params) (q : AtnQkv) : Except (Option Nat) State :=
  (newObjs s x p q).foldl (fun r k => r.bind fun s => createObj s x p k.1 q.layer k.2) (.ok s)

/-- Take a step's hold on objects for an entry (R143). -/
def pinObjs (s : State) (ref i cls : Nat) (ids : List Nat) : State :=
  match (partOf s ref).bind fun p => p.entries[i]? with
  | none => s
  | some e =>
    let new := ids.filter fun o => !e.pins.contains o
    let s := new.foldl (fun s o => addHold s (qDemand cls) o) s
    modEntry s ref i fun e => { e with pins := e.pins ++ new }

/-- Set the pending counts of a layer from what every head has appended (R176). -/
def setPending (s : State) (x : Session) (p : Params) (ref layer : Nat) : State :=
  let n := match minBy id ((List.range p.kvHeads).map fun h => seenKv s ref x.handle layer h) with | some m => m | none => 0
  let top := x.length + n
  (layerCrates s (hKey x.handle) layer).foldl (fun s c =>
    match objOf s c.2 with
    | some o =>
      let v := Nat.min 64 (top - 64 * c.1)
      if o.valid < v && o.pending ≠ v - o.valid then putObj s c.2 { o with pending := v - o.valid } else s
    | none => s) s

/-- The number of a message's head range. -/
def rangeKey (q : AtnQkv) : Nat := q.kvFirst + 256 * ((kvHeadsOf q).length + 256 * (q.gFirst + 256 * (ssmHeadsOf q).length))

/-- Record what an accepted message covers (R166 order 6, R170). -/
def coverMsg (s : State) (h ref : Nat) (q : AtnQkv) : State :=
  let c := coverOf s ref h q.layer
  setCover s { c with kvSeen := addRange c.kvSeen q.kvFirst (kvHeadsOf q).length (msgTokens q),
                      ssmSeen := addRange c.ssmSeen q.gFirst (ssmHeadsOf q).length (msgTokens q),
                      ranges := tmod 0 c.ranges (rangeKey q) (· + msgTokens q) }

/-- Append the keys and values of a message (R176) and record its state-space inputs. -/
def appendMsg (s : State) (x : Session) (p : Params) (ref i : Nat) (q : AtnQkv) : State :=
  let hk := hKey x.handle
  let s := (List.range (msgTokens q)).foldl (fun s t => (List.range (kvHeadsOf q).length).foldl (fun s k =>
    match (mapped s hk .crate q.layer ((q.pos + t) / 64)).bind (objOf s) with
    | some o =>
      let s := writeGroups s o 0 (q.kvFirst + k) ((q.pos + t) % 64) (kGroups p x.bx16 q t k)
      writeGroups s o 1 (q.kvFirst + k) ((q.pos + t) % 64) (vGroups p x.bx16 q t k)
    | none => s) s) s
  let s := setPending s x p ref q.layer
  let base := q.pos - x.length
  let ins := ((List.range (msgTokens q)).map fun t => (List.range (ssmHeadsOf q).length).map fun g =>
    let r := ssmRaw p q t g
    (q.layer, (base + t) * 64 + q.gFirst + g, r.getD 0 [] ++ r.getD 2 [] ++ r.getD 4 [])).flatten
  modEntry s ref i fun e => { e with ssmIn := e.ssmIn ++ ins }

/-! ### Reading crates (R124, R171) -/

/-- The elements of a stored vector. -/
def readVec (s : State) (o : Obj) (kv h t : Nat) : List Elt :=
  ((List.range (o.dim / 16)).map fun j =>
    let g := unpackGroup o.bx16 (readObj s o (groupOffset o.bx16 o.heads o.dim kv h t j) (groupBytes o.bx16))
    (List.range 16).map (groupElt g)).flatten

/-- The first `n` slots of a head. -/
def readSlots (s : State) (o : Obj) (h n : Nat) : List Slot := (List.range n).map fun t => ⟨readVec s o 0 h t, readVec s o 1 h t⟩

/-- Slots of crate `c` that a head of the attempt may read: the committed ones and its own pending ones. -/
def visibleSlots (s : State) (x : Session) (ref layer h c : Nat) : Nat := Nat.min 64 (x.length + seenKv s ref x.handle layer h - 64 * c)

/-- The views of a head's visited crates. -/
def viewsOf (s : State) (x : Session) (ref layer h : Nat) (cs : List Nat) : List View :=
  cs.filterMap fun c => ((mapped s (hKey x.handle) .crate layer c).bind (objOf s)).map fun o =>
    ⟨c, o.nbu, readSlots s o h (visibleSlots s x ref layer h c)⟩

/-! ### Selection (R180 to R182) -/

/-- Crates a message always keeps. -/
def alwaysKept (p : Params) (q : AtnQkv) : List Nat :=
  let t := (q.pos + msgTokens q - 1) / 64
  (List.range (t + 1)).filter fun c => c = 0 || decide (t < c + windowOf p) || decide (q.pos / 64 ≤ c)

/-- The centroid of a crate and head as the strip page holds it. -/
def stripCentroid (s : State) (x : Session) (layer c h : Nat) : List Elt :=
  match (mapped s (hKey x.handle) .strip layer (c / 64)).bind (objOf s) with
  | none => []
  | some o =>
    let off := (c % 64 * o.heads + h) * o.dim
    ((List.range (o.dim / 16)).map fun j =>
      let g := unpackGroup false (readObj s o (off + 16 * j) 16)
      (List.range 16).map (groupElt g)).flatten

/-- The crates selected for a KV head of a message. -/
def selectHead (s : State) (x : Session) (p : Params) (q : AtnQkv) (k : Nat) : List Nat :=
  let kept := alwaysKept p q
  let cand := (layerCrates s (hKey x.handle) q.layer).filter fun c =>
    !kept.contains c.1 && (match objOf s c.2 with | some o => decide (0 < o.valid) | none => false)
  let qs := ((List.range (msgTokens q)).map fun t => (List.range p.group).map fun g => qPrime p q t (k * p.group + g)).flatten
  let scored := cand.map fun c => (c.1, scoreOf qs (stripCentroid s x q.layer c.1 (q.kvFirst + k)))
  if cand.length ≤ kSelOf p then cand.map (·.1) else selectBest (kSelOf p) scored

/-- Record the selection of a message's heads for the step in flight. -/
def recordSelection (s : State) (x : Session) (p : Params) (q : AtnQkv) : State :=
  let key := selKey (hKey x.handle) q.layer
  let old := tget (List.replicate p.kvHeads []) s.atn.newSel key
  let new := (List.range (kvHeadsOf q).length).foldl (fun l k => modAt (fun _ => selectHead s x p q k) (q.kvFirst + k) l) old
  { s with atn := { s.atn with newSel := tset s.atn.newSel key new } }

/-- Crates visited for a KV head of a message, ascending (R172, R182). -/
def visitedCrates (s : State) (x : Session) (p : Params) (q : AtnQkv) (h : Nat) : List Nat :=
  let tail := (q.pos + msgTokens q - 1) / 64
  if isSelective s x (layerEntry p q.layer) then
    let sel := (tget [] s.atn.newSel (selKey (hKey x.handle) q.layer)).getD h []
    (List.range (tail + 1)).filter fun c => (alwaysKept p q).contains c || sel.contains c
  else List.range (tail + 1)

/-- Objects of a message's first stage: what it appends to, strip pages or every crate, and the slab. -/
def stageOne (s : State) (x : Session) (p : Params) (q : AtnQkv) : List Nat :=
  let hk := hKey x.handle
  let tail := (q.pos + msgTokens q - 1) / 64
  let sel := isSelective s x (layerEntry p q.layer)
  let crates := if !q.attn then [] else
    (List.range (tail + 1)).filterMap fun c => if sel && decide (c < q.pos / 64) then none else mapped s hk .crate q.layer c
  let strips := if q.attn && sel then (List.range (tail / 64 + 1)).filterMap fun k => mapped s hk .strip q.layer k else []
  let slab := if q.ssm then (mapped s hk .slab q.layer 0).toList else []
  crates ++ strips ++ slab

/-- Objects of the second stage: the crates that some head visits. -/
def stageTwo (s : State) (x : Session) (p : Params) (q : AtnQkv) : List Nat :=
  let cs := ((kvHeadsOf q).map fun h => visitedCrates s x p q h).flatten
  (cs.foldl (fun acc c => if acc.contains c then acc else acc ++ [c]) ([] : List Nat)).filterMap fun c => mapped s (hKey x.handle) .crate q.layer c

/-- Objects of a list that are not RESIDENT. -/
def notResident (s : State) (ids : List Nat) : List Nat :=
  ids.filter fun i => match objOf s i with | some o => o.state ≠ .resident | none => false

/-! ### Jobs of a message (R184, R215, R239, R240) -/

/-- A message runs on the tiles: BLOCK with tiles here (R192). -/
def onTiles (s : State) (q : AtnQkv) : Bool := q.block && hasCap s 0

/-- The NBU of a mapped object. -/
def nbuOf (s : State) (hk : Nat) (k : ObjKind) (layer i : Nat) : Nat := ((mapped s hk k layer i).bind (objOf s)).elim 0 (·.nbu)

/-- The NBU jobs of a message, as (NBU, entry, bytes). -/
def nbuJobs (s : State) (x : Session) (p : Params) (q : AtnQkv) : List (Nat × Nat × Nat) :=
  let hk := hKey x.handle
  let d := p.headDim
  let slot := 2 * (d / 16) * groupBytes x.bx16
  let app := if onTiles s q then [] else
    ((List.range (msgTokens q)).map fun t => (kvHeadsOf q).map fun _ => (nbuOf s hk .crate q.layer ((q.pos + t) / 64), 1, slot)).flatten
  let tail := (q.pos + msgTokens q - 1) / 64
  let score := if onTiles s q || !q.attn || !isSelective s x (layerEntry p q.layer) then [] else
    ((List.range (tail / 64 + 1)).map fun k => (kvHeadsOf q).map fun _ => (nbuOf s hk .strip q.layer k, 2, 64 * d)).flatten
  let part := if q.block then [] else
    ((kvHeadsOf q).map fun h => ((visitedCrates s x p q h).map fun c =>
      List.replicate (ceilDiv p.group 4) (nbuOf s hk .crate q.layer c, 0, 2 * sectionBytes x.bx16 d)).flatten).flatten
  let slab := match (mapped s hk .slab q.layer 0).bind (objOf s) with
    | some o => if q.ssm then (List.range o.span).map fun i => (o.nbu + i, 3, msgTokens q * o.size / o.span) else []
    | none => []
  app ++ score ++ part ++ slab

/-- Sub-blocks of a block message: (first token, tokens). -/
def subBlocks (q : AtnQkv) : List (Nat × Nat) := (List.range (ceilDiv (msgTokens q) 64)).map fun i => (64 * i, Nat.min 64 (msgTokens q - 64 * i))

/-- Head sets of a KV head: (first query head of the group, heads). -/
def setsOf (p : Params) : List (Nat × Nat) :=
  let q := headSetSize p
  (List.range (ceilDiv p.group q)).map fun i => (q * i, Nat.min q (p.group - q * i))

/-- The visited list of a sub-block and KV head (R240). -/
def subVisited (s : State) (x : Session) (p : Params) (q : AtnQkv) (h : Nat) (sb : Nat × Nat) : List Nat :=
  (visitedCrates s x p q h).filter fun c => decide (64 * c ≤ q.pos + sb.1 + sb.2 - 1)

/-- The tile commands of a phase of a block message (R239, R240), by the bytes that each moves to and from the attic:
phase 0 QUANT_APPEND, phase 1 ROWMAX, phase 2 ATTN_BLOCK. -/
def tilePhase (s : State) (x : Session) (p : Params) (q : AtnQkv) (phase : Nat) : List Nat :=
  let d := p.headDim
  let sel := isSelective s x (layerEntry p q.layer)
  let strips := ((q.pos + msgTokens q - 1) / 64) / 64 + 1
  if !q.attn then []
  else match phase with
    | 0 => ((subBlocks q).map fun sb =>
        let b := sb.2 * q.kvCount * (d / 16) * groupBytes x.bx16
        [0, b, b]).flatten
    | 1 => if !sel then [] else ((kvHeadsOf q).map fun _ => ((List.range (ceilDiv strips 64)).map fun r =>
        (List.replicate (ceilDiv (msgTokens q * p.group) 1024) (Nat.min 64 (strips - 64 * r) * 64 * d))).flatten).flatten
    | _ => ((kvHeadsOf q).map fun h => ((subBlocks q).map fun sb => ((setsOf p).map fun _ =>
        (piecesOf (fld s Reg.DEN_CFG.chunk_crates) (subVisited s x p q h sb)).map fun pc => pc.length * 2 * sectionBytes x.bx16 d).flatten).flatten).flatten

/-! ### Results (R184, R189, R193, R232, R239) -/

/-- λ of a block. -/
def lambdaOf (p : Params) : Dyadic := val32 p.lambda

/-- The outcome of one KV head: outputs by token and query head, inexact, a visited group poisoned, a query poisoned,
a reference out of range. -/
structure HeadOut where
  rows : List (List Nat)
  inexact : Bool
  groupBad : Bool
  queryBad : Bool
  fault : Bool
  deriving DecidableEq, Repr

/-- Decode of one KV head. -/
def decodeOne (s : State) (x : Session) (p : Params) (ref : Nat) (q : AtnQkv) (k : Nat) : HeadOut :=
  let h := q.kvFirst + k
  let views := viewsOf s x ref q.layer h (visitedCrates s x p q h)
  let qs := (List.range p.group).map fun g => qPrime p q 0 (k * p.group + g)
  let r := decodeHead p.headDim (lambdaOf p) qs views
  let bad := views.any fun v => v.slots.any fun t => (t.k ++ t.v).any (·.poison)
  { rows := (r.1.zip qs).map fun z => divideOut p.outBf16 { z.1 with poison := bad || z.2.any (·.poison) }
    inexact := r.1.any (·.ix), groupBad := bad, queryBad := qs.any fun v => v.any (·.poison), fault := r.2 }

/-- The rows of a sub-block and head set: partials merged over the pieces (R239, R240), position-major, and whether a
piece read a poisoned group. -/
def blockRows (s : State) (x : Session) (p : Params) (ref : Nat) (q : AtnQkv) (k : Nat) (sb st : Nat × Nat) : List Partial × Bool :=
  let h := q.kvFirst + k
  let d := p.headDim
  let rows := ((List.range sb.2).map fun t => (List.range st.2).map fun g =>
    ({ pos := q.pos + sb.1 + t, q := qPrime p q (sb.1 + t) (k * p.group + st.1 + g) } : QRow)).flatten
  let last := q.pos + sb.1 + sb.2 - 1
  let pieces := piecesOf (fld s Reg.DEN_CFG.chunk_crates) (subVisited s x p q h sb)
  let outs := pieces.map fun pc =>
    let crates := (viewsOf s x ref q.layer h pc).map fun v => (⟨v.index, v.slots⟩ : TileCrate)
    let bad := crates.any fun c => (c.slots.take (seen c last)).any fun t => (t.k ++ t.v).any (·.poison)
    ((attnBlock d (lambdaOf p) rows crates).map fun r => { rowPartial d r with poison := r.poison || bad }, bad)
  let zero : Partial := ⟨refNone, dZero, List.replicate d dZero, false, false⟩
  ((List.range rows.length).map fun i => mergeAll zero (outs.map fun o => o.1.getD i zero), outs.any (·.2))

/-- A block of one KV head, on this controller's tiles: outputs token by token, head by head. -/
def blockOne (s : State) (x : Session) (p : Params) (ref : Nat) (q : AtnQkv) (k : Nat) : HeadOut :=
  let cells := (subBlocks q).map fun sb => (setsOf p).map fun st => (sb, st, blockRows s x p ref q k sb st)
  let row (t g : Nat) : List Nat :=
    match ((cells.getD (t / 64) []).find? fun c => decide (c.2.1.1 ≤ g) && decide (g < c.2.1.1 + c.2.1.2)) with
    | some c => divideOut p.outBf16 (c.2.2.1.getD ((t - c.1.1) * c.2.1.2 + (g - c.2.1.1)) ⟨refNone, dZero, [], false, true⟩)
    | none => []
  let all := cells.flatten
  { rows := ((List.range (msgTokens q)).map fun t => (List.range p.group).map fun g => row t g).flatten
    inexact := all.any fun c => c.2.2.1.any (·.ix), groupBad := all.any fun c => c.2.2.2
    queryBad := (List.range (msgTokens q)).any fun t => (List.range p.group).any fun g => (qPrime p q t (k * p.group + g)).any (·.poison)
    fault := false }

/-- Index of a layer among the state-space layers. -/
def ssmIndex (p : Params) (layer : Nat) : Nat := ((List.range layer).filter fun l => (layerEntry p l).ssm).length

/-- Read `n` binary32 patterns of a slab. -/
def readWords (s : State) (o : Obj) (b n : Nat) : List Nat :=
  let bytes := readObj s o b (4 * n)
  (List.range n).map fun i => leAt bytes (4 * i) 4

/-- The tokens of one state-space head in order: final state, outputs by token, poison. -/
def ssmRun (p : Params) (q : AtnQkv) (g : Nat) (st : List Nat) : List Nat × List (List Nat) × Bool :=
  let r := p.ssm.getD (ssmIndex p q.layer) ⟨[], [], []⟩
  let gg := q.gFirst + g
  let dec (l : List Nat) : List Elem := l.map (decode16 p.inFp16)
  (List.range (msgTokens q)).foldl (fun acc i =>
    let w := ssmRaw p q i g
    let inp : SsmIn := { x := dec (w.getD 0 []), z := dec (w.getD 1 []), b := dec (w.getD 2 []), c := dec (w.getD 3 []),
                         delta := (dec (w.getD 4 [])).getD 0 .nan }
    let t := ssmToken p.ssmP p.ssmN (val32 p.ssmEps) p.gateAfter p.noNorm (r.a.getD gg 0) (slice r.d (gg * p.ssmP) p.ssmP)
      (slice r.gamma (gg * p.ssmP) p.ssmP) inp acc.1
    (t.1, acc.2.1 ++ [t.2.1.map (outFmt p.outBf16)], acc.2.2 || t.2.2)) (st, [], false)

/-- The state-space branch of a message (R186): the new states in the spare buffer, outputs by token, the poison mask. -/
def ssmMessage (s : State) (x : Session) (p : Params) (ref : Nat) (q : AtnQkv) : State × List (List Nat) × Nat :=
  if !q.ssm then (s, [], 0)
  else match (mapped s (hKey x.handle) .slab q.layer 0).bind (objOf s) with
    | none => (s, [], 0)
    | some o =>
      let half := o.size / 2
      let n := p.ssmP * p.ssmN
      let done := (coverOf s ref x.handle q.layer).ssmDone
      let heads := (List.range q.gCount).map fun g =>
        let buf := if tget 0 done (q.gFirst + g) = 0 then o.active else 1 - o.active
        (g, ssmRun p q g (readWords s o (buf * half + (q.gFirst + g) * n * 4) n))
      let s := heads.foldl (fun s r => writeObj s o ((1 - o.active) * half + (q.gFirst + r.1) * n * 4) ((r.2.1.map (leBytes 4)).flatten)) s
      let mask := maskOf ((heads.filter fun r => r.2.2.2).map fun r => q.gFirst + r.1)
      let key := selKey (hKey x.handle) q.layer
      let s := if mask = 0 then s else { s with atn := { s.atn with slabPoison := tmod 0 s.atn.slabPoison key (Nat.lor mask) } }
      (s, (List.range (msgTokens q)).map fun i => (heads.map fun r => r.2.2.1.getD i []).flatten, mask)

/-- The rows a delegate returned for a sub-block and head set of a KV head (R245, R248): outputs, flags by row. -/
def dlgRows (p : Params) (w : AtnWork) (h sb st n : Nat) : List (List Nat) × List Nat × Bool :=
  let d := p.headDim
  let parts := sortBy (fun a b => decide (a.2.2.2.1 < b.2.2.2.1)) (w.rows.filter fun r => r.1 = h && r.2.1 = sb && r.2.2.1 = st)
  match parts with
  | [one] =>
    let sz := if p.outBf16 then 2 else 4
    if one.2.2.2.2.length < n * recordBytes d then
      ((List.range n).map fun i => (List.range d).map fun e => leAt one.2.2.2.2 ((i * d + e) * sz) sz,
       (List.range n).map fun i => one.2.2.2.2.getD (n * d * sz + i) 0, false)
    else ([], [], true)
  | _ => ([], [], true)

/-- Merge the partial records of a group of answers (R248). -/
def dlgMerge (p : Params) (w : AtnWork) (h sb st n : Nat) : List Partial :=
  let d := p.headDim
  let parts := sortBy (fun a b => decide (a.2.2.2.1 < b.2.2.2.1)) (w.rows.filter fun r => r.1 = h && r.2.1 = sb && r.2.2.1 = st)
  let recs := (parts.map fun r =>
    let k := r.2.2.2.2.length / (n * recordBytes d)
    (List.range k).map fun j => (List.range n).map fun i => recordPartial d (slice r.2.2.2.2 ((j * n + i) * recordBytes d) (recordBytes d))).flatten
  let zero : Partial := ⟨refNone, dZero, List.replicate d dZero, false, false⟩
  (List.range n).map fun i => mergeAll zero (recs.map fun l => l.getD i zero)

/-- A block of one KV head from a delegate's answers. -/
def delegatedOne (p : Params) (q : AtnQkv) (w : AtnWork) (k : Nat) : HeadOut :=
  let h := q.kvFirst + k
  let cell (sb : Nat × Nat) (st : Nat × Nat) : List (List Nat) × List Nat :=
    let r := dlgRows p w h (sb.1 / 64) st.1 (sb.2 * st.2)
    if r.2.2 then
      let ps := dlgMerge p w h (sb.1 / 64) st.1 (sb.2 * st.2)
      (ps.map (divideOut p.outBf16), ps.map fun z => b2n z.ix + 2 * b2n z.poison)
    else (r.1, r.2.1)
  let cells := (subBlocks q).map fun sb => (setsOf p).map fun st => (sb, st, cell sb st)
  let pick (t g : Nat) : List Nat × Nat :=
    match ((cells.getD (t / 64) []).find? fun c => decide (c.2.1.1 ≤ g) && decide (g < c.2.1.1 + c.2.1.2)) with
    | some c => let i := (t - c.1.1) * c.2.1.2 + (g - c.2.1.1); (c.2.2.1.getD i [], c.2.2.2.getD i 0)
    | none => ([], 0)
  let all := ((List.range (msgTokens q)).map fun t => (List.range p.group).map fun g => (qPrime p q t (k * p.group + g), pick t g)).flatten
  { rows := all.map fun a => a.2.1, inexact := all.any fun a => bitOf a.2.2 0
    groupBad := all.any fun a => bitOf a.2.2 1 && !(a.1.any (·.poison)), queryBad := all.any fun a => a.1.any (·.poison), fault := false }

/-- The payload of a message's answer and its flags: elements of O token by token, head by head, then the state-space
outputs (R165). -/
structure AtnResult where
  payload : List Nat
  inexact : Nat
  poison : Nat
  anyPoison : Bool
  ssmPoison : Nat
  fault : Bool
  deriving DecidableEq, Repr

/-- The results of a message whose work is done. -/
def resultOf (s : State) (x : Session) (p : Params) (w : AtnWork) : State × AtnResult :=
  let q := w.msg
  let one (k : Nat) : HeadOut :=
    if !q.block then decodeOne s x p q.stepRef q k
    else if hasCap s 0 then blockOne s x p q.stepRef q k else delegatedOne p q w k
  let hs := (List.range (kvHeadsOf q).length).map one
  let o := ((List.range (msgTokens q)).map fun t => (hs.map fun h => ((h.rows.drop (t * p.group)).take p.group).flatten).flatten).flatten
  let (s, y, mask) := ssmMessage s x p q.stepRef q
  let pick (f : HeadOut → Bool) : Nat := maskOf ((hs.zipIdx.filter fun z => f z.1).map fun z => q.kvFirst + z.2)
  (s, { payload := o ++ y.flatten, inexact := pick (·.inexact), poison := pick (·.groupBad),
        anyPoison := mask ≠ 0 || hs.any fun h => h.groupBad || h.queryBad, ssmPoison := mask, fault := hs.any (·.fault) })

/-- Crate-heads a message visits and skips (ATN_VISIT). -/
def visitCounts (s : State) (x : Session) (p : Params) (q : AtnQkv) : Nat × Nat :=
  let tail := (q.pos + msgTokens q - 1) / 64
  let one (h : Nat) : Nat × Nat :=
    if q.block then
      let v := sumOf ((subBlocks q).map fun sb => (subVisited s x p q h sb).length)
      (v, (subBlocks q).length * (tail + 1) - v)
    else
      let v := (visitedCrates s x p q h).length
      (v, tail + 1 - v)
  ((kvHeadsOf q).map one).foldl (fun a b => (a.1 + b.1, a.2 + b.2)) (0, 0)

/-! ### Kill (R125, R131, R167, R242) -/

/-- Forget every piece of attention work of a session's part: its queued jobs and commands go, running ones end
unheard. -/
def dropWork (s : State) (ref h : Nat) : State :=
  let ws := (s.atn.work.filter fun w => w.msg.stepRef = ref && w.msg.handle = h && w.hold = .no).map (·.id)
  let s := ws.foldl dropTiles s
  let s := { s with nbu := { s.nbu with queued := s.nbu.queued.filter fun q => match q.issuer with | .frontEnd w => !ws.contains w | _ => true } }
  { s with atn := { s.atn with work := s.atn.work.filter (fun w => !ws.contains w.id),
                               cover := s.atn.cover.filter fun c => !(c.stepRef = ref && c.handle = h) } }

/-- Free an object of a session's map. -/
def unmapObj (s : State) (key id : Nat) : State := dropRef { s with tier := { s.tier with map := tdel s.tier.map key } } id

/-- Discard what an attempt wrote for a session in a layer: pending slots, new crates, strip pages, a new slab, the
selection. -/
def discardLayer (s : State) (x : Session) (layer : Nat) : State :=
  let hk := hKey x.handle
  let drop (s : State) (k : ObjKind) (i id : Nat) : State :=
    match objOf s id with
    | some o => if o.valid = 0 then unmapObj s (mapKey hk k.num layer i) id else if o.pending = 0 then s else putObj s id { o with pending := 0 }
    | none => s
  let s := (layerCrates s hk layer).foldl (fun s c => drop s .crate c.1 c.2) s
  let s := ((mappedAll s hk .strip).filter (·.1 = layer)).foldl (fun s c => drop s .strip c.2.1 c.2.2) s
  let s := match mapped s hk .slab layer 0 with | some id => drop s .slab 0 id | none => s
  { s with atn := { s.atn with newSel := tdel s.atn.newSel (selKey hk layer), slabPoison := tdel s.atn.slabPoison (selKey hk layer) } }

/-- Release the pins of an entry. -/
def unpin (s : State) (ref i : Nat) : State :=
  match (partOf s ref).bind fun p => p.entries[i]? with
  | none => s
  | some e => modEntry (e.pins.foldl dropHold s) ref i fun e => { e with pins := [] }

/-- Discard an attempt of entry `i` of a part on this controller: work, pins, pending data. -/
def discardEntry (s : State) (ref i : Nat) : State :=
  match partOf s ref with
  | none => s
  | some p =>
    match p.entries[i]? with
    | none => s
    | some e =>
      let s := unpin (dropUnsent (dropWork s ref e.handle) ref e.handle) ref i
      let s := match sessOf s e.handle, paramsOf s (hCtx e.handle) with
        | some x, some q => ((hostedLayers s (hSerial e.handle) q).filter fun l => decide (p.first ≤ l) && decide (l ≤ p.last)).foldl (fun s l => discardLayer s x l) s
        | _, _ => s
      modEntry s ref i fun e => { e with ssmIn := [], ownKib := 0, sharedKib := 0 }

/-! ### Commit (R125, R130, R131, R177, R330) -/

/-- The body bytes of a crate in the attic. -/
def bodyBytes (s : State) (o : Obj) : List Nat := readObj s o 4096 (bodyLen o.bx16 o.heads o.dim)

/-- Centroid groups of a head of a crate over its committed slots. -/
def crateCentroid (s : State) (o : Obj) (h : Nat) : List Group := centroidOf o.dim ((List.range o.valid).map fun t => readVec s o 0 h t)

/-- Write centroid bytes of a crate into the strip page that covers it, and its count (R178). -/
def writeStrip (s : State) (hk : Nat) (o : Obj) (h : Nat) (bytes : List Nat) : State :=
  match mapped s hk .strip o.layer (o.index / 64) with
  | some id => (match objOf s id with | some so => writeObj s so ((o.index % 64 * o.heads + h) * o.dim) bytes | none => s)
  | none => s

/-- The number of centroids a strip page holds. -/
def stripCount (s : State) (hk layer k : Nat) : Nat :=
  ((layerCrates s hk layer).filter fun c => c.1 / 64 = k && (match objOf s c.2 with | some o => decide (0 < o.valid) | none => false)).length

/-- A slot of a crate holds a poisoned group. -/
def slotPoison (s : State) (o : Obj) (t : Nat) : Bool :=
  (List.range 2).any fun kv => (List.range o.heads).any fun h => (readVec s o kv h t).any (·.poison)

/-- Commit one crate: valid advances, header, centroids, poison (R125, R130, R177). -/
def commitCrate (s : State) (hk : Nat) (sel : Bool) (step id : Nat) : State :=
  match objOf s id with
  | none => s
  | some o =>
    if o.pending = 0 then s
    else
      let bad := ((List.range o.pending).map (o.valid + ·)).any (slotPoison s o)
      let o1 := { o with valid := o.valid + o.pending, pending := 0, step := step, tCommit := s.timebase, dirty := true, age := s.timebase }
      let s := (List.range o.heads).foldl (fun s h =>
        let b := ((crateCentroid s o1 h).map (packGroup false)).flatten
        let s := writeObj s o1 (centroidOffset o1.bx16 o1.heads o1.dim h 0) b
        if sel then writeStrip s hk o1 h b else s) s
      let o2 := { o1 with crc := crc32c (bodyBytes s o1), poison := o1.poison || bad }
      let s := putObj s id o2
      let s := if bad && !o.poison then report s 0x0405 (o.creator % 2 ^ 24) 0 [crateId o2] else s
      if o2.valid = 64 && flag s Reg.LAD_CFG.wb_full && !hasMove s id then pushMove s id o2 .writeback qWriteback else s

/-- Copy the header centroids of linked crates into the strip pages (R330). -/
def linkStrips (s : State) (hk layer : Nat) : State :=
  (layerCrates s hk layer).foldl (fun s c =>
    match objOf s c.2 with
    | some o =>
      if !o.shared || o.valid = 0 || !o.attic then s
      else (List.range o.heads).foldl (fun s h => writeStrip s hk o h (readObj s o (centroidOffset o.bx16 o.heads o.dim h 0) o.dim)) s
    | none => s) s

/-- Commit one layer of a session. -/
def commitLayer (s : State) (x : Session) (p : Params) (step layer : Nat) : State :=
  let hk := hKey x.handle
  let key := selKey hk layer
  let sel := isSelective s x (layerEntry p layer)
  let s := (layerCrates s hk layer).foldl (fun s c => commitCrate s hk sel step c.2) s
  let s := if sel && step = 0 then linkStrips s hk layer else s
  let s := if sel then ((mappedAll s hk .strip).filter (·.1 = layer)).foldl (fun s c =>
      modObj s c.2.2 fun o => { o with valid := stripCount s hk layer c.2.1, step := step, tCommit := s.timebase, dirty := true }) s
    else s
  let s := match mapped s hk .slab layer 0 with
    | some id =>
      let mask := tget 0 s.atn.slabPoison key
      let s := modObj s id fun o => { o with active := 1 - o.active, valid := 1, step := step, tCommit := s.timebase, dirty := true, age := s.timebase,
                                             poison := o.poison || decide (mask ≠ 0) }
      if mask = 0 then s else report s 0x0504 (hSerial x.handle % 2 ^ 24) 0 [x.handle, layer, mask]
    | none => s
  let s := match tget? s.atn.newSel key with
    | some n =>
      let s := { s with atn := { s.atn with selected := tset s.atn.selected key n } }
      (n.flatten).foldl (fun s c => match mapped s hk .crate layer c with
        | some id => (match objOf s id with | some o => (if o.state = CrateState.resident || hasMove s id then s else requestRaise s id qPrefetch) | none => s)
        | none => s) s
    | none => s
  { s with atn := { s.atn with newSel := tdel s.atn.newSel key, slabPoison := tdel s.atn.slabPoison key } }

/-- Commit the part of entry `i` on this controller: every hosted layer of the range (R177); the entry's pins and the
attempt's records go. -/
def commitEntry (s : State) (ref i : Nat) : State :=
  match partOf s ref with
  | none => s
  | some p =>
    match p.entries[i]? with
    | none => s
    | some e =>
      let s := match sessOf s e.handle, paramsOf s (hCtx e.handle) with
        | some x, some q => ((hostedLayers s (hSerial e.handle) q).filter fun l => decide (p.first ≤ l) && decide (l ≤ p.last)).foldl (fun s l => commitLayer s x q e.step l) s
        | _, _ => s
      let s := unpin (dropWork s ref e.handle) ref i
      let s := bump s Reg.STP_COUNT.sealed
      modEntry s ref i fun e => { e with committed := true, ssmIn := [] }

end Sys2Proof.Machine
end

