-- ==== Sys2Proof/Machine/RmaBase.lean ====
section
/-! DEFINITION. Connections and protection domains: entry to ERROR (R457), generations (R466), fences, what a context's
teardown ends (R470). -/
namespace Sys2Proof.Machine

/-- A connection. -/
def connOf (s : State) (n : Nat) : Option Conn := tget? s.rma.conns n

/-- Replace a connection. -/
def setConn (s : State) (c : Conn) : State := { s with rma := { s.rma with conns := tset s.rma.conns c.num c } }

/-- Generation of a protection domain. -/
def pdGen (s : State) (pd : Nat) : Nat := tget 0 s.rma.gens pd

/-- Raise a protection domain's generation (R466). -/
def raiseGen (s : State) (pd : Nat) : State :=
  { s with rma := { s.rma with gens := tset s.rma.gens pd (wrapAdd 32 (pdGen s pd) 1) } }

/-- Whether a protection domain is valid. PD 0 is valid from reset: the register file keeps its bit inverted. -/
def pdValid (s : State) (pd : Nat) : Bool := fldAt s Reg.RMA_PD.valid [pd] = if pd = 0 then 0 else 1

/-- The access of a connection ends: the CAM item its request held is retired. -/
def endAccess (s : State) (c : Conn) : State :=
  match c.write with
  | some w => setConn { s with cam := { s.cam with held := s.cam.held.filter (·.1 ≠ w.item) } } { c with write := none }
  | none => s

/-- A connection enters ERROR (R457): its requests end, RMA_CONN_ERROR is posted. -/
def errConn (s : State) (n : Nat) (st : Status) (id detail : Nat) : State :=
  match connOf s n with
  | none => s
  | some c =>
    if c.state = .error then s
    else
      let s := endAccess s c
      let moves := ((c.reqs ++ c.waiting).map (·.move)).eraseDups
      let s := setConn s { c with state := .error, errStatus := st.code, errId := id, reqs := [], waiting := [], write := none, rnrWait := false, held := [] }
      let s := { s with rma := { s.rma with ended := s.rma.ended ++ moves.map fun m => (m, false) } }
      report s 0x1501 n 0 [n, c.pd, st.code, id, detail]

/-- Accesses of a protection domain stamped below a generation, by connection (R468). -/
def olderAccesses (s : State) (pd g : Nat) : List Nat :=
  (s.rma.conns.filter fun x => match x.2.write with | some w => w.pd = pd && serialLt 32 w.gen g | none => false).map (·.1)

/-- The protection domains that a context owns. -/
def pdsOf (s : State) (ctx : Nat) : List Nat :=
  (List.range 256).filter fun pd => pd ≠ 0 && pdValid s pd && fldAt s Reg.RMA_PD.owner [pd] = ctx

/-- The protection domains of a context being torn down (R470). Its accesses end with their connections. -/
def tornPds (s : State) (ctx : Nat) : State :=
  let mine := s.rma.fences.filter fun f => f.sub.elim false (·.context = ctx)
  let s := { s with rma := { s.rma with fences := s.rma.fences.filter fun f => !f.sub.elim false (·.context = ctx) } }
  let s := mine.foldl (fun s f => match f.sub with | some x => refuse s x .contextTorn 0 | none => s) s
  (pdsOf s ctx).foldl (fun s pd =>
    let s := { s with rma := { s.rma with regions := tfilter (fun _ r => r.pd ≠ pd) s.rma.regions } }
    let s := ((s.rma.conns.filter fun x => x.2.pd = pd).map (·.1)).foldl (fun s n => errConn s n .contextTorn 0 0) s
    setFldAt (raiseGen s pd) Reg.RMA_PD.valid [pd] 0) s

end Sys2Proof.Machine
end

