-- ==== Sys2Proof/Machine/SearchBase.lean ====
section
/-! DEFINITION. Index slots given up, and what a context's teardown ends in the search units (R287, R393). -/
namespace Sys2Proof.Machine

/-- The image that a slot held goes on serving the walks that started on it (R393). -/
def vsrRetireSlot (s : State) (slot : Nat) : State :=
  match tget? s.vsr.slots slot with
  | none => s
  | some v =>
    let used := s.vsr.walks.any fun w => w.slot = slot && w.index = v.index
    { s with vsr := { s.vsr with slots := tdel s.vsr.slots slot, old := if used then s.vsr.old ++ [(slot, v.index)] else s.vsr.old } }

/-- Old images that no walk reads any longer are freed. -/
def vsrSweep (s : State) : State :=
  { s with vsr := { s.vsr with old := s.vsr.old.filter fun o => s.vsr.walks.any fun w => w.slot = o.1 && w.index = o.2 } }

/-- The search units of a context being torn down: its commands complete, its walks end, its slots are freed. -/
def tornSearch (s : State) (ctx : Nat) : State :=
  let qs := s.vsr.queries.filter (·.sub.context = ctx)
  let ds := s.cam.drains.filter (·.1.context = ctx)
  let s := { s with vsr := { s.vsr with queries := s.vsr.queries.filter (·.sub.context ≠ ctx), walks := s.vsr.walks.filter (·.ctx ≠ ctx) },
                    cam := { s.cam with drains := s.cam.drains.filter (·.1.context ≠ ctx) } }
  let s := qs.foldl (fun s q => refuse s q.sub .contextTorn 0) s
  let s := ds.foldl (fun s d => refuse s d.1 .contextTorn 0) s
  vsrSweep ((s.vsr.slots.filter fun v => v.2.owner = ctx).foldl (fun s v => vsrRetireSlot s v.1) s)

end Sys2Proof.Machine
end

