-- ==== Sys2Proof/Machine/StepOps.lean ====
section
/-! DEFINITION. Steps (chapter "Steps, commit and pre-emption"): descriptor checks, prepare, seal and commit, endings and
re-runs, pre-emption, semaphores, context teardown. -/
namespace Sys2Proof.Machine

/-! ### Messages (R270) -/

/-- The layer-group epoch under which a device is addressed for a session, 0 where it hosts no layer of the range. -/
def partEpoch (s : State) (p : StepPart) (h dest : Nat) : Nat :=
  match (rangeHosts s (hSerial h) p.first p.last).find? (·.1 = dest) with | some d => d.2 | none => 0

/-- A step message of this controller about one session of a part. -/
def stepMsg (s : State) (p : StepPart) (dest attempt : Nat) (l : List StepEntry) (h : Nat) : StepMsg :=
  { mirror := false, resubmit := false, hasNext := false, epoch := partEpoch s p h dest, src := s.device, stepRef := p.stepRef,
    attempt := attempt, next := 0, entries := l }

/-- The home_epoch of a session as this controller knows it: of its record, else as a descriptor named it. -/
def knownEpoch (s : State) (h : Nat) : Nat :=
  match sessOf s h with
  | some x => x.homeEpoch
  | none => (s.steps.parts.findSome? fun p => (p.entries.find? fun e => e.handle = h).map (·.homeEpoch)).getD 0

/-- An entry of a step message. -/
def stepEntry (s : State) (i h : Nat) (st : Status) (detail : Nat) : StepEntry :=
  { index := i, status := st, detail := detail % 256, homeEpoch := knownEpoch s h, step := 0, token := 0 }

/-- An entry of a seal record (R264). -/
def sealEntry (s : State) (i : Nat) (e : PartEntry) : StepEntry :=
  { stepEntry s i e.handle .ok 0 with step := e.step, token := (sessOf s e.handle).elim 0 (·.pendingToken) }

/-! ### The submitter (R274, R275) -/

/-- The lowest original index that was not sealed. -/
def firstFail (l : List (Nat × Status × Nat)) : Option (Nat × Status × Nat) := minBy (·.1) (l.filter fun r => r.2.1 ≠ .ok)

/-- Status bytes by original index. -/
def statusBytes (n : Nat) (l : List (Nat × Status × Nat)) : List Nat :=
  (List.range n).map fun i => match l.find? (·.1 = i) with | some r => r.2.1.code | none => 0

/-- Complete a STEP_SUBMIT whose sessions have all been reported. -/
def finishSubmit (s : State) (t : Submitted) : State :=
  let n := t.desc.entries.length
  if t.results.length < n then { s with steps := { s.steps with submitted := modFirst (fun x => x.sub = t.sub) (fun _ => t) s.steps.submitted } }
  else
    let s := { s with steps := { s.steps with submitted := s.steps.submitted.filter fun x => x.sub ≠ t.sub } }
    let s := emit s (.hostWrite t.resultAddr (statusBytes n t.results))
    let sealed := (t.results.filter fun r => r.2.1 = .ok).length
    match firstFail t.results with
    | none => complete s t.sub .ok 0 [sealed, 0xFFFFFFFF, t.attempts]
    | some f => complete s t.sub f.2.1 f.2.2 [sealed, f.1, t.attempts]

/-- STP_DONE at the submitter: results of the entries named, under a step reference of one of its steps. -/
def submitterDone (s : State) (ref attempt : Nat) (l : List StepEntry) : State :=
  match s.steps.submitted.find? fun t => t.refs.any (·.1 = ref) with
  | none => s
  | some t =>
    let ix := match t.refs.find? (·.1 = ref) with | some r => r.2 | none => []
    let new := l.filterMap fun e => match ix[e.index]? with
      | some i => if t.results.any (·.1 = i) then none else some (i, e.status, e.detail)
      | none => none
    finishSubmit s { t with results := t.results ++ new, attempts := Nat.max t.attempts (attempt + 1) }

/-! ### Ends at the home (R271 to R274) -/

/-- A session of a descriptor needs nothing more from anyone. -/
def homeDone (p : StepPart) (r : HomeEntry) : Bool :=
  r.ended.isSome || r.resubmitted || (r.decided && p.participants.all fun d => r.acked.contains d || r.behind.contains d)

/-- Send STP_DONE once every session has ended or been acknowledged, and forget the part once nobody is behind. -/
def checkDone (s : State) (ref : Nat) : State :=
  match partOf s ref with
  | none => s
  | some p =>
    if !isHome s p || !(p.homeRec.all (homeDone p)) then s
    else
      let l := p.homeRec.zipIdx.filterMap fun r =>
        if r.1.resubmitted then none
        else
          let h := (p.entries[r.2]?).elim 0 (·.handle)
          match r.1.ended with
          | some (st, d) => some (stepEntry s r.2 h st d)
          | none => some (stepEntry s r.2 h .ok 0)
      let s := if p.reported then s
        else
          let s := modPart s ref fun p => { p with reported := true }
          if l.isEmpty then s
          else if p.submitter = s.device then submitterDone s ref p.attempt l
          else sendMsg s p.submitter (.stpDone { stepMsg s p p.submitter p.attempt l 0 with epoch := 0 })
      if p.homeRec.any fun r => !r.behind.isEmpty then s
      else { s with steps := { s.steps with parts := s.steps.parts.filter (·.stepRef ≠ ref) } }

/-- Forget a participant's part once every entry has ended or committed. -/
def dropDone (s : State) (ref : Nat) : State :=
  match partOf s ref with
  | some p => if isHome s p || p.entries.any liveEntry then s
      else { s with steps := { s.steps with parts := s.steps.parts.filter (·.stepRef ≠ ref) } }
  | none => s

/-- End an entry's work on this controller: everything it holds goes back. -/
def endEntry (s : State) (ref i : Nat) (st : Status) (detail : Nat) : State :=
  match (partOf s ref).bind fun p => p.entries[i]? with
  | none => s
  | some e =>
    if !liveEntry e then s
    else
      let s := discardEntry s ref i
      let s := if e.started || e.admitted then ledgerDrop s e.handle else s
      modEntry s ref i fun e => { e with ended := some (st, detail), started := false, headroom := {}, prepWait := false }

/-- Put an entry back into the queue for the next attempt, at its part's arrival order (R272). -/
def requeueEntry (s : State) (ref i next : Nat) : State :=
  match (partOf s ref).bind fun p => p.entries[i]? with
  | none => s
  | some e =>
    if !liveEntry e then s
    else modEntry (discardEntry s ref i) ref i fun e =>
      { e with started := false, prepared := false, prepWait := false, killed := false, queries := 0, attempt := next }

/-- Everybody an STP_ABORT goes to: participants, submitter, senders of ATN_QKV, each once. -/
def abortDests (s : State) (p : StepPart) : List Nat :=
  (p.participants ++ [p.submitter] ++ p.senders).foldl (fun acc d => if d = s.device || acc.contains d then acc else acc ++ [d]) []

/-- Send STP_ABORT for sessions of a part to a list of devices. -/
def sendAbortTo (s : State) (dests : List Nat) (p : StepPart) (ix : List Nat) (attempt : Nat) (next : Option Nat) (resubmit : Bool) : State :=
  let l := ix.map fun i => stepEntry s i ((p.entries[i]?).elim 0 (·.handle)) .ok 0
  let h := (p.entries[ix.headD 0]?).elim 0 (·.handle)
  if l.isEmpty then s
  else dests.foldl (fun s d =>
    sendMsg s d (.stpAbort { stepMsg s p d attempt l h with hasNext := next.isSome, next := next.getD 0, resubmit := resubmit })) s

/-- Send STP_ABORT for sessions of a part. -/
def sendAbort (s : State) (p : StepPart) (ix : List Nat) (attempt : Nat) (next : Option Nat) (resubmit : Bool) : State :=
  sendAbortTo s (abortDests s p) p ix attempt next resubmit

/-- Logits of a killed attempt go (R358). -/
def dropLogits (s : State) (h : Nat) : State := modSess s h fun x => { x with logits := [], coveredAt := none, covered := false }

/-- End one session of a descriptor at its home: a cause of session scope (R271). What the home itself refuses it reports directly
in STP_DONE (R255), so that only the participants hear of it by STP_ABORT; `told` where an STP_ABORT has named it already. -/
def homeEndOne (s : State) (ref i : Nat) (st : Status) (detail : Nat) (told : Bool) : State :=
  match partOf s ref with
  | none => s
  | some p =>
    match p.homeRec[i]?, p.entries[i]? with
    | some r, some e =>
      if r.decided || r.ended.isSome || r.resubmitted then s
      else
        let s := if told then s
          else sendAbortTo s (if e.admitted then abortDests s p else p.participants.filter (· ≠ s.device)) p [i] e.attempt none false
        let s := dropLogits (endEntry s ref i st detail) e.handle
        let s := modHome s ref i fun r => { r with ended := some (st, detail) }
        let s := if e.admitted then sessionStepEnds s e.handle st detail else s
        checkDone s ref
    | _, _ => s

/-- End one session of a descriptor at its home, with its STP_ABORT (R271). -/
def homeEnd (s : State) (ref i : Nat) (st : Status) (detail : Nat) : State := homeEndOne s ref i st detail false

/-- Sessions of a part that an attempt-scope cause names: not ended, not past their decision point. -/
def openEntries (p : StepPart) : List Nat :=
  (p.homeRec.zipIdx.filter fun r => !r.1.decided && r.1.ended.isNone && !r.1.resubmitted).map (·.2)

/-- A cause of attempt scope at the home (R271 to R273): a re-run with NEXT, or the sessions end with the status. -/
def homeAbort (s : State) (ref : Nat) (st : Status) (detail : Nat) (rerun : Bool) : State :=
  match partOf s ref with
  | none => s
  | some p =>
    let ix := openEntries p
    if ix.isEmpty then s
    else
      let s := bump s Reg.STP_COUNT.aborts
      let next := p.attempt + 1
      let limit := decide (fld s Reg.STP_CFG.max_attempts ≤ next)
      if rerun && !p.noMore && !limit then
        let s := sendAbort s p ix p.attempt (some next) false
        let s := modPart s ref fun p => { p with attempt := next, participants := (p.participants ++ stepParticipants s
          (hSerial ((p.entries[ix.headD 0]?).elim 0 (·.handle))) p.first p.last p.home).foldl (fun a d => if a.contains d then a else a ++ [d]) [] }
        ix.foldl (fun s i =>
          let h := (p.entries[i]?).elim 0 (·.handle)
          let s := dropLogits (requeueEntry s ref i next) h
          let s := modHome s ref i fun r => { r with preparedBy := [], mirrorSent := false }
          match sessOf s h with | some x => resendRows s x | none => s) s
      else
        let s := if rerun && limit then report s 0x0802 0 0 [ref] else s
        let s := sendAbort s p ix p.attempt none false
        ix.foldl (fun s i => homeEndOne s ref i st detail true) s

/-- Whether a status reported in STP_KILLED has attempt scope (R271): pre-emption, a lost link, but not the LINK_DOWN with
which a delegated block is answered (R250). -/
def attemptScope (st : Status) (detail : Nat) : Bool := st = .preempted || (st = .linkDown && detail ≠ 3 && detail ≠ 4)

/-- A kill reaches the home, from a participant or from itself. -/
def homeKilled (s : State) (ref i : Nat) (st : Status) (detail : Nat) : State :=
  match partOf s ref with
  | none => s
  | some p =>
    if attemptScope st detail then homeAbort s ref st detail (!(p.noRerun && st = .preempted))
    else homeEnd s ref i st detail

/-- A participant meets a cause of session scope for entry `i`: it ends and the home learns of it (R271). -/
def failEntry (s : State) (ref i : Nat) (st : Status) (detail : Nat) : State :=
  match partOf s ref with
  | none => s
  | some p =>
    match p.entries[i]? with
    | none => s
    | some e =>
      if !liveEntry e then s
      else if isHome s p then homeKilled s ref i st detail
      else
        let s := endEntry s ref i st detail
        dropDone (sendMsg s p.home (.stpKilled { stepMsg s p p.home e.attempt [stepEntry s i e.handle st detail] e.handle with epoch := 0 })) ref

/-- Entries that a kill of the attempt on this controller takes: started, not prepared. -/
def runningEntries (p : StepPart) : List Nat :=
  (p.entries.zipIdx.filter fun e => liveEntry e.1 && e.1.started && !e.1.prepared && !e.1.killed).map (·.2)

/-- Kill the unprepared sessions of a part on this controller and report them (R271, R278). -/
def killPart (s : State) (ref : Nat) (st : Status) (detail : Nat) : State :=
  match partOf s ref with
  | none => s
  | some p =>
    let ix := runningEntries p
    if ix.isEmpty then s
    else if isHome s p then homeAbort s ref st detail (!(p.noRerun && st = .preempted))
    else
      let s := ix.foldl (fun s i => modEntry (discardEntry s ref i) ref i fun e => { e with started := false, killed := true }) s
      let l := ix.map fun i => stepEntry s i ((p.entries[i]?).elim 0 (·.handle)) st detail
      sendMsg s p.home (.stpKilled { stepMsg s p p.home p.attempt l 0 with epoch := 0 })

/-! ### Prepare (R262, R486) -/

/-- The groups of slots `first … first + count − 1` of a crate, K then V, head by head, slot by slot. -/
def slotBytes (s : State) (o : Obj) (first count : Nat) : List Nat :=
  ((List.range 2).map fun kv => ((List.range o.heads).map fun h =>
    readObj s o (groupOffset o.bx16 o.heads o.dim kv h first 0) (count * (o.dim / 16) * groupBytes o.bx16)).flatten).flatten

/-- The groups of the first slots of a crate, from wherever it stands. -/
def heldSlots (s : State) (o : Obj) (count : Nat) : List Nat :=
  if o.attic then slotBytes s o 0 count
  else
    let m : Mem := match o.lower with | some l => l.bytes | none => []
    ((List.range 2).map fun kv => ((List.range o.heads).map fun h =>
      readBytes m (groupOffset o.bx16 o.heads o.dim kv h 0 0) (count * (o.dim / 16) * groupBytes o.bx16)).flatten).flatten

/-- The crate entries of a layer record: pending slots; in the copy of step 0 of a session with `supplied` tokens, every slot
(R332: a sender cannot know which of the linked crates its mirror holds, so that it sends them all). -/
def prepCrates (s : State) (hk layer : Nat) (supplied : Bool) : List PrepCrate :=
  (layerCrates s hk layer).filterMap fun c => match objOf s c.2 with
    | some o =>
        if supplied then
          (if o.valid + o.pending = 0 then none
           else some { index := c.1, first := 0, count := o.valid + o.pending, fresh := true, bytes := heldSlots s o (o.valid + o.pending) })
        else if o.pending = 0 then none
        else some { index := c.1, first := o.valid, count := o.pending, fresh := o.valid = 0, bytes := slotBytes s o o.valid o.pending }
    | none => none

/-- The state-space inputs of a layer, token by token: x of every head, B of every head, Δ of every head (R486). -/
def prepSsm (p : Params) (e : PartEntry) (layer : Nat) : List (List Nat) :=
  (List.range e.tokens).map fun t =>
    let one (g : Nat) : List Nat := match e.ssmIn.find? fun i => i.1 = layer && i.2.1 = t * 64 + g with | some i => i.2.2 | none => []
    let gs := List.range p.ssmHeads
    (gs.map fun g => slice (one g) 0 p.ssmP).flatten ++ (gs.map fun g => slice (one g) p.ssmP p.ssmN).flatten ++
      (gs.map fun g => slice (one g) (p.ssmP + p.ssmN) 1).flatten

/-- The prepare copy of entry `i` (R486). -/
def prepCopy (s : State) (q : StepPart) (e : PartEntry) : PrepCopy :=
  match sessOf s e.handle, paramsOf s (hCtx e.handle) with
  | some x, some p =>
    let hk := hKey e.handle
    let layers := (hostedLayers s (hSerial e.handle) p).filter fun l => decide (q.first ≤ l) && decide (l ≤ q.last)
    { layers := layers.map fun l =>
        let le := layerEntry p l
        let sel := tget? s.atn.newSel (selKey hk l)
        { layer := l, attn := le.attn, ssm := le.ssm, sel := sel.isSome, tokens := e.tokens, crates := prepCrates s hk l (e.step = 0 && x.supplied ≠ 0),
          ssmIn := if le.ssm then prepSsm p e l else [], selected := sel.getD [] }
      tail := if isHome s q then
          some { length := x.length + e.tokens, maxTokens := if x.maxTokens = 0xFFFFFFFF then x.maxTokens else x.maxTokens - 1,
                 autoId := x.sampler.autoId, autoState := (x.fixing.map (·.nextAuto)).getD x.sampler.autoState }
        else none }
  | _, _ => { layers := [], tail := none }

/-- The last layer residencies of a part are over: count the step residency of a participant (R297, R310). -/
def noteResidency (s : State) (ref : Nat) : State :=
  match partOf s ref with
  | some p => if !isHome s p && p.entries.all (fun e => e.prepared || e.ended.isSome) then recordHist s p.cls 2 p.residency else s
  | none => s

/-! ### Seal (R264 to R266) -/

/-- The session may be sealed in its attempt (R264). -/
def sealReady (p : StepPart) (r : HomeEntry) (x : Session) (mirrored : Bool) : Bool :=
  !r.decided && r.ended.isNone && !r.resubmitted && p.participants.all (r.preparedBy.contains ·) && x.fixed && (!mirrored || x.noteAcked)

/-- Send STP_SEAL for entry `i` to devices. -/
def sendSeal (s : State) (p : StepPart) (i : Nat) (e : PartEntry) (dests : List Nat) : State :=
  dests.foldl (fun s d => sendMsg s d (.stpSeal (stepMsg s p d e.attempt [stepEntry s i e.handle .ok 0] e.handle))) s

/-- The decision point: the home's own commit, STP_SEAL to every other participant (R264 step 3). -/
def decide_ (s : State) (ref i : Nat) : State :=
  match partOf s ref with
  | none => s
  | some p =>
    match p.entries[i]? with
    | none => s
    | some e =>
      let ns := match p.logitsAt with | some t => p.residency + (s.timebase - t) | none => p.residency
      let s := recordResidency s e.handle ns
      let s := if (openEntries p).length ≤ 1 then recordHist s p.cls 2 ns else s
      let s := commitEntry s ref i
      let s := sealSession s e.handle
      let s := rehold (modEntry s ref i fun e => { e with headroom := {} }) e.handle
      let s := modHome s ref i fun r => { r with decided := true, acked := [s.device] }
      let s := match partOf s ref with
        | some p => sendSeal s p i e (p.participants.filter (· ≠ s.device))
        | none => s
      checkDone s ref

/-- Take the seal sequence of entry `i` as far as it can go. -/
def trySeal (s : State) (ref i : Nat) : State :=
  match partOf s ref with
  | none => s
  | some p =>
    match p.homeRec[i]?, p.entries[i]? with
    | some r, some e =>
      match sessOf s e.handle with
      | none => s
      | some x =>
        let m := isMirrored s e.handle true
        if !isHome s p || !sealReady p r x m then s
        else if x.cancelPending then homeEnd s ref i .cancelled 0
        else if m then
          if r.mirrorSent then s
          else
            let s := modHome s ref i fun r => { r with mirrorSent := true }
            sendMsg s x.mirrorDev (.stpSeal { stepMsg s p x.mirrorDev e.attempt [sealEntry s i e] e.handle with mirror := true, epoch := 0 })
        else decide_ s ref i
    | _, _ => s

/-- STP_PREPARED of a participant reaches the home's record. -/
def homePrepared (s : State) (ref i dev : Nat) : State :=
  trySeal (modHome s ref i fun r => { r with preparedBy := if r.preparedBy.contains dev then r.preparedBy else r.preparedBy ++ [dev] }) ref i

/-- Report a prepared entry to the home (R262 step 3). -/
def sendPrepared (s : State) (ref i : Nat) : State :=
  match partOf s ref with
  | none => s
  | some p =>
    match p.entries[i]? with
    | none => s
    | some e =>
      let s := modEntry s ref i fun e => { e with prepWait := false }
      if isHome s p then homePrepared s ref i s.device
      else sendMsg s p.home (.stpPrepared { stepMsg s p p.home e.attempt [stepEntry s i e.handle .ok 0] e.handle with epoch := 0 })

/-- A session's part is prepared on this controller: slots and credits go back, the prepare copy goes to the mirror, then
STP_PREPARED to the home (R262). -/
def prepareEntry (s : State) (ref i : Nat) : State :=
  match partOf s ref with
  | none => s
  | some p =>
    match p.entries[i]? with
    | none => s
    | some e =>
      let s := returnCredits (modEntry s ref i fun e => { e with prepared := true, ownKib := 0, sharedKib := 0 }) ref e.handle
      let s := noteResidency (ledgerDrop s e.handle) ref
      let home := isHome s p
      let s := if !home && (mirLink s e.handle false).isNone then openLayerMirror s e.handle (lostDevices s) false else s
      if (mirLink s e.handle home).isSome then
        let c := prepCopy s p e
        let s := modEntry s ref i fun e => { e with prepWait := true }
        let s := sendMirror s e.handle home (.prep ref e.attempt) (fun q => { q with attempt := e.attempt, ref := ref }) e.step i (.prep c)
        match mirLink s e.handle home with
        | some l => setLink s { l with copies := l.copies ++ [{ seq := l.seq, sentAt := s.timebase, copy := c }] }
        | none => s
      else sendPrepared s ref i

/-- Prepare an entry whose hosted layers are all covered (R168). -/
def maybePrepared (s : State) (ref i : Nat) : State :=
  match partOf s ref with
  | none => s
  | some p =>
    match p.entries[i]? with
    | none => s
    | some e =>
      match paramsOf s (hCtx e.handle) with
      | none => s
      | some q =>
        let layers := (hostedLayers s (hSerial e.handle) q).filter fun l => decide (p.first ≤ l) && decide (l ≤ p.last)
        if liveEntry e && e.started && !e.prepared && !e.killed && layers.all (layerCovered s q ref e) then prepareEntry s ref i else s

/-! ### Descriptor checks (R255, R291) -/

/-- Order 1 of R255. -/
def descMalformed (d : StepDesc) : Bool :=
  d.reserved ≠ 0 || d.count ≠ d.entries.length || d.count = 0 || decide (4096 < d.count) || decide (d.last < d.first) || d.tokens = 0 ||
    (!d.block && d.tokens ≠ 1)

/-- Epochs under which this controller hosts layers of a range: its kind-1 roles and its claims. -/
def hostEpochs (s : State) (first last : Nat) : List Nat :=
  ((rolesOf s 1).filter fun r => r.device = s.device && decide (bitsOf r.key 0 8 ≤ last) && decide (first ≤ bitsOf r.key 8 8)).map (·.epoch) ++
    (s.mir.claims.filter fun c => c.claimer = s.device && decide (c.first ≤ last) && decide (first ≤ c.lastLayer)).map (·.epoch)

/-- Orders 1 to 6 (check 1 of the hatch) of R255: the status of a descriptor-level failure. -/
def descBad (s : State) (d : StepDesc) : Option (Status × Nat) :=
  let eps := hostEpochs s d.first d.last
  if descMalformed d then some (.versionMismatch, 0x7)
  else if (partOf s d.stepRef).isSome then some (.versionMismatch, 0xA)
  else if !(eps.contains d.epoch || (eps.isEmpty && d.home = s.device && d.epoch = 0)) then some (.staleRole, eps.headD 0)
  else match tget? s.contexts d.context with
    | none => some (.contextTorn, 0)
    | some c =>
      if c.torn.isSome then some (.contextTorn, 0)
      else if stepReserve s c.partition + stepShared s < d.count * entryKib c.params d.block d.tokens then some (.noCapacity, 0x4)
      else if !classOk s d.context c.partition d.cls then some (.protection, 0x2)
      else none

/-- What an entry's checks come to. -/
inductive EntryVerdict where
  | bad (st : Status) (detail : Nat)
  | wait
  | ok
  deriving DecidableEq, Repr

/-- A started, live entry of a session in another part. -/
def inStep (s : State) (ref h : Nat) : Bool :=
  s.steps.parts.any fun p => p.stepRef ≠ ref && p.entries.any fun e => e.handle = h && liveEntry e && e.admitted

/-- Orders 7 to 12 of R255 for an entry; `dup` says that its handle stands earlier in the list. -/
def entryCheck (s : State) (p : StepPart) (e : PartEntry) (dup : Bool) : EntryVerdict :=
  match sessOf s e.handle with
  | none =>
    match tget? s.mir.shadows (hKey e.handle) with
    | some d => if d.desc.handle = e.handle && isHome s p then .bad .staleRole d.desc.homeEpoch else .bad .badHandle 0x1
    | none => .bad .badHandle 0x1
  | some x =>
    if hCtx e.handle ≠ p.context then .bad .protection 0x1
    else if dup then .bad .versionMismatch 0x9
    else if serialLt 16 e.homeEpoch x.homeEpoch then .bad .staleRole x.homeEpoch
    else if x.guest && isHome s p then .bad .staleRole x.homeEpoch
    else
      let ahead : Bool := e.step = (x.step + 1) % 2 ^ 32
      let busy := inStep s p.stepRef e.handle
      if x.rejoin || (busy && ahead) then .wait
      else if !x.guest && x.state = .retiring then .bad .cancelled 0
      else if !x.guest && x.state ≠ .active then .bad .badHandle (stateDetail x.state)
      else if ahead then .wait
      else if e.step ≠ x.step then .bad .badHandle 0x6
      else if busy then .wait
      else .ok

/-- The record a participant makes of a session homed elsewhere whose step 0 it is to run (DEDUCED, with R91). -/
def makeGuest (s : State) (d : StepDesc) (e : DescEntry) : State :=
  if d.home = s.device || e.step ≠ 0 || hCtx e.handle ≠ d.context then s
  else if (sessOf s e.handle).isSome then
    modSess s e.handle fun x => if x.guest && x.step = 0 then { x with cls := d.cls, homeEpoch := e.homeEpoch, homeDev := d.home } else x
  else
    let part := ctxPart s d.context
    let s := match tget? s.sess.table (hKey e.handle) with | some y => if y.guest then releaseObjs s y.handle else s | none => s
    let x : Session := { handle := e.handle, state := .active, cls := d.cls, partition := part, homeDev := d.home,
                         homeEpoch := e.homeEpoch, guest := true, tOpen := s.timebase }
    { s with sess := { s.sess with table := tset s.sess.table (hKey e.handle) x } }

/-- A newer home_epoch in an entry is recorded by a participant. -/
def adoptEpoch (s : State) (p : StepPart) (e : PartEntry) : State :=
  if isHome s p then s
  else modSess s e.handle fun x => if x.guest && serialLt 16 x.homeEpoch e.homeEpoch then { x with homeEpoch := e.homeEpoch, homeDev := p.home } else x

/-- A step entry refused with BUDGET_EXHAUSTED: TALLY_EMPTY once per session until the balance is raised (R315). -/
def noteEmpty (s : State) (h : Nat) (st : Status) : State :=
  match sessOf s h with
  | some x =>
    if st = .budgetExhausted && !x.tallyEmpty then report (setSess s { x with tallyEmpty := true }) 0x0903 x.customer 0 [x.customer, h] else s
  | none => s

/-- Admit one entry that has passed orders 7 to 12: the hatch decides (R291). -/
def admitEntry (s : State) (ref i : Nat) : State :=
  match partOf s ref with
  | none => s
  | some p =>
    match p.entries[i]? with
    | none => s
    | some e =>
      match sessOf s e.handle, paramsOf s p.context with
      | some x, some q =>
        let s := adoptEpoch s p e
        let n := if isHome s p then stepTokens x else p.tokens
        let c0 := (p.entries.filter fun y => y.admitted && (sessOf s y.handle).elim false (·.cls = 0)).length + 1
        match decideEntry s x q p.cls p.first p.last p.block n (if isHome s p then c0 else 0) with
        | .refuse k st d => failEntry (noteEmpty (hatchRefused s k) e.handle st) ref i st d
        | .accept room cost out draw =>
          let s := modEntry s ref i fun e => { e with admitted := true, headroom := room, tokens := n }
          let s := if cost.isEmpty then s else ledgerAdd s e.handle (some ref) cost
          let s := if draw = 0 then s else tallyDraw (modSess s e.handle fun x => { x with heldOut := x.heldOut + draw }) x.customer draw
          if out then noteOutside s e.handle p.context else s
      | _, _ => s

/-- Check one unadmitted entry (again): refused, waiting, or admitted. -/
def checkEntry (s : State) (ref i : Nat) : State :=
  match partOf s ref with
  | none => s
  | some p =>
    match p.entries[i]? with
    | none => s
    | some e =>
      if e.admitted || !liveEntry e then s
      else
        let dup := (p.entries.take i).any fun y => y.handle = e.handle
        match entryCheck s p e dup with
        | .bad st d => failEntry s ref i st d
        | .wait => s
        | .ok => admitEntry s ref i

/-- Refuse a whole descriptor: the home answers in STP_DONE, another recipient in STP_KILLED (R255). PROTECTION is check 1 of the
hatch (R291). -/
def refuseDesc (s : State) (d : StepDesc) (st : Status) (detail : Nat) : State :=
  let s := if st = .protection then hatchRefused s 1 else s
  let l := d.entries.zipIdx.map fun e => ({ index := e.2, status := st, detail := detail % 256, homeEpoch := e.1.homeEpoch, step := 0, token := 0 } : StepEntry)
  let m : StepMsg := { mirror := false, resubmit := false, hasNext := false, epoch := 0, src := s.device, stepRef := d.stepRef, attempt := 0, next := 0, entries := l }
  if l.isEmpty then s
  else if d.home = s.device then
    if d.src = s.device then submitterDone s d.stepRef 0 l else sendMsg s d.src (.stpDone m)
  else sendMsg s d.home (.stpKilled m)

/-- STP_DESC at a recipient (R255). -/
def takeDesc (s : State) (d : StepDesc) : State :=
  match s.lay.fast, descBad s d with
  | some f, _ => { s with lay := { s.lay with fast := some { f with descs := f.descs ++ [d] } } }
  | none, some (st, detail) => refuseDesc s d st detail
  | none, none =>
    let s := d.entries.foldl (fun s e => makeGuest s d e) s
    let home : Bool := d.home = s.device
    let serial := hSerial (d.entries.headD ⟨0, 0, 0⟩).handle
    let p : StepPart :=
      { stepRef := d.stepRef, submitter := d.src, home := d.home, cls := d.cls, first := d.first, last := d.last, context := d.context,
        tokens := d.tokens, block := d.block, noRerun := d.noRerun,
        entries := d.entries.map fun e => { handle := e.handle, step := e.step, homeEpoch := e.homeEpoch, tokens := d.tokens },
        homeRec := if home then d.entries.map fun _ => {} else [],
        participants := if home then stepParticipants s serial d.first d.last d.home else [] }
    let s := addPart s p
    let s := (List.range d.entries.length).foldl (fun s i => checkEntry s d.stepRef i) s
    dropDone s d.stepRef

/-! ### Starting parts (R257, R258, R277) -/

/-- A session's last seal is not yet acknowledged by every participant (R265). -/
def sealOpen (s : State) (h : Nat) : Bool :=
  s.steps.parts.any fun p => p.entries.zipIdx.any fun e => e.1.handle = h &&
    match p.homeRec[e.2]? with | some r => r.decided && !(p.participants.all (r.acked.contains ·)) | none => false

/-- An admitted entry that may start now: nothing holds its session back (R23, R100, R109, R117, R265, R333, R497). -/
def entryStarts (s : State) (p : StepPart) (e : PartEntry) : Bool :=
  liveEntry e && e.admitted && !e.started && !e.killed &&
    match sessOf s e.handle with
    | none => false
    | some x => e.step = x.step && (x.guest ||
        (!x.cancelPending && x.publish.isNone && (x.place = .shelf || x.place = .waiting) && !(x.stalled && e.attempt = 0) && !sealOpen s e.handle &&
          !s.mir.holding.contains e.handle)) &&
        !(s.steps.parts.any fun q => q.stepRef ≠ p.stepRef && q.entries.any fun y => y.handle = e.handle && liveEntry y && y.started)

/-- Indices of the entries of a part that may start now. -/
def startable (s : State) (p : StepPart) : List Nat := (p.entries.zipIdx.filter fun e => entryStarts s p e.1).map (·.2)

/-- KiB that the startable entries of a part need. -/
def startNeed (s : State) (p : StepPart) : Nat :=
  match paramsOf s p.context with
  | none => 0
  | some q => sumOf ((startable s p).map fun i => entryKib q p.block ((p.entries[i]?).elim 1 (·.tokens)))

/-- KiB free in a part's own reserve. -/
def ownFree (s : State) (p : StepPart) : Nat := stepReserve s (ctxPart s p.context) - reserveUsed s (ctxPart s p.context)

/-- Another waiting part comes before this one for the shared pool: a higher class, or the same class and an earlier
arrival (R258). -/
def behindOthers (s : State) (p : StepPart) : Bool :=
  s.steps.parts.any fun q => q.stepRef ≠ p.stepRef && decide (0 < startNeed s q) && decide (ownFree s q < startNeed s q) &&
    (decide (partClass s q < partClass s p) || (partClass s q = partClass s p && decide (q.arrival < p.arrival)))

/-- A part may start: all its slots are available (R257, R258), no swap, no pause, no save (R86, R373), the island whose
reset killed it is back (R21). -/
def canStart (s : State) (p : StepPart) : Bool :=
  let need := startNeed s p
  !s.steps.paused && !s.clk.inReset.contains 8 && !p.islandKilled.elim false s.clk.inReset.contains && !swapping s p.context && decide (0 < need) && (decide (need ≤ ownFree s p) ||
    (decide (need ≤ ownFree s p + stepSharedFree s) && !behindOthers s p))

/-- Hand slots to the startable entries, reserve first, and start them. -/
def startEntries (s : State) (ref : Nat) : State :=
  match partOf s ref with
  | none => s
  | some p =>
    match paramsOf s p.context with
    | none => s
    | some q =>
      let ix := startable s p
      let s := modPart s ref fun p => { p with startOrder := s.steps.nextStart }
      let s := { s with steps := { s.steps with nextStart := s.steps.nextStart + 1 } }
      let s := ix.foldl (fun s i =>
        let k := entryKib q p.block ((p.entries[i]?).elim 1 (·.tokens))
        let own := Nat.min k (ownFree s p)
        modEntry s ref i fun e => { e with started := true, ownKib := own, sharedKib := k - own }) s
      ix.foldl (fun s i => maybePrepared s ref i) s

/-- Shared-pool KiB that a kill of a part would free. -/
def sharedHeld (p : StepPart) : Nat := sumOf ((runningEntries p).map fun i => (p.entries[i]?).elim 0 (·.sharedKib))

/-- Victims of a pre-emptor in order (R277): running, unprepared, unshielded, a greater class number, holding shared-pool
slots or credits; the greatest class first, within it the latest start. -/
def victims (s : State) (cls : Nat) : List StepPart :=
  let sh := fld s Reg.STP_CFG.shield
  let c := s.steps.parts.filter fun q => !(runningEntries q).isEmpty && decide (cls < partClass s q) && (sh = 0 || decide (q.preempts < sh)) &&
    (decide (0 < sharedHeld q) || decide (0 < partCredits s q.stepRef))
  sortBy (fun a b => if partClass s a ≠ partClass s b then decide (partClass s b < partClass s a) else decide (b.startOrder < a.startOrder)) c

/-- The shortest run of victims whose holdings cover a shortfall; none where all together do not. -/
def coverVictims (hold : StepPart → Nat) : List StepPart → Nat → Option (List StepPart)
  | _, 0 => some []
  | [], _ + 1 => none
  | v :: t, n + 1 => (coverVictims hold t (n + 1 - hold v)).map (v :: ·)

/-- Pre-empt a victim (R278). -/
def preemptPart (s : State) (cls : Nat) (v : StepPart) : State :=
  let s := report s 0x0801 0 0 [v.stepRef, partClass s v, cls]
  let s := bump s Reg.STP_COUNT.preempted
  let s := modPart s v.stepRef fun p => { p with preempts := p.preempts + 1 }
  killPart s v.stepRef .preempted 0

/-- PART_START: a waiting part starts, pre-empting for shared-pool slots where they are short (R258, R277). -/
def partStart (s : State) (ref : Nat) : State :=
  match partOf s ref with
  | none => s
  | some p =>
    if canStart s p then startEntries s ref
    else
      let need := startNeed s p
      if s.steps.paused || s.clk.inReset.contains 8 || p.islandKilled.elim false s.clk.inReset.contains || swapping s p.context || need = 0 || behindOthers s p then s
      else
        let short := need - ownFree s p - stepSharedFree s
        match coverVictims sharedHeld (victims s (partClass s p)) short with
        | none => s
        | some vs =>
          let s := vs.foldl (fun s v => preemptPart s (partClass s p) v) s
          match partOf s ref with
          | some p => if canStart s p then startEntries s ref else s
          | none => s

/-! ### Semaphores (R281 to R286) -/

/-- Waiters are served in class order, then by arrival. -/
def nextWaiter (l : List SemWaiter) : Option SemWaiter := (sortBy (fun a b => decide (a.cls < b.cls)) l).head?

/-- A semaphore. -/
def semOf (s : State) (i : Nat) : Sem := tget {} s.steps.sems i
/-- Replace a semaphore; a free, unmarked one is not listed. -/
def setSem (s : State) (i : Nat) (x : Sem) : State :=
  { s with steps := { s.steps with sems := if x = {} then tdel s.steps.sems i else tset s.steps.sems i x } }

/-- Results of a SEM_ACQUIRE (R282). -/
def semResults (m : Option SemMark) (waited : Nat) : List Nat :=
  match m with | some k => [k.cause, k.ctx, k.dev, waited] | none => [0, 0, 0, waited]

/-- The class that the holder's context inherits: the least class of a waiter below its own (R284). -/
def inheritOf (x : Sem) : Option Nat :=
  match x.holder, nextWaiter x.waiters with
  | some h, some w => if w.cls < h.cls then some w.cls else none
  | _, _ => none

/-- Free a semaphore, with an abandonment or without: it passes to the first waiter, whose completion SEM_GRANT sends, or
stays free with the mark (R283, R285). -/
def passSem (s : State) (i : Nat) (m : Option SemMark) : State :=
  let x := semOf s i
  match nextWaiter x.waiters with
  | some w =>
    let x := { x with holder := some ⟨w.dev, w.ctx, w.cls⟩, mark := none, waiters := dropFirst (fun y => y = w) x.waiters, granted := x.granted ++ [(w, m)] }
    setSem s i { x with inherit := inheritOf x }
  | none => setSem s i { x with holder := none, mark := m, inherit := none }

/-- Abandon a semaphore (R285). -/
def abandonSem (s : State) (i cause : Nat) : State :=
  match (semOf s i).holder with
  | some h => passSem (report s 0x0805 i 0 [i, cause, h.ctx, h.dev]) i (some ⟨cause, h.ctx, h.dev⟩)
  | none => s

/-- Abandon every semaphore whose holder satisfies `f`. -/
def abandonAll (s : State) (cause : Nat) (f : SemHolder → Bool) : State :=
  (tkeys (s.steps.sems.filter fun x => x.2.holder.elim false f)).foldl (fun s i => abandonSem s i cause) s

/-- SEM_ACQUIRE (R282). -/
def semAcquire (s : State) (sub : Sub) (dev sem cls : Nat) : State :=
  let x := semOf s sem
  match x.holder with
  | some h =>
    if h.dev = dev && h.ctx = sub.context then complete s sub .ok 0 (semResults none 0)
    else
      let w : SemWaiter := { dev := dev, ctx := sub.context, cls := cls, sub := sub, since := s.timebase }
      let x := { x with waiters := x.waiters ++ [w] }
      setSem s sem { x with inherit := inheritOf x }
  | none =>
    let s := setSem s sem { x with holder := some ⟨dev, sub.context, cls⟩, mark := none }
    complete s sub (if x.mark.isSome then .abandoned else .ok) 0 (semResults x.mark 0)

/-- SEM_RELEASE (R283). -/
def semRelease (s : State) (sub : Sub) (dev sem : Nat) : State :=
  match (semOf s sem).holder with
  | some h => if h.dev = dev && h.ctx = sub.context then complete (passSem s sem none) sub .ok 0 [] else refuse s sub .badHandle 0x7
  | none => refuse s sub .badHandle 0x7

/-! ### Teardown (R287) -/

/-- Contexts that bind a table slot (R349). -/
def bindersOf (s : State) (i : Nat) : List Nat :=
  (s.contexts.filter fun c => match c.2.binding with
    | some b => b.vocab = some i || b.embed = some i || b.constr = some i
    | none => false).map (·.1)

/-- A slot's table goes: its cached rows with it, its measurement reads empty (R535, R538). -/
def dropTable (s : State) (i : Nat) : State :=
  if (tget? s.tok.slots i).isNone then s
  else measChanged { s with tok := { s.tok with slots := tdel s.tok.slots i, cache := s.tok.cache.filter (·.slot ≠ i) } } (11 + i)

/-- Slots that no context owns are freed when no context binds them (R350). -/
def sweepTables (s : State) : State :=
  (tkeys s.tok.slots).foldl (fun s i => match tget? s.tok.slots i with
    | some t => if t.owner.isNone && (bindersOf s i).isEmpty then dropTable s i else s
    | none => s) s

/-- A context is gone: no context owns its slots any longer (R350). -/
def freeOwned (s : State) (ctx : Nat) : State :=
  sweepTables { s with tok := { s.tok with slots := tmap (fun _ t => if t.owner = some ctx then { t with owner := none } else t) s.tok.slots } }

/-- DETACH completes, and the attachment ends, once no context being torn down is left (R52, R287). -/
def endDetach (s : State) : State :=
  if s.detaching.isEmpty || s.contexts.any (·.2.torn.isSome) then s
  else
    let l := s.detaching
    l.foldl (fun s sub => complete s sub .ok 0 []) { s with detaching := [], attached := 0 }

/-- Free a context slot: its last session is FREE and its last move is over; CTX_DESTROY completes, CTX_TORN is posted. -/
def freeContext (s : State) (ctx : Nat) : State :=
  match tget? s.contexts ctx with
  | none => s
  | some c =>
    match c.torn with
    | none => s
    | some t =>
      let mine : Bool := s.sess.table.any fun x => hCtx x.2.handle = ctx && x.2.state ≠ .free
      let moves : Bool := (s.tier.running.any fun m => (objOf s m.obj).elim false (·.ctx = ctx)) ||
        s.tier.queues.any fun q => q.2.any fun m => (objOf s m.obj).elim false (·.ctx = ctx)
      if mine || moves then s
      else
        let s := report s 0x0807 ctx 0 [ctx, t.trigger, t.unit, t.code]
        let s := freeOwned { s with contexts := tdel s.contexts ctx } ctx
        let s := match c.destroyer with | some sub => complete s sub .ok 0 [] | none => s
        endDetach s

/-- Drop a guest's record with what it holds. -/
def dropGuest (s : State) (h : Nat) : State :=
  let s := releaseObjs s h
  { s with sess := { s.sess with table := tdel s.sess.table (hKey h) } }

/-- Tear a context down (R287): triggers 1 job fault, 2 CTX_DESTROY, 3 DETACH, 4 the inheritance limit. -/
def teardown (s : State) (ctx : Nat) (t : Torn) (by_ : Option Sub) : State :=
  match tget? s.contexts ctx with
  | none => s
  | some c =>
    if c.torn.isSome then s
    else
      let s := { s with contexts := tset s.contexts ctx { c with torn := some t, destroyer := by_ } }
      -- step 2: parts end, prepared ones included
      let s := (s.steps.parts.filter (·.context = ctx)).foldl (fun s p =>
        (List.range p.entries.length).foldl (fun s i => failEntry s p.stepRef i .contextTorn 0) s) s
      -- step 3: jobs and commands end with ABORTED
      let ws := (s.atn.work.filter fun w => hCtx w.msg.handle = ctx).map (·.id)
      let s := ws.foldl dropTiles s
      let s := { s with atn := { s.atn with work := s.atn.work.filter fun w => !ws.contains w.id } }
      let s := { s with nbu := { s.nbu with queued := s.nbu.queued.filter (·.ctx ≠ ctx) } }
      -- step 4: semaphores, waiters
      let s := (s.steps.sems.map (·.1)).foldl (fun s i =>
        let x := semOf s i
        let mine := x.waiters.filter fun w => w.ctx = ctx && w.dev = s.device
        let s := setSem s i { x with waiters := x.waiters.filter fun w => !(w.ctx = ctx && w.dev = s.device) }
        mine.foldl (fun s w => refuse s w.sub .contextTorn 0) s) s
      let s := abandonAll s 1 fun h => h.dev = s.device && h.ctx = ctx
      -- queued commands of the context
      let ps := s.tok.paused.filter fun v => v.sub.context = ctx
      let s := { s with tok := { s.tok with paused := s.tok.paused.filter fun v => v.sub.context ≠ ctx } }
      let s := ps.foldl (fun s v => refuse s v.sub .contextTorn 0) s
      let ws := s.tok.swaps.filter fun w => w.sub.context = ctx
      let s := { s with tok := { s.tok with swaps := s.tok.swaps.filter fun w => w.sub.context ≠ ctx } }
      let s := ws.foldl (fun s w => refuse s w.sub .contextTorn 0) s
      let os := s.inv.ops.filter fun o => !o.publish && o.sub.context = ctx
      let s := { s with inv := { s.inv with ops := s.inv.ops.filter fun o => o.publish || o.sub.context ≠ ctx } }
      let s := os.foldl (fun s o => refuse s o.sub .contextTorn 0) s
      let s := tornPds (tornSearch s ctx) ctx
      -- step 5: sessions
      let mine := (s.sess.table.filter fun x => hCtx x.2.handle = ctx).map (·.2)
      let s := (mine.filter fun x => !x.guest).foldl (fun s x => retire s x.handle .contextTorn .contextTorn 0) s
      let s := (mine.filter (·.guest)).foldl (fun s x => dropGuest s x.handle) s
      let s := (countWithdrawn (withdrawCtx s ctx)).1
      freeContext s ctx

end Sys2Proof.Machine
end

