-- ==== Sys2Proof/Machine/MirBase.lean ====
section
/-! DEFINITION. What a mirror holds (R482, R486, R487): the shadow of a session, its roles, the objects of a shadowed
role, committing and applying prepare copies. -/
namespace Sys2Proof.Machine

/-- The shadow a handle names, generation included. -/
def shadowOf (s : State) (h : Nat) : Option MirShadow :=
  match tget? s.mir.shadows (hKey h) with | some d => if d.desc.handle = h then some d else none | none => none

/-- Replace a shadow. -/
def setShadow (s : State) (d : MirShadow) : State := { s with mir := { s.mir with shadows := tset s.mir.shadows (hKey d.desc.handle) d } }

/-- Forget a shadow. -/
def delShadow (s : State) (h : Nat) : State := { s with mir := { s.mir with shadows := tdel s.mir.shadows (hKey h) } }

/-- Where the objects of a shadowed role are named, apart from the session's own map. -/
def roleKey (h sender : Nat) : Nat := hKey h + 2 ^ 38 * (sender + 1)

/-- A role of a shadow, by its sender and kind. -/
def sameRole (sender : Nat) (home : Bool) (r : ShadowRole) : Bool := r.sender = sender && r.home = home

/-- The role of a shadow that a sender has. -/
def roleOf (d : MirShadow) (sender : Nat) (home : Bool) : Option ShadowRole := d.roles.find? (sameRole sender home)

/-- Update a role of a shadow. -/
def modRole (d : MirShadow) (sender : Nat) (home : Bool) (f : ShadowRole → ShadowRole) : MirShadow :=
  { d with roles := modFirst (sameRole sender home) f d.roles }

/-! ### Objects in the store room -/

/-- The lower copy's bytes. -/
def lowerMem (o : Obj) : Mem := match o.lower with | some l => l.bytes | none => []

/-- An object with new bytes in the store room. -/
def withLower (s : State) (o : Obj) (m : Mem) (step : Nat) : Obj :=
  match o.lower with
  | some l => { o with lower := some { l with bytes := m, step := step } }
  | none => { o with lower := some { tier := 1, target := 0, unit := nextUnit s 1 0, bytes := m, step := step } }

/-- The elements of a vector in a crate image. -/
def memVec (m : Mem) (o : Obj) (kv h t : Nat) : List Elt :=
  ((List.range (o.dim / 16)).map fun j =>
    let g := unpackGroup o.bx16 (readBytes m (groupOffset o.bx16 o.heads o.dim kv h t j) (groupBytes o.bx16))
    (List.range 16).map (groupElt g)).flatten

/-- An object under a key, made HOME in the store room where there is none. -/
def shadowObj (s : State) (x : Session) (p : Params) (hk : Nat) (k : ObjKind) (layer index : Nat) : State × Nat × Obj :=
  match mapped s hk k layer index with
  | some id => (match objOf s id with
    | some o => (s, id, o)
    | none => (s, id, blankObj x p k layer index s.timebase))
  | none =>
    let o := { blankObj x p k layer index s.timebase with dirty := false }
    let (s, id) := addObj s o
    (setMap s hk k layer index id, id, o)

/-- Write the groups of a crate entry's slots from slot `from_` on into a crate image. -/
def putSlots (x : Session) (p : Params) (c : PrepCrate) (from_ : Nat) (m : Mem) : Mem :=
  let per := p.headDim / 16 * groupBytes x.bx16
  let n := c.first + c.count - from_
  (List.range 2).foldl (fun m kv => (List.range p.kvHeads).foldl (fun m h =>
    writeBytes m (groupOffset x.bx16 p.kvHeads p.headDim kv h from_ 0)
      (slice c.bytes (((kv * p.kvHeads + h) * c.count + (from_ - c.first)) * per) (n * per))) m) m

/-- A crate that the role links from this controller's inventory and that holds the slots of an entry already (R332). -/
def linkedCrate (s : State) (hk layer : Nat) (c : PrepCrate) : Bool :=
  match (mapped s hk .crate layer c.index).bind (objOf s) with
  | some o => decide (2 ≤ o.refs) && decide (c.first + c.count ≤ o.valid)
  | none => false

/-- Apply a crate entry of a copy: slots, count, centroids, header, strip page (R487, R494). -/
def applyCrate (s : State) (x : Session) (p : Params) (hk floor : Nat) (sel : Bool) (step layer : Nat) (c : PrepCrate) : State :=
  let (s, id, o) := shadowObj s x p hk .crate layer c.index
  let m := putSlots x p c (Nat.max c.first floor) (lowerMem o)
  let o := { o with valid := Nat.max o.valid (c.first + c.count), step := step, tCommit := s.timebase, age := s.timebase }
  let cents := (List.range o.heads).map fun h =>
    (h, ((centroidOf o.dim ((List.range o.valid).map fun t => memVec m o 0 h t)).map (packGroup false)).flatten)
  let m := cents.foldl (fun m z => writeBytes m (centroidOffset o.bx16 o.heads o.dim z.1 0) z.2) m
  let bad := (List.range o.valid).any fun t => (List.range 2).any fun kv => (List.range o.heads).any fun h => (memVec m o kv h t).any (·.poison)
  let o := { o with poison := o.poison || bad, crc := crc32c (readBytes m 4096 (bodyLen o.bx16 o.heads o.dim)) }
  let s := setObj s id (withLower s o (writeBytes m 0 (headerBytes o)) step)
  if !sel then s
  else
    let (s, sid, so) := shadowObj s x p hk .strip layer (c.index / 64)
    let sm := cents.foldl (fun m z => writeBytes m ((c.index % 64 * o.heads + z.1) * o.dim) z.2) (lowerMem so)
    setObj s sid (withLower s { so with valid := Nat.max so.valid (c.index % 64 + 1), step := step } sm step)

/-- The state-space inputs of one token of a layer record, head by head. -/
def prepInput (p : Params) (row : List Nat) (g : Nat) : SsmIn :=
  let dec (l : List Nat) : List Elem := l.map (decode16 p.inFp16)
  let gp := p.ssmHeads * p.ssmP
  let gn := p.ssmHeads * p.ssmN
  { x := dec (slice row (g * p.ssmP) p.ssmP), z := [], b := dec (slice row (gp + g * p.ssmN) p.ssmN), c := [],
    delta := (dec (slice row (gp + gn + g) 1)).getD 0 .nan }

/-- Apply the state-space inputs of a layer record: the mirror recomputes S′ as the participant did (R197, R486). -/
def applySlab (s : State) (x : Session) (p : Params) (hk step : Nat) (l : PrepLayer) : State :=
  if !l.ssm then s
  else
    let (s, id, o) := shadowObj s x p hk .slab l.layer 0
    let n := p.ssmP * p.ssmN
    let r := p.ssm.getD (ssmIndex p l.layer) ⟨[], [], []⟩
    let m := lowerMem o
    let m := (List.range p.ssmHeads).foldl (fun m g =>
      let st := (List.range n).map fun i => readLE m ((g * n + i) * 4) 4
      let st := l.ssmIn.foldl (fun st row =>
        (ssmToken p.ssmP p.ssmN (val32 p.ssmEps) p.gateAfter true (r.a.getD g 0) (slice r.d (g * p.ssmP) p.ssmP) [] (prepInput p row g) st).1) st
      writeBytes m (g * n * 4) ((st.map (leBytes 4)).flatten)) m
    setObj s id (withLower s { o with valid := 1, active := 0, step := step, tCommit := s.timebase, age := s.timebase } m step)

/-- The valid count that a sync gave a crate of a role, 0 where none did (R494). -/
def syncFloor (r : ShadowRole) (layer index : Nat) : Nat :=
  match r.syncedValid.find? fun v => v.1 = layer && v.2.1 = index with | some v => v.2.2 | none => 0

/-- Apply one committed copy to the objects of its role. -/
def applyCopy (s : State) (d : MirShadow) (r : ShadowRole) (c : HeldCopy) : State :=
  match paramsOf s (hCtx d.desc.handle) with
  | none => s
  | some p =>
    let hk := roleKey d.desc.handle r.sender
    c.copy.layers.foldl (fun s l =>
      let s := (l.crates.filter fun e => !linkedCrate s hk l.layer e).foldl (fun s e => applyCrate s d.desc p hk (syncFloor r l.layer e.index) (l.sel || isSelective s d.desc (layerEntry p l.layer)) c.step l.layer e) s
      let s := applySlab s d.desc p hk c.step l
      if l.sel then { s with atn := { s.atn with selected := tset s.atn.selected (selKey hk l.layer) l.selected } } else s) s

/-- The home tells the mirror t and the hashes of the linked nodes: the mirror links what its own inventory holds of them for the
layers that the home serves (R332). -/
def linkShadow (s : State) (d : MirShadow) (ws : List Nat) : State :=
  match d.roles.find? (·.home) with
  | none => s
  | some r =>
    let h := d.desc.handle
    (List.range (ws.headD 0 / 64)).foldl (fun s j =>
      match findNode s (hCtx h) (fmtCode d.desc.bx16) j (ws.getD (1 + 2 * j) 0 + 2 ^ 32 * ws.getD (2 + 2 * j) 0) (chunkOf d.desc.inTokens j) with
      | none => s
      | some (_, n) => n.crates.foldl (fun s c =>
          if (layerHost s (hSerial h) c.1).elim false (·.1 = r.sender) then
            setMap (modObj s c.2 fun o => { o with refs := o.refs + 1 }) (roleKey h r.sender) .crate c.1 j c.2
          else s) s) s

/-- Apply every committed copy of a role in step order; they are forgotten then. -/
def applyRole (s : State) (h sender : Nat) (home : Bool) : State :=
  match shadowOf s h with
  | none => s
  | some d =>
    match roleOf d sender home with
    | none => s
    | some r =>
      let due := sortBy (fun a b => decide (a.step < b.step)) (r.copies.filter (·.committed))
      let s := due.foldl (fun s c => applyCopy s d r c) s
      setShadow s (modRole d sender home fun r => { r with copies := r.copies.filter fun c => !c.committed })

/-! ### Commit (R487) -/

/-- The token a shadow knows for a step: its seal record's, or its note's. -/
def shadowToken (d : MirShadow) (step : Nat) : Option Nat :=
  match d.seals.find? fun r => r.step = step && !r.note with
  | some r => some r.token
  | none => (d.notes.find? (·.step = step)).map (·.token)

/-- The shadow descriptor after a committed home copy: what the home's commit of that step made of it. -/
def advanceDesc (s : State) (d : MirShadow) (c : HeldCopy) : MirShadow :=
  match c.copy.tail with
  | none => d
  | some t =>
    if d.desc.step ≠ c.step then d
    else
      let x := d.desc
      let tok := (shadowToken d c.step).getD x.pendingToken
      let hold := match vocabOf s (hCtx x.handle), d.notes.find? (·.step = c.step) with
        | some v, some n => (detok n.hold (tokenString v tok)).2
        | _, _ => x.holdBytes
      let input := if c.step = 0 then x.inTokens else if x.shadowOf = .resuming then d.resume else []
      let kv := if input.isEmpty then x.kv ++ [x.lastToken] else x.kv ++ input
      let y := { x with step := x.step + 1, length := t.length, maxTokens := t.maxTokens, tokens := x.tokens ++ input ++ [tok], kv := kv, lastToken := tok,
                        sampler := { x.sampler with autoId := t.autoId, autoState := t.autoState }, holdBytes := hold, fixed := false, posted := false, tTouch := s.timebase }
      { d with desc := y, resume := if x.shadowOf = .resuming then [] else d.resume }

/-- Commit the held copies of a role that satisfy `f`, in step order. -/
def commitCopies (s : State) (h sender : Nat) (home : Bool) (f : HeldCopy → Bool) : State :=
  match shadowOf s h with
  | none => s
  | some d =>
    match roleOf d sender home with
    | none => s
    | some r =>
      let due := sortBy (fun a b => decide (a.step < b.step)) (r.copies.filter fun c => !c.committed && f c)
      let d := due.foldl (fun d c => if home then advanceDesc s d c else d) d
      let d := modRole d sender home fun r => { r with copies := r.copies.map fun c => if f c then { c with committed := true } else c }
      let s := setShadow s d
      let n := ((r.copies.filter fun c => c.committed || f c)).length
      if fld s Reg.CKP_MIR_CFG.apply_steps ≤ n then applyRole s h sender home else s

/-- Free the objects that a role's map names, and the map. -/
def dropRoleObjs (s : State) (h sender : Nat) : State :=
  let hk := roleKey h sender
  let ids := sessObjs s hk
  let s := { s with tier := { s.tier with map := s.tier.map.filter fun e => e.1 / (65536 * 256 * 4) ≠ hk } }
  let s := { s with atn := { s.atn with selected := s.atn.selected.filter fun e => e.1 / 256 ≠ hk } }
  sweepAll (ids.foldl dropRef s)

/-- Move the objects of a role into the session's own map: the role is served here from now on. -/
def adoptRoleObjs (s : State) (h sender : Nat) : State :=
  let hk := roleKey h sender
  let ms := s.tier.map.filter fun e => e.1 / (65536 * 256 * 4) = hk
  let s := { s with tier := { s.tier with map := s.tier.map.filter fun e => e.1 / (65536 * 256 * 4) ≠ hk } }
  let s := ms.foldl (fun s e => { s with tier := { s.tier with map := tset s.tier.map (hKey h * (65536 * 256 * 4) + e.1 % (65536 * 256 * 4)) e.2 } }) s
  let sel := s.atn.selected.filter fun e => e.1 / 256 = hk
  let s := { s with atn := { s.atn with selected := s.atn.selected.filter fun e => e.1 / 256 ≠ hk } }
  sel.foldl (fun s e => { s with atn := { s.atn with selected := tset s.atn.selected (selKey (hKey h) (e.1 % 256)) e.2 } }) s

/-- The bytes of an object as a copy carries it: a crate whole, a slab's stored buffer, a strip page. R133 names the
fields of the slab header but not their places: they travel as the message's fields. -/
def copyBytes (s : State) (o : Obj) : List Nat :=
  let m := if o.attic then storedBytes s o else lowerMem o
  match o.kind with
  | .slab => readBytes m 0 (o.size / 2)
  | _ => readBytes m 0 o.size

/-- Write an object received from another controller (R494, R154): it is HOME in the store room. -/
def receiveObj (s : State) (x : Session) (p : Params) (hk : Nat) (k : ObjKind) (layer index valid step : Nat) (bytes : List Nat) : State :=
  let (s, id, o) := shadowObj s x p hk k layer index
  let m := writeBytes [] 0 bytes
  let s := if o.attic then wipeAttic s o else s
  let o := { o with valid := valid, pending := 0, step := step, state := .home, attic := false, active := 0, dirty := false, lower := none, lost := false,
                    poison := k = .crate && bitOf (bytes.getD 11 0) 1, crc := if k = .crate then leAt bytes 24 4 else 0 }
  setObj s id (withLower s o m step)

end Sys2Proof.Machine
end

