-- ==== Sys2Proof/Machine/Steps.lean ====
section
/-! DEFINITION. What the step messages and verbs do (R252 to R288): seal answers at a participant, the home's
acknowledgements, aborts, kills, submission, restores after a TIER_FAULT answer. -/
namespace Sys2Proof.Machine

/-! ### Cancels (R109, R112) -/

/-- A started entry of a session is in flight here. -/
def startedFlight (s : State) (h : Nat) : Bool :=
  s.steps.parts.any fun p => p.entries.any fun e => e.handle = h && liveEntry e && e.started

/-- A due cancel takes effect: waiting entries end CANCELLED, the session retires, the SES_CANCELs complete. -/
def cancelNow (s : State) (h : Nat) : State :=
  let refs := (s.steps.parts.map fun p => ((p.entries.zipIdx.filter fun e => e.1.handle = h && liveEntry e.1).map fun e => (p.stepRef, e.2))).flatten
  let s := refs.foldl (fun s r => failEntry s r.1 r.2 .cancelled 0) s
  retire s h .ok .cancelled 0

/-- A cancelled session with nothing in its way retires (R40, R109, R112). -/
def tryCancel (s : State) (h : Nat) : State :=
  match sessOf s h with
  | some x =>
    if !x.cancelPending || x.state = .retiring || x.guest || x.place = .spilling || x.place = .fetching || x.place = .spilled then s
    else if startedFlight s h then s
    else cancelNow s h
  | none => s

/-! ### What the end of a step lets go on -/

/-- Retry every entry that has not been admitted. -/
def recheckEntries (s : State) : State :=
  s.steps.parts.foldl (fun s p => (List.range p.entries.length).foldl (fun s i => checkEntry s p.stepRef i) s) s

/-- Publications and cancels that waited for a step boundary (R109, R333), and commands queued behind one that has completed
(R39). -/
def boundaries (s : State) : State :=
  (tvals s.sess.table).foldl (fun s x =>
    let s := if x.cancelPending then tryCancel s x.handle else s
    let s := if x.publish.isSome && !x.publishing && !x.guest && !inFlight s x.handle then startPublish s x.handle else s
    if x.waiting.isEmpty then s else runWaiting s x.handle) s

/-! ### Seal at a participant (R265) -/

/-- The mirror's seal note of a participant (R264 step 4). -/
def sealNote (s : State) (p : StepPart) (i : Nat) (e : PartEntry) : State :=
  match mirLink s e.handle false with
  | some l => sendMsg s l.dev (.stpSeal { stepMsg s p l.dev e.attempt [stepEntry s i e.handle .ok 0] e.handle with mirror := true, epoch := 0 })
  | none => s

/-- A participant commits a prepared entry. -/
def commitPart (s : State) (ref i : Nat) (epoch : Nat) : State :=
  match partOf s ref with
  | none => s
  | some p =>
    match p.entries[i]? with
    | none => s
    | some e =>
      let s := commitEntry s ref i
      let s := modSess s e.handle fun x =>
        if x.guest then
          let toks := x.inTokens.drop x.length
          let kv := if x.kv.length = x.length && toks.length = e.tokens then x.kv ++ toks else x.kv
          { x with step := x.step + 1, length := x.length + e.tokens, homeEpoch := epoch, homeDev := p.home, kv := kv, inTokens := [] }
        else x
      let s := rehold (modEntry s ref i fun e => { e with headroom := {} }) e.handle
      let s := sealNote s p i e
      let s := { s with steps := { s.steps with sealed := s.steps.sealed.filter (fun z => z.1 ≠ ref || z.2.1 ≠ i) ++ [(ref, i, e.handle)] } }
      dropDone s ref

/-- Objects of a session that its next step changes in a layer: the crates from the committed end on, the slab, the
strip page. -/
def changedObjs (s : State) (x : Session) (p : Params) (n layer : Nat) : List (Nat × Nat × Nat) :=
  let le := layerEntry p layer
  let crates := if le.attn then ((List.range ((x.length + n - 1) / 64 + 1)).filter fun c => decide (x.length / 64 ≤ c)).map fun c => (0, layer, c) else []
  let strips := if le.attn && isSelective s x le then [(2, layer, (x.length + n - 1) / 64 / 64)] else []
  let slab := if le.ssm then [(1, layer, 0)] else []
  crates ++ slab ++ strips

/-- Ask the mirror for objects (R487, R494): MIRROR_PULL with the step count they must be current through. -/
def pullObjs (s : State) (h : Nat) (home : Bool) (count : Nat) (l : List (Nat × Nat × Nat)) : State :=
  l.foldl (fun s o => match mirLink s h home with
    | some _ => sendMirror s h home (.sync false) (fun q => { q with first := o.2.1, lastLayer := o.2.1 }) o.2.2 o.1 (.pull count)
    | none => s) s

/-- Start the restore of a layer group whose part was lost (R265): from the mirror where there is one. -/
def startRestore (s : State) (x : Session) (p : Params) (ref i attempt home n : Nat) : State :=
  let ls := hostedLayers s (hSerial x.handle) p
  let objs := (ls.map (changedObjs s x p n)).flatten
  let r : Restore := { handle := x.handle, step := x.step + 1, waits := objs, answer := some (home, ref, i, attempt) }
  let s := { s with steps := { s.steps with behind := s.steps.behind ++ [(x.handle, x.step)] },
                    mir := { s.mir with restores := s.mir.restores ++ [r] } }
  pullObjs (report s 0x0804 (hSerial x.handle) 0 [x.handle, x.step]) x.handle false (x.step + 1) objs

/-- The layer shadows here that hold the prepare copy an STP_SEAL names (R265, R492). -/
def shadowCopy (s : State) (ref i attempt : Nat) : List (Nat × ShadowRole × HeldCopy) :=
  ((tvals s.mir.shadows).map fun d => (d.roles.map fun r =>
    (r.copies.filter fun c => !r.home && c.ref = ref && c.idx = i && c.attempt = attempt).map fun c => (d.desc.handle, r, c)).flatten).flatten

/-- One entry of STP_SEAL at a participant: the state and the answer. -/
def sealOne (s : State) (ref attempt src : Nat) (en : StepEntry) : State × StepEntry :=
  let ans (st : Status) (d : Nat) : StepEntry := { en with status := st, detail := d % 256 }
  match (partOf s ref).bind fun p => p.entries[en.index]? with
  | some e =>
    match sessOf s e.handle with
    | none => (s, ans .badHandle 0x1)
    | some x =>
      let ans (st : Status) (d : Nat) : StepEntry := { ans st d with homeEpoch := if serialLt 16 en.homeEpoch x.homeEpoch then x.homeEpoch else en.homeEpoch }
      if serialLt 16 en.homeEpoch x.homeEpoch then (s, ans .staleRole x.homeEpoch)
      else if e.committed || serialLt 32 e.step x.step then (s, ans .ok 0)
      else if e.prepared && e.ended.isNone && e.attempt = attempt then (commitPart s ref en.index en.homeEpoch, ans .ok 0)
      else match paramsOf s (hCtx e.handle) with
        | some q =>
          if s.steps.behind.any (·.1 = e.handle) then (s, ans .tierFault 0x8)
          else (startRestore (endEntry s ref en.index .tierFault 0x8) x q ref en.index attempt src e.tokens, ans .tierFault 0x8)
        | none => (s, ans .contextTorn 0)
  | none =>
    match s.steps.sealed.find? fun z => z.1 = ref && z.2.1 = en.index with
    | some z =>
      (match sessOf s z.2.2 with
       | some x =>
         if serialLt 16 en.homeEpoch x.homeEpoch then (s, { ans .staleRole x.homeEpoch with homeEpoch := x.homeEpoch }) else (s, ans .ok 0)
       | none => (s, ans .ok 0))
    | none =>
      match shadowCopy s ref en.index attempt with
      | (h, r, c) :: _ => (commitCopies s h r.sender false fun y => y.step = c.step && y.attempt = c.attempt, ans .ok 0)
      | [] => (s, ans .tierFault 0x8)

/-- STP_SEAL at a participant (R265): every entry is answered in one STP_SEAL_ACK. -/
def sealParticipant (s : State) (m : StepMsg) : State :=
  let (s, l) := m.entries.foldl (fun acc en => let r := sealOne acc.1 m.stepRef m.attempt m.src en; (r.1, acc.2 ++ [r.2])) (s, [])
  sendMsg s m.src (.stpSealAck { m with mirror := false, epoch := 0, src := s.device, entries := l })

/-! ### Acknowledgements at the home (R264, R265, R266) -/

/-- The home stops serving a session without an END chunk: everything pending or queued completes with a status, what `post`
reports is posted, the record goes (R493, R549). -/
def leaveHome (s : State) (h : Nat) (st : Status) (e : Nat) (post : State → State) : State :=
  match sessOf s h with
  | none => s
  | some x =>
    if x.guest then s
    else
      let refs := (s.steps.parts.map fun p => ((p.entries.zipIdx.filter fun q => q.1.handle = h && liveEntry q.1).map fun q => (p.stepRef, q.2))).flatten
      let s := refs.foldl (fun s r => endEntry s r.1 r.2 st e) s
      let s := refs.foldl (fun s r => modHome s r.1 r.2 fun r => { r with resubmitted := true }) s
      let s := endVerb s h st e
      let s := x.waiting.foldl (fun s v => refuse s v.sub st e) s
      let s := match x.publish with | some (sub, _) => refuse s sub st e | none => s
      let s := x.cancels.foldl (fun s sub => refuse s sub st e) s
      let s := post s
      let s := tallyReturn (ledgerDrop s h) h
      let s := releaseObjs s h
      let s := dropLink (dropLink s h true) h false
      let s := freeTrack s x
      let s := { s with sess := { s.sess with table := tdel s.sess.table (hKey h) } }
      let s := refs.foldl (fun s r => checkDone s r.1) s
      if hDev h = s.device then
        { s with sess := { s.sess with serials := { s.sess.serials with freed := s.sess.serials.freed ++ [hSerial h] } } }
      else s

/-- The home stops serving a session: STALE_ROLE, SESSION_DEMOTED (R493). `newer` is the newer home_epoch where it is known. -/
def demote (s : State) (h : Nat) (newer : Option Nat) : State :=
  match sessOf s h with
  | none => s
  | some x =>
    let e := newer.getD (wrapAdd 16 x.homeEpoch 1)
    leaveHome s h .staleRole e fun s => report s 0x1604 (hSerial h) e [h, e]

/-- An STP_SEAL_ACK entry of a participant at the home. -/
def ackOne (s : State) (ref dev : Nat) (en : StepEntry) : State :=
  match partOf s ref with
  | none => s
  | some p =>
    match p.homeRec[en.index]?, p.entries[en.index]? with
    | some r, some e =>
      if !r.decided then s
      else match en.status with
        | .ok => checkDone (modHome s ref en.index fun r =>
            { r with acked := if r.acked.contains dev then r.acked else r.acked ++ [dev], behind := r.behind.filter (· ≠ dev) }) ref
        | .tierFault => checkDone (modHome s ref en.index fun r => { r with behind := if r.behind.contains dev then r.behind else r.behind ++ [dev] }) ref
        | .staleRole =>
          if serialLt 16 ((sessOf s e.handle).elim 0 (·.homeEpoch)) en.homeEpoch then demote s e.handle (some en.homeEpoch)
          else
            let new := (rangeHosts s (hSerial e.handle) p.first p.last).map (·.1)
            let part := p.participants.filter (fun d => d ≠ dev) ++ new.filter fun d => d ≠ dev && !p.participants.contains d
            let s := modPart s ref fun p => { p with participants := if new.contains dev then p.participants else part }
            match partOf s ref with
            | some p => sendSeal s p en.index e (p.participants.filter fun d => d ≠ s.device && !r.acked.contains d)
            | none => s
        | _ => checkDone (modHome s ref en.index fun r => { r with acked := if r.acked.contains dev then r.acked else r.acked ++ [dev] }) ref
    | _, _ => s

/-- STP_SEAL_ACK (R264): of the mirror, the decision point; of a participant, its acknowledgement. -/
def sealAck (s : State) (m : StepMsg) : State :=
  m.entries.foldl (fun s en =>
    match (partOf s m.stepRef).bind fun p => (p.entries[en.index]?).bind fun e => (p.homeRec[en.index]?).map fun r => (e, r) with
    | some (e, r) =>
      let mir := (sessOf s e.handle).elim 0x7FF (·.mirrorDev)
      if r.mirrorSent && !r.decided && r.ended.isNone && m.src = mir then
        if en.status = .ok then decide_ s m.stepRef en.index
        else if en.status = .staleRole then demote s e.handle (some en.homeEpoch)
        else s
      else ackOne s m.stepRef m.src en
    | none => s) s

/-- Resend every STP_SEAL entry not acknowledged, and the seal record to a mirror that has not answered (R266). -/
def resendSeals (s : State) (ref : Nat) : State :=
  match partOf s ref with
  | none => s
  | some p =>
    p.entries.zipIdx.foldl (fun s e =>
      match p.homeRec[e.2]? with
      | some r =>
        if r.decided then sendSeal s p e.2 e.1 (p.participants.filter fun d => d ≠ s.device && !r.acked.contains d && !r.behind.contains d)
        else if r.mirrorSent && r.ended.isNone then
          match sessOf s e.1.handle with
          | some x => sendMsg s x.mirrorDev (.stpSeal { stepMsg s p x.mirrorDev e.1.attempt [sealEntry s e.2 e.1] e.1.handle with mirror := true, epoch := 0 })
          | none => s
        else s
      | none => s) s

/-! ### STP_PREPARED at the home (R264, R267) -/

/-- The layer-group-host epoch of a device, where no part says for which layers: of its first role or claim (R270). -/
def peerEpoch (s : State) (dev : Nat) : Nat :=
  (((rolesOf s 1).filter fun r => r.device = dev).map (·.epoch) ++ (s.mir.claims.filter fun c => c.claimer = dev).map (·.epoch)).headD 0

/-- STP_ABORT to one device for one entry: what answers a query about an entry that is not pending here (R267). -/
def answerAbort (s : State) (m : StepMsg) (en : StepEntry) (epoch : Nat) (next : Option Nat) : State :=
  sendMsg s m.src (.stpAbort { m with mirror := false, resubmit := false, hasNext := next.isSome, next := next.getD 0, epoch := epoch, src := s.device,
                                      entries := [{ en with status := .ok, detail := 0 }] })

/-- STP_PREPARED, first or repeated. -/
def takePrepared (s : State) (m : StepMsg) : State :=
  m.entries.foldl (fun s en =>
    match (partOf s m.stepRef).bind fun p => (p.entries[en.index]?).bind fun e => (p.homeRec[en.index]?).map fun r => (p, e, r) with
    | some (p, e, r) =>
      if r.decided then sendSeal s p en.index e [m.src]
      else if r.ended.isSome || r.resubmitted then answerAbort s m en (partEpoch s p e.handle m.src) none
      else if m.attempt ≠ e.attempt then answerAbort s m en (partEpoch s p e.handle m.src) (some e.attempt)
      else homePrepared s m.stepRef en.index m.src
    | none => answerAbort s m en (peerEpoch s m.src) none) s

/-! ### STP_KILLED, STP_ABORT, STP_DONE -/

/-- STP_KILLED at the home (R271, R272): what the participant has killed counts as ended there. -/
def takeKilled (s : State) (m : StepMsg) : State :=
  match partOf s m.stepRef with
  | none => s
  | some p =>
    if !isHome s p then s
    else match m.entries with
      | [] => s
      | en :: _ =>
        let s := m.entries.foldl (fun s en => match p.homeRec[en.index]?, p.entries[en.index]? with
          | some r, some e => if r.decided then sendSeal s p en.index e [m.src] else s
          | _, _ => s) s
        if attemptScope en.status en.detail then
          if m.attempt = p.attempt then homeKilled s m.stepRef en.index en.status en.detail else s
        else m.entries.foldl (fun s en => homeKilled s m.stepRef en.index en.status en.detail) s

/-- A submitter resubmits the sessions that a promoted home names, under a new step reference (R269). -/
def resubmit (s : State) (m : StepMsg) : State :=
  match s.steps.submitted.find? fun t => t.refs.any (·.1 = m.stepRef) with
  | none => s
  | some t =>
    let ix := match t.refs.find? (·.1 = m.stepRef) with | some r => r.2 | none => []
    let old := (m.entries.filterMap fun en => (ix[en.index]?).map fun i => (i, en.homeEpoch)).filter fun z => !t.results.any (·.1 = z.1)
    if old.isEmpty then s
    else
      let (s, ref) := nextRef s
      let es := old.filterMap fun z => (t.desc.entries[z.1]?).map fun e => { e with homeEpoch := z.2 }
      let d : StepDesc := { t.desc with home := m.src, stepRef := ref, count := es.length, entries := es }
      let t := { t with refs := t.refs ++ [(ref, old.map (·.1))], attempts := Nat.max t.attempts (m.attempt + 1) }
      let s := { s with steps := { s.steps with submitted := modFirst (fun x => x.sub = t.sub) (fun _ => t) s.steps.submitted } }
      let hosts := rangeHosts s (hSerial (es.headD ⟨0, 0, 0⟩).handle) d.first d.last
      let dests := if hosts.any (·.1 = m.src) then hosts else hosts ++ [(m.src, 0)]
      let s := dests.foldl (fun s z => if z.1 = s.device then s else sendMsg s z.1 (.stpDesc { d with epoch := z.2 })) s
      match dests.find? (·.1 = s.device) with
      | some z => takeDesc s { d with epoch := z.2 }
      | none => s

/-- STP_ABORT at a participant: the named sessions' work of the attempt ends; with NEXT they queue again, else they end
(R263, R272). An abort with RESUBMIT ends them here. -/
def abortPart (s : State) (m : StepMsg) : State :=
  match partOf s m.stepRef with
  | none => s
  | some p =>
    if isHome s p then s
    else
      let s := m.entries.foldl (fun s en =>
        match p.entries[en.index]? with
        | none => s
        | some e =>
          let old := (sessOf s e.handle).elim 0 (·.homeEpoch)
          if e.attempt ≠ m.attempt && !serialLt 16 old en.homeEpoch then s
          else
            let s := modSess s e.handle fun x => if x.guest && serialLt 16 x.homeEpoch en.homeEpoch then { x with homeEpoch := en.homeEpoch, homeDev := m.src } else x
            if m.hasNext then requeueEntry s m.stepRef en.index m.next
            else endEntry s m.stepRef en.index .cancelled 0) s
      let s := if m.hasNext then modPart s m.stepRef fun p => { p with attempt := m.next } else s
      dropDone s m.stepRef

/-- STP_ABORT: the submitter's and the participant's side. -/
def takeAbort (s : State) (m : StepMsg) : State :=
  let up (t : Submitted) : Submitted :=
    if m.hasNext && t.refs.any (·.1 = m.stepRef) then { t with attempts := Nat.max t.attempts (m.next + 1) } else t
  let s := { s with steps := { s.steps with submitted := s.steps.submitted.map up } }
  let s := abortPart s m
  if m.resubmit then resubmit s m else s

/-! ### STEP_SUBMIT, STEP_KILL (R275, R276) -/

/-- Send a step descriptor of this controller to the home and the hosts of its range; itself is served directly. -/
def submitDesc (s : State) (d : StepDesc) : State :=
  let hosts := rangeHosts s (hSerial (d.entries.headD ⟨0, 0, 0⟩).handle) d.first d.last
  let dests := if hosts.any (·.1 = d.home) then hosts else hosts ++ [(d.home, 0)]
  let s := dests.foldl (fun s z => if z.1 = s.device then s else sendMsg s z.1 (.stpDesc { d with epoch := z.2 })) s
  match dests.find? (·.1 = s.device) with
  | some z => takeDesc s { d with epoch := z.2 }
  | none => s

/-- STEP_SUBMIT: `d` is what desc_addr holds, `len` desc_len, `rsv` the reserved bits of the entry. A length that does not
fit the count completes with the first row of R255 (DEDUCED). -/
def doSubmit (s : State) (sub : Sub) (d : StepDesc) (len resultAddr rsv : Nat) : State :=
  if rsv ≠ 0 then refuse s sub .versionMismatch 0x2
  else if d.count = 0 || decide (4096 < d.count) || len ≠ 64 + 16 * d.count || d.entries.length ≠ d.count then refuse s sub .versionMismatch 0x7
  else
    let (s, ref) := nextRef s
    let d : StepDesc := { d with src := s.device, stepRef := ref, noRerun := sub.noRerun }
    let t : Submitted := { sub := sub, resultAddr := resultAddr, desc := d, refs := [(ref, List.range d.count)] }
    submitDesc { s with steps := { s.steps with submitted := s.steps.submitted ++ [t] } } d

/-- STEP_KILL: no attempt after this one; it completes when the sessions before their decision point have ended. -/
def doKill (s : State) (sub : Sub) (ref rsv : Nat) : State :=
  if rsv ≠ 0 then refuse s sub .versionMismatch 0x2
  else match partOf s ref with
    | none => refuse s sub .badHandle 0x8
    | some p =>
      if !isHome s p then refuse s sub .badHandle 0x8
      else
        let s := modPart s ref fun p => { p with noMore := true }
        complete (homeAbort s ref .preempted 0 false) sub .ok 0 []

/-- SES_CANCEL (R40, R109, R112). -/
def doCancel (s : State) (sub : Sub) : State :=
  match verbSession s sub with
  | .error e => refuse s sub e.1 e.2
  | .ok x =>
    if x.rejoin then queueVerb s sub.handle (.cancel sub)
    else if x.state = .retiring then refuse s sub .ok 0
    else
      let later := x.waiting
      let s := setSess s { x with cancelPending := true, cancels := x.cancels ++ [sub], waiting := [] }
      let s := later.foldl (fun s v => refuse s v.sub .cancelled 0) s
      tryCancel (if x.place = .spilled then startFetch s sub.handle else s) sub.handle

end Sys2Proof.Machine
end

