-- ==== Sys2Proof/Machine/Lost.lean ====
section
/-! DEFINITION. The answers of the attention service (R165, R166) and the loss of a copy (R154, R342). -/
namespace Sys2Proof.Machine

/-! ### Answers (R165, R194) -/

/-- An answer with no payload. -/
def noResult : AtnResult := { payload := [], inexact := 0, poison := 0, anyPoison := false, ssmPoison := 0, fault := false }

/-- A work of the attention service. -/
def workOf (s : State) (id : Nat) : Option AtnWork := s.atn.work.find? (·.id = id)

/-- Update a work. -/
def modWork (s : State) (id : Nat) (f : AtnWork → AtnWork) : State :=
  { s with atn := { s.atn with work := modFirst (fun w => w.id = id) f s.atn.work } }

/-- Forget a work and what is queued for it. -/
def dropOneWork (s : State) (id : Nat) : State :=
  let s := dropTiles s id
  let s := { s with nbu := { s.nbu with queued := s.nbu.queued.filter fun q => q.issuer ≠ Issuer.frontEnd id } }
  { s with atn := { s.atn with work := s.atn.work.filter fun w => w.id ≠ id } }

/-- ATN_MALFORMED, at most once per second per source device. -/
def noteMalformed (s : State) (src : Nat) : State :=
  if duePerSecond (tget? s.atn.malformedAt src) s.timebase then
    report { s with atn := { s.atn with malformedAt := tset s.atn.malformedAt src s.timebase } } 0x0503 src 0 [src]
  else s

/-- ATN_INEXACT, at most once per second, with the count. -/
def noteInexact (s : State) : State :=
  let n := s.atn.inexactCount + 1
  if !flag s Reg.ATN_CFG.inexact_evt then s
  else if duePerSecond s.atn.inexactAt s.timebase then
    report { s with atn := { s.atn with inexactAt := some s.timebase, inexactCount := 0 } } 0x0501 0 0 [n]
  else { s with atn := { s.atn with inexactCount := n } }

/-- Send ATN_OUT for a work: counters, events (R165, R193, R194). -/
def sendAtnOut (s : State) (w : AtnWork) (bf16 : Bool) (st : Status) (detail : Nat) (r : AtnResult) : State :=
  let ix : Bool := r.inexact ≠ 0
  let m : AtnOut :=
    { q := { w.msg with elems := [] }, bf16 := bf16, poison := r.anyPoison, inexact := ix, status := st, detail := detail,
      inexactMask := r.inexact, poisonMask := r.poison, ssmPoison := r.ssmPoison, residency := s.timebase - w.arrival, payload := r.payload }
  let s := sendMsg s w.msg.src (.atnOut m)
  let s := if st = .ok then bump s Reg.ATN_COUNT.ok else bump s Reg.ATN_COUNT.refused
  let s := if st = .versionMismatch then noteMalformed s w.msg.src else s
  let s := if ix then noteInexact (bump s Reg.ATN_PREC.inexact) else s
  let s := if r.anyPoison then bump s Reg.ATN_PREC.poisoned else s
  if r.poison = 0 then s else report s 0x0502 (hSerial w.msg.handle % 2 ^ 24) 0 [w.msg.handle, w.msg.layer, r.poison]

/-- Where a message's session stands in its part, if the part has started it in the message's attempt. -/
def startedEntry (s : State) (q : AtnQkv) : Option Nat :=
  match partOf s q.stepRef with
  | none => none
  | some p =>
    match entryIndex p q.handle with
    | none => none
    | some i => (p.entries[i]?).bind fun e => if liveEntry e && e.started && e.attempt = q.attempt then some i else none

/-- Answer a work with a status other than OK: the session's part ends with it (R271). -/
def refuseWork (s : State) (w : AtnWork) (st : Status) (detail : Nat) : State :=
  let bf16 := (paramsOf s (hCtx w.msg.handle)).elim false (·.outBf16)
  let at_ := startedEntry s w.msg
  let s := sendAtnOut (dropOneWork s w.id) w bf16 st detail noResult
  match at_ with
  | some i => failEntry s w.msg.stepRef i st detail
  | none => s

/-- Discard a work without an answer (R167). -/
def staleWork (s : State) (w : AtnWork) : State := bump (dropOneWork s w.id) Reg.ATN_COUNT.stale

/-! ### Lost copies (R153, R154, R342) -/

/-- A session's mirror of the role that hosts a layer here: the home's own mirror where this controller is its home. -/
def mirrorFor (s : State) (x : Session) : Option MirLink := mirLink s x.handle (!x.guest)

/-- Ask the mirror for a lost object of a session, whose place in the map is known (R154). -/
def restoreFrom (s : State) (x : Session) (o : Obj) (layer index : Nat) : State :=
  let r : Restore := { handle := x.handle, step := x.step, waits := [(o.kind.num, layer, index)] }
  let s := { s with mir := { s.mir with restores := s.mir.restores ++ [r] } }
  pullObjs s x.handle (!x.guest) x.step [(o.kind.num, layer, index)]

/-- Works of the attention service that use or wait for an object. -/
def worksOn (s : State) (id : Nat) : List AtnWork :=
  s.atn.work.filter fun w => w.waits.contains id ||
    (match startedEntry s w.msg, partOf s w.msg.stepRef with
     | some i, some p => w.hold = .no && (p.entries[i]?).elim false fun e => e.pins.contains id && (objOf s id).elim false (·.layer = w.msg.layer)
     | _, _ => false)

/-- The copy of a full crate that a trunk on this controller holds (R502). -/
def trunkCopy (s : State) (h layer index : Nat) : Option Mem :=
  (s.trunk.trunks.reverse.findSome? fun t => t.crates.find? fun c => c.1 = h && c.2.1 = layer && c.2.2.1 = index).map (·.2.2.2)

/-- Restore a lost crate from a trunk: it is HOME again, in the store room. -/
def restoreFromTrunk (s : State) (id : Nat) (m : Mem) : State :=
  modObj s id fun o => { o with lost := false, lower := some { tier := 1, target := 0, unit := nextUnit s 1 0, bytes := m, step := o.step } }

/-- What the loss of an object means for one session that names it (R154, R504): restored from the mirror or a trunk, or
the session retires. -/
def loseFor (s : State) (id hk : Nat) (o : Obj) : State :=
  match tget? s.sess.table hk with
  | none => s
  | some x =>
    match (mappedAll s hk o.kind).find? fun m => m.2.2 = id with
    | none => s
    | some m =>
      if (mirrorFor s x).elim false (·.counts) then restoreFrom s x o m.1 m.2.1
      else match (if o.kind = .crate then trunkCopy s x.handle m.1 m.2.1 else none) with
        | some c => restoreFromTrunk s id c
        | none => retire s x.handle .tierFault .tierFault 0x1

/-- The node of the inventory that names an object, with its subtree, is withdrawn; INV_NODE_LOST (R342). -/
def loseNodes (s : State) (id : Nat) (o : Obj) : State :=
  let ns := s.inv.nodes.filter fun n => n.2.indexed && (n.2.crates.any (·.2 = id) || n.2.slabs.any (·.2 = id))
  ns.foldl (fun s n => (countWithdrawn (withdrawNode (report s 0x0A03 n.2.ctx 0 [n.2.ctx, n.2.depth, crateId o]) n.1)).1) s

/-- The copies of an object are lost (R154): TIER_LOST, the waiting parts end TIER_FAULT, the sessions are restored or
retire. `tier` is the tier that failed. -/
def loseObj (s : State) (id tier : Nat) : State :=
  match objOf s id with
  | none => s
  | some o =>
    let s := report s 0x0401 (o.creator % 2 ^ 24) 0 [crateId o, tier]
    let ws := worksOn s id
    let owners := ownersOf s id
    let s := if o.attic then wipeAttic s o else s
    let s := setObj s id { o with state := .home, attic := false, lower := none, lost := true, dirty := false }
    let d := if o.kind = .slab then 0x2 else 0x1
    let s := ws.foldl (fun s w => if (workOf s w.id).isSome then refuseWork s w .tierFault d else s) s
    let s := owners.foldl (fun s hk => loseFor s id hk o) s
    loseNodes s id o

/-- The object that holds a page of a bank pair. -/
def objAtPage (s : State) (nbu page : Nat) : Option Nat :=
  (s.tier.objs.find? fun p => p.2.attic && (objOffset s p.2 (nbu * bankPair + page * 4096)).isSome).map (·.1)

/-- An uncorrectable bank error: the copy held on the page is lost (R223, R238). -/
def bankLost (s : State) (nbu page : Nat) : State :=
  match objAtPage s nbu page with
  | some id => loseObj s id 0
  | none => s

end Sys2Proof.Machine
end

