-- ==== Sys2Proof/Machine/AtnRun.lean ====
section
/-! DEFINITION. How an ATN_QKV message runs (R166 to R185, R239 to R250, R629): checks, holds, stages, jobs, delegation,
answers. -/
namespace Sys2Proof.Machine

/-! ### Checks (R166, R170, R629) -/

/-- What the checks of R166 come to. -/
inductive AtnVerdict where
  | answer (st : Status) (detail : Nat)
  | hold (h : AtnHold)
  /-- no room yet: a victim sinks -/
  | evict (victim : Nat)
  | stale
  /-- entry `i` takes the message; every new object is made -/
  | take (i : Nat) (s : State)

/-- The handle names a session or a shadow (R33, R91). -/
def handleCurrent (s : State) (h : Nat) : Bool := (sessOf s h).isSome || (shadowOf s h).isSome

/-- Orders 5 to 8 for a message whose session's part has started. -/
def checkStarted (s : State) (x : Session) (p : Params) (sp : StepPart) (e : PartEntry) (i : Nat) (q : AtnQkv) : AtnVerdict :=
  let c := coverOf s q.stepRef q.handle q.layer
  let off := q.pos - x.length
  let seen := (kvHeadsOf q).map (fun h => tget 0 c.kvSeen h) ++ (ssmHeadsOf q).map (fun g => tget 0 c.ssmSeen g)
  if q.step ≠ x.step || decide (q.layer < sp.first) || decide (sp.last < q.layer) || !(hostedLayers s (hSerial q.handle) p).contains q.layer ||
      q.pos ≠ x.length + tget 0 c.ranges (rangeKey q) then .answer .badHandle 0x6
  else if seen.any fun n => decide (Nat.min off (e.tokens - 1) < n) then .answer .versionMismatch 0x9
  else if e.tokens < off + msgTokens q then .answer .badHandle 0x6
  else if q.block && !hasCap s 0 && !hasCap s 1 then .answer .unitAbsent 0x1
  else
    let need := stageOne s x p q
    match need.find? fun o => (objOf s o).elim false (·.lost) with
    | some o => .answer .tierFault (if (objOf s o).elim false (·.kind = .slab) then 0x2 else 0x1)
    | none =>
      match createAll s x p q with
      | .ok s' => .take i s'
      | .error (some v) => .evict v
      | .error none => .answer .noCapacity 0x1

/-- The checks of R166 in order. `late` says that the hold of R629 or R170 is over. -/
def checkQkv (s : State) (q : AtnQkv) (late : Bool) : AtnVerdict :=
  let ctx := tget? s.contexts (hCtx q.handle)
  if !(match ctx with | some c => messageOk c.params q | none => headerOk q) then .answer .versionMismatch 0x7
  else if !handleCurrent s q.handle then .answer .badHandle 0x1
  else
    let sp := partOf s q.stepRef
    if sp.elim false (·.context ≠ hCtx q.handle) then .answer .protection 0x1
    else if ctx.elim true (·.torn.isSome) then .answer .contextTorn 0x0
    else match sp, ctx with
      | some p, some c =>
        (match entryIndex p q.handle, sessOf s q.handle with
         | some i, some x =>
           (match p.entries[i]? with
            | none => .answer .badHandle 0x6
            | some e =>
              if e.ended.isSome || e.killed || q.attempt ≠ e.attempt then .stale
              else if e.committed then .answer .badHandle 0x6
              else if e.started then checkStarted s x c.params p e i q
              else if q.step = (x.step + 1) % 2 ^ 32 then (if late then .answer .badHandle 0x6 else .hold .seal)
              else .hold .part)
         | _, _ => .answer .badHandle 0x6)
      | _, _ => if late then .answer .badHandle 0x6 else .hold .descriptor

/-! ### Delegation at the RB4808 (R245 to R248) -/

/-- A Q′ element in binary32. -/
def bits32 (u : Elt) : Nat := if u.poison then nan32 else encodeFloat 8 23 (rnd32 (eltVal u))

/-- The crates of a delegated piece list for one KV head: slots at or beyond visible are zeros (R246). -/
def dlgCrates (s : State) (x : Session) (ref layer h : Nat) (cs : List Nat) : List DlgCrate :=
  cs.filterMap fun c => ((mapped s (hKey x.handle) .crate layer c).bind (objOf s)).map fun o =>
    let n := visibleSlots s x ref layer h c
    let per := o.dim / 16 * groupBytes o.bx16
    let sec (kv : Nat) : List Nat := slice (readObj s o (groupOffset o.bx16 o.heads o.dim kv h 0 0) (n * per)) 0 (64 * per)
    { visible := n, index := c, k := sec 0, v := sec 1 }

/-- Greedy grouping from the front: as many whole pieces as fit. -/
def packPieces (ps : List (List Nat)) : List (List Nat) :=
  ps.foldl (fun acc p => match acc.getLast? with
    | some g => if g.length + p.length ≤ 1024 then acc.dropLast ++ [g ++ p] else acc ++ [p]
    | none => [p]) []

/-- Send the DLG_BLOCK messages of one sub-block and head set of a KV head. -/
def sendDlg (s : State) (x : Session) (p : Params) (w : AtnWork) (r : Role) (k : Nat) (sb st : Nat × Nat) : State :=
  let q := w.msg
  let h := q.kvFirst + k
  let chunk := fld s Reg.DEN_CFG.chunk_crates
  let groups := packPieces (piecesOf chunk (subVisited s x p q h sb))
  let part := decide (1 < groups.length)
  let rows := ((List.range sb.2).map fun t => ((List.range st.2).map fun g => (qPrime p q (sb.1 + t) (k * p.group + st.1 + g)).map bits32).flatten).flatten
  let code := if p.headDim = 64 then 0 else if p.headDim = 128 then 1 else 2
  groups.zipIdx.foldl (fun s g =>
    let id := s.den.nextDlg
    let m : DlgBlock :=
      { bf16Out := p.outBf16, partial_ := part, lastPart := part && g.2 + 1 = groups.length, rsv := 0, epoch := r.epoch, src := s.device,
        shape := code + 4 * fmtCode x.bx16, cls := x.cls, positions := sb.2, qCount := st.2, chunk := chunk, part := if part then g.2 else 0,
        pos := q.pos + sb.1, lambda := p.lambda, request := id, handle := q.handle, q := rows, crates := dlgCrates s x q.stepRef q.layer h g.1 }
    let s := { s with den := { s.den with nextDlg := (id + 1) % 2 ^ 32 } }
    let s := modWork s w.id fun w => { w with dlg := w.dlg ++ [(id, r.epoch, h, sb.1 / 64, st.1, g.2)] }
    sendMsg s r.device (.dlgBlock m)) s

/-- Send every DLG_BLOCK of a block message. -/
def sendAllDlg (s : State) (x : Session) (p : Params) (w : AtnWork) : State :=
  match delegateOf s with
  | none => s
  | some r =>
    (List.range (kvHeadsOf w.msg).length).foldl (fun s k => (subBlocks w.msg).foldl (fun s sb =>
      (setsOf p).foldl (fun s st => sendDlg s x p w r k sb st) s) s) s

/-- DLG_FAIL, at most once per second, with the count (R250, R252). -/
def dlgFail (s : State) : State :=
  let n := s.den.failCount + 1
  if duePerSecond s.den.failAt s.timebase then
    report { s with den := { s.den with failAt := some s.timebase, failCount := 0 } } 0x0702 0 0 [n]
  else { s with den := { s.den with failCount := n } }

/-! ### Completion (R165, R168, R197, R224) -/

/-- The layer's residency of a part is over when the part's last answer for it departs (R297, R310). -/
def noteLayer (s : State) (ref layer : Nat) : State :=
  match partOf s ref with
  | none => s
  | some p =>
    match paramsOf s p.context, tget? p.layerIn layer with
    | some q, some t =>
      if p.entries.all fun e => !liveEntry e || !e.started || layerCovered s q ref e layer then
        let ns := s.timebase - t
        modPart (recordHist s p.cls 3 ns) ref fun p => { p with residency := p.residency + ns }
      else s
    | _, _ => s

/-- A job fault of a front end's work: the request ends CONTEXT_TORN and the context is torn down (R224). -/
def workTorn (s : State) (w : AtnWork) (unit code : Nat) : State :=
  let bf16 := (paramsOf s (hCtx w.msg.handle)).elim false (·.outBf16)
  let s := sendAtnOut (dropOneWork s w.id) w bf16 .contextTorn 0 noResult
  teardown s (hCtx w.msg.handle) { trigger := 1, unit := unit, code := code } none

/-- All jobs of a work are over: merge, divide, answer, count the coverage (R165, R168, R184, R239). -/
def finishWork (s : State) (w : AtnWork) : State :=
  let q := w.msg
  match sessOf s q.handle, paramsOf s (hCtx q.handle), startedEntry s q with
  | some x, some p, some i =>
    let (s, r) := resultOf s x p w
    if r.fault then
      let s := bump s Reg.NBU_FAULTS.faults
      let f := Config.faultJob w.id
      let nbu := f.nbu % 2 ^ 16
      let s := if flag s Reg.NBU_CTL.fault_evt then report s 0x0601 nbu 0 [nbu, f.thread % 4, 0x08, f.pc % 2 ^ 16, f.detail % 2 ^ 16, hCtx q.handle] else s
      workTorn s w nbu 0x08
    else
      let v := if q.attn then visitCounts s x p q else (0, 0)
      let s := { s with atn := { s.atn with visited := s.atn.visited + v.1, skipped := s.atn.skipped + v.2 } }
      let c := coverOf s q.stepRef q.handle q.layer
      let n := msgTokens q
      let s := setCover s { c with kvDone := addRange c.kvDone q.kvFirst (kvHeadsOf q).length n, ssmDone := addRange c.ssmDone q.gFirst (ssmHeadsOf q).length n }
      let s := (stageOne s x p q ++ stageTwo s x p q).foldl touchObj s
      let s := sendAtnOut (dropOneWork s w.id) w p.outBf16 .ok 0 r
      maybePrepared (noteLayer s q.stepRef q.layer) q.stepRef i
  | _, _, _ => dropOneWork s w.id

/-- Queue the tile commands of the next phase that has any; without one every phase is over (R239). -/
def nextPhase (s : State) (x : Session) (p : Params) (w : AtnWork) : Nat → State
  | 0 => modWork s w.id fun w => { w with phase := 3 }
  | n + 1 =>
    let ph := 2 - n
    match tilePhase s x p w.msg ph with
    | [] => nextPhase s x p w n
    | l =>
      let c : TileCmd := { work := w.id, half := w.half, cls := x.cls, ctx := hCtx w.msg.handle, handle := w.msg.handle, stepRef := w.msg.stepRef }
      queueTiles (modWork s w.id fun w => { w with phase := ph + 1, tiles := l.length }) (l.map fun b => { c with bytes := b })

/-- A work whose jobs are over goes on: the next phase on the tiles, the delegated part, or the answer. -/
def checkWork (s : State) (id : Nat) : State :=
  match workOf s id with
  | none => s
  | some w =>
    match sessOf s w.msg.handle, paramsOf s (hCtx w.msg.handle) with
    | some x, some p =>
      let s := if w.issued && onTiles s w.msg && w.tiles = 0 && decide (w.phase < 3) then nextPhase s x p w (3 - w.phase) else s
      (match workOf s id with
       | none => s
       | some w =>
         if !w.issued || decide (0 < w.jobs) || decide (0 < w.tiles) || !w.dlg.isEmpty then s
         else if w.msg.block && w.msg.attn && !hasCap s 0 && !w.dlgSent then
           let s := sendAllDlg (modWork s id fun w => { w with dlgSent := true }) x p w
           (match workOf s id with | some w => if w.dlg.isEmpty then finishWork s w else s | none => s)
         else finishWork s w)
    | _, _ => s

/-! ### Stages (R180 to R184, R239) -/

/-- Wait for the objects of a list that are not RESIDENT: each is raised on demand and counted once (R183); lost ones end
the message (orders 9 and 10). -/
def needObjs (s : State) (w : AtnWork) (i cls : Nat) (ids : List Nat) : Option State :=
  let s := pinObjs s w.msg.stepRef i cls ids
  match ids.find? fun o => (objOf s o).elim false (·.lost) with
  | some o => some (refuseWork s w .tierFault (if (objOf s o).elim false (·.kind = .slab) then 0x2 else 0x1))
  | none =>
    match notResident s ids with
    | [] => none
    | l =>
      let new := l.filter fun o => !w.waits.contains o
      let s := new.foldl (fun s o => requestRaise (bump s Reg.ATN_SEL.misses) o (qDemand cls)) s
      some (modWork s w.id fun w => { w with waits := l })

/-- Issue the jobs and tile commands of a message (R184, R239). -/
def issueWork (s : State) (x : Session) (p : Params) (w : AtnWork) : State :=
  let q := w.msg
  let jobs := nbuJobs s x p q
  let strips := if q.attn && isSelective s x (layerEntry p q.layer) then ((q.pos + msgTokens q - 1) / 64) / 64 + 1 else 0
  let s := bump s Reg.ATN_SEL.strips strips
  let s := modWork s w.id fun w => { w with issued := true, waits := [], jobs := jobs.length }
  let s := queueJobs s (jobs.map fun j => { nbu := j.1, entry := j.2.1, ctx := hCtx q.handle, issuer := Issuer.frontEnd w.id, bytes := j.2.2,
                                            c0 := x.cls = 0 })
  checkWork s w.id

/-- Take an accepted message as far as it goes. -/
def advanceWork (s : State) (id : Nat) : State :=
  match workOf s id with
  | none => s
  | some w =>
    let q := w.msg
    if w.hold ≠ .no || w.issued then s
    else match sessOf s q.handle, paramsOf s (hCtx q.handle), startedEntry s q with
      | some x, some p, some i =>
        let cls := x.cls
        let first : State × Bool :=
          if w.appended then (s, true)
          else match needObjs s w i cls (stageOne s x p q) with
            | some s' => (s', false)
            | none =>
              let s := appendMsg s x p q.stepRef i q
              let s := if q.attn && isSelective s x (layerEntry p q.layer) then recordSelection s x p q else s
              (modWork s id fun w => { w with appended := true, waits := [] }, true)
        if !first.2 then first.1
        else
          let s := first.1
          (match workOf s id with
           | none => s
           | some w =>
             match needObjs s w i cls (stageTwo s x p q) with
             | some s' => s'
             | none => issueWork s x p w)
      | _, _, _ => dropOneWork s id

/-! ### Arrival and holds (R170, R629) -/

/-- Decide a message that has just arrived or was held. -/
def decideQkv (s : State) (w : AtnWork) (late : Bool) : State :=
  let q := w.msg
  match checkQkv s q late with
  | .answer st d => refuseWork s w st d
  | .stale => staleWork s w
  | .hold h => modWork s w.id fun w => { w with hold := h }
  | .evict v => modWork (chooseVictim s v) w.id fun w => { w with hold := .room }
  | .take i s' =>
    let s := coverMsg s' q.handle q.stepRef q
    let s := modPart s q.stepRef fun p => { p with layerIn := tset p.layerIn q.layer (Nat.max w.arrival (tget 0 p.layerIn q.layer)) }
    let s := modWork s w.id fun w => { w with hold := .no }
    let s := match sessOf s q.handle, paramsOf s (hCtx q.handle) with
      | some x, some p => pinObjs s q.stepRef i x.cls (stageOne s x p q)
      | _, _ => s
    advanceWork s w.id

/-- ATN_QKV reaches the attention service from the links of a half. -/
def takeQkv (s : State) (half : Nat) (q : AtnQkv) : State :=
  let w : AtnWork := { id := s.atn.nextWork, msg := q, arrival := s.timebase, hold := .descriptor, half := half }
  let s := { s with atn := { s.atn with work := s.atn.work ++ [w], nextWork := s.atn.nextWork + 1 } }
  let s := modPart s q.stepRef fun p => { p with senders := if p.senders.contains q.src then p.senders else p.senders ++ [q.src] }
  decideQkv s w false

/-- The hold of a message is over (R170, R629). -/
def expireQkv (s : State) (id : Nat) : State :=
  match workOf s id with
  | some w => if w.hold = .descriptor || w.hold = .seal then decideQkv s w true else s
  | none => s

/-- Check every held message again, and take every waiting one on. -/
def retryWork (s : State) : State :=
  s.atn.work.foldl (fun s w0 => match workOf s w0.id with
    | some w => if w.hold ≠ .no then decideQkv s w false else if w.issued then s else advanceWork s w.id
    | none => s) s

/-! ### Job and command ends -/

/-- One NBU job of a front end's work is over. -/
def jobDone (s : State) (id : Nat) : State := checkWork (modWork s id fun w => { w with jobs := w.jobs - 1 }) id

/-- One tile command of a front end's work is over. -/
def tileDone (s : State) (id : Nat) : State := checkWork (modWork s id fun w => { w with tiles := w.tiles - 1 }) id

/-! ### DLG_OUT and its timeout (R250) -/

/-- The work that waits for a request, with the request's place. -/
def dlgWork (s : State) (req : Nat) : Option (AtnWork × (Nat × Nat × Nat × Nat × Nat × Nat)) :=
  s.atn.work.findSome? fun w => (w.dlg.find? (·.1 = req)).map fun d => (w, d)

/-- DLG_OUT. -/
def takeDlgOut (s : State) (m : DlgOut) : State :=
  match dlgWork s m.request with
  | none => s
  | some (w, d) =>
    if d.2.1 ≠ m.epoch || (delegateOf s).elim true (·.epoch ≠ m.epoch) || w.msg.handle ≠ m.handle then s
    else if m.status ≠ .ok then dlgFail (refuseWork s w m.status m.detail)
    else checkWork (modWork s w.id fun w => { w with dlg := w.dlg.filter (·.1 ≠ m.request), rows := w.rows ++ [(d.2.2.1, d.2.2.2.1, d.2.2.2.2.1, d.2.2.2.2.2, m.payload)] }) w.id

/-- No DLG_OUT in time. -/
def dlgTimeout (s : State) (req : Nat) : State :=
  match dlgWork s req with
  | some (w, _) => dlgFail (refuseWork s w .linkDown 0x3)
  | none => s

/-- The delegate's role epoch was replaced: outstanding requests end with LINK_DOWN, detail 0x4. -/
def dlgReplaced (s : State) : State :=
  let cur := (delegateOf s).elim 0x10000 (·.epoch)
  let ws := s.atn.work.filter fun w => w.dlg.any fun d => d.2.1 ≠ cur
  ws.foldl (fun s w => if (workOf s w.id).isSome then dlgFail (refuseWork s w .linkDown 0x4) else s) s

/-! ### Settling -/

/-- What the end of one thing lets others go on with: held entries, step boundaries, held messages, raised objects. -/
def settle (s : State) : State := retryWork (boundaries (recheckEntries s))

end Sys2Proof.Machine
end

