-- ==== Sys2Proof/Machine/NbuPrograms.lean ====
section
/-! DEFINITION. The two programs of the built-in micro-program store that the spec lists, word by word from the
encoding of R216 (chapter "Near-bank units", example programs). -/
namespace Sys2Proof.Machine

/-- The listing of entry 0, decode partial (instructions 0 on). -/
def builtinDecode0 : List Nat := [
  0x1900000000000000, 0x1001000000000800, 0x2C01000000002000, 0x1900000000000001, 0x1001000000002800,
  0x2C01000000002000, 0x1902000000000002, 0x1903000000000004, 0x1D00300000000001, 0x02C0000000000059,
  0x0400000000000000, 0x1101200000000003, 0x1601100000000002, 0x1005000000000800, 0x1006000000004800,
  0x1107200000000000, 0x3102000000000000, 0x3100000000000000, 0x1003000000000000, 0x1104500000000000,
  0x1000000000000008, 0x2400300100200000, 0x22024F7200080000, 0x3000020400000000, 0x2404300100200010,
  0x22064F7204080000, 0x3000460400000000, 0x2408300100200020, 0x220A4F7208080000, 0x30008A0400000000,
  0x240C300100200030, 0x220E4F720C080000, 0x3000CE0400000000, 0x1103300000000040, 0x1104400000000010,
  0x0300000000000015, 0x2A00600000000000, 0x3401007100000000, 0x3302210000000000, 0x11066000000000D0]

/-- The listing of entry 0, decode partial (instructions 40 on). -/
def builtinDecode1 : List Nat := [
  0x1105500000000200, 0x11077000FFFFFFFC, 0x0301000000000011, 0x1903000000000003, 0x4004230000000000,
  0x2B04F000000077D0, 0x2903F00000007700, 0x3503F000000077E0, 0x1101200000000003, 0x1601100000000002,
  0x1005000000004800, 0x1006000000005500, 0x1100200000000000, 0x2900500000000000, 0x4100043000000000,
  0x3600000400000000, 0x3203000400000000, 0x2800600400000000, 0x11055000000000D0, 0x1106600000000080,
  0x11000000FFFFFFFC, 0x0301000000000035, 0x2A03F00000007700, 0x1003000000005D00, 0x1004000000000000,
  0x1700400000000003, 0x1500000000000002, 0x1606400000000002, 0x1506600000000004, 0x1106600000002800,
  0x1005000000005500, 0x1107200000000000, 0x1101200000000003, 0x1601100000000002, 0x2900300000000000,
  0x3500F000000077E0, 0x2700500400000000, 0x2202607400080000, 0x3000020400000000, 0x1105500000000080]

/-- The listing of entry 0, decode partial (instructions 80 on). -/
def builtinDecode2 : List Nat := [
  0x1106600000000200, 0x11077000FFFFFFFC, 0x030100000000004C, 0x2A00300000000000, 0x11033000000000D0,
  0x1104400000000001, 0x1D00400000000020, 0x0240000000000041, 0x0100000000000000, 0x3103000000000000,
  0x1000000000005D00, 0x1001000000000021, 0x2A03000000000000, 0x11000000000000D0, 0x030100000000005C,
  0x10000000C0000000, 0x2100F000000077D0, 0x2100F000000077D4, 0x2100F000000077D8, 0x2100F000000077DC,
  0x020000000000000A]

/-- The listing of entry 0, decode partial. -/
def builtinDecode : List Nat := builtinDecode0 ++ builtinDecode1 ++ builtinDecode2

/-- The listing of entry 1, append with rotation (instructions 0 on). -/
def builtinAppend0 : List Nat := [
  0x1000000000000000, 0x1001000000000C00, 0x1002000000000008, 0x1106000000000000, 0x1004000000000000,
  0x1107100000000000, 0x1005000000000004, 0x2300600000000000, 0x2301600000000080, 0x2402400000000A00,
  0x2404400000000B00, 0x3100000000000000, 0x3000200600000000, 0x3000410E00000000, 0x3101000000000000,
  0x3001210600000000, 0x3001400600000000, 0x4206000000000000, 0x2506700000000000, 0x4208100000000000,
  0x2508700000000100, 0x1106600000000020, 0x1104400000000040, 0x1107700000000040, 0x0305000000000007,
  0x1100000000000100, 0x1101100000000200, 0x0302000000000003, 0x1006000000000800, 0x1004000000000000,
  0x1007000000001C00, 0x1005000000000004, 0x2300600000000000, 0x2301600000000080, 0x2402400000000A00,
  0x2404400000000B00, 0x3100000000000000, 0x3000200600000000, 0x3000410E00000000, 0x3101000000000000]

/-- The listing of entry 1, append with rotation (instructions 40 on). -/
def builtinAppend1 : List Nat := [
  0x3001210600000000, 0x3001400600000000, 0x4306000000000000, 0x2606700000000000, 0x4307100000000000,
  0x2607700000000040, 0x1106600000000020, 0x1104400000000040, 0x1107700000000010, 0x0305000000000020,
  0x1006000000000900, 0x1007000000001C80, 0x1005000000000008, 0x2300600000000000, 0x3100000000000000,
  0x3200000000000000, 0x4306000000000000, 0x2606700000000000, 0x1106600000000020, 0x1107700000000010,
  0x0305000000000035, 0x1900000000000000, 0x1001000000001C00, 0x2D00100000000080, 0x1900000000000001,
  0x1001000000001C80, 0x2D00100000000080, 0x0100000000000000]

/-- The listing of entry 1, append with rotation. -/
def builtinAppend : List Nat := builtinAppend0 ++ builtinAppend1

end Sys2Proof.Machine
end

