-- ==== Sys2Proof/Machine/Nbu.lean ====
section
/-! DEFINITION. Near-bank units (chapter "Near-bank units"): command areas, host jobs, job ends. -/
namespace Sys2Proof.Machine

/-- The stack of an NBU is populated and enabled. -/
def nbuPresent (s : State) (nbu : Nat) : Bool := (liveStacks s).contains (nbu / 1024)

/-- The store a job starts under: code, first instruction, whether built in; none where the entry point holds 0xFFFF. The
spec lists the built-in programs of entries 0 and 1; the words of the others are free values. -/
def storeFor (s : State) (nbu entry : Nat) : Option (List Nat × Nat × Bool) :=
  match storeOf s nbu with
  | some st => let e := st.entries.getD entry 0xFFFF
    if e = 0xFFFF then none else some (st.code, e, false)
  | none =>
    if entry = 0 then some (builtinDecode, 0, true)
    else if entry = 1 then some (builtinAppend, 0, true)
    else if entry ≤ 5 then some ((List.range 1024).map Config.builtinWord, Config.builtinWord (1024 + entry) % 1024, true)
    else none

/-- Record how a job of a thread ended and count it (R209, R223, R225). -/
def endThread (s : State) (nbu t code pc detail cycles : Nat) (ix poison : Bool) : State :=
  let x := threadOf s nbu t
  let y : NbuThread := { x with busy := false, code := code, pc := pc, detail := detail % 2 ^ 16, cycles := Nat.min (cycles / 64) 0xFFFF, inexact := ix, poison := poison, store := [] }
  let s := setThread s nbu t y
  let s := bump s Reg.NBU_JOBS.jobs
  let exc : Bool := decide (0 < code) && decide (code < 0x80)
  let s := if exc && code ≠ 0x0B then bump s Reg.NBU_FAULTS.faults else s
  let s := if code = 0x0B then bump s Reg.NBU_FAULTS.aborted else s
  if code = 0x06 then report (bump s Reg.NBU_FAULTS.ecc_uncorr) 0x0602 nbu 0 [nbu, detail]
  else if exc && code ≠ 0x0B && flag s Reg.NBU_CTL.fault_evt then report s 0x0601 nbu 0 [nbu, t, code, pc, detail, x.ctx]
  else s

/-- Start a host job on an idle thread (R207, R214). -/
def hostStart (s : State) (nbu t : Nat) (x : NbuThread) : State :=
  let x := { x with inexact := false, poison := false, code := 0, pc := 0, detail := 0, cycles := 0, issuer := Issuer.host }
  let s := setThread s nbu t { x with busy := true }
  if x.nearLen = 0 || decide (2048 < x.nearBase + x.nearLen) then endThread s nbu t 0x04 0 0 0 false false
  else match storeFor s nbu x.entry with
    | none => endThread s nbu t 0x03 0 0 0 false false
    | some (code, pc, b) => setThread s nbu t { x with busy := true, startPc := pc, store := code, builtin := b }

/-- A write to word `i` of a command area (R206, R207, R210): `v` the new value, `whole` a 64-bit write. -/
def writeArea (s : State) (nbu t i v : Nat) (whole : Bool) : State :=
  let x := threadOf s nbu t
  if !flag s Reg.NBU_CTL.host_jobs || !nbuPresent s nbu then s
  else if x.busy then (if i = 0 then setThread s nbu t { x with collide := true } else if i = 15 && bitOf v 4 then setThread s nbu t { x with collide := false } else s)
  else if i = 0 then
    let y : NbuThread := { x with entry := bitsOf v 0 3, tag := bitsOf v 8 8, ctx := bitsOf v 16 10, nearBase := bitsOf v 32 16, nearLen := bitsOf v 48 16 }
    if whole then hostStart s nbu t y else setThread s nbu t y
  else if i < 14 then
    setThread s nbu t { x with args := modAt (fun _ => bitsOf v 32 32) (2 * (i - 1) + 1) (modAt (fun _ => bitsOf v 0 32) (2 * (i - 1)) x.args) }
  else if i = 14 then setThread s nbu t { x with bankBase := bitsOf v 0 12, bankLen := bitsOf v 16 12, cycleLimit := bitsOf v 32 32 }
  else if bitOf v 4 then setThread s nbu t { x with collide := false } else s

/-- A word of a command area as it reads. -/
def readArea (s : State) (nbu t i : Nat) : Nat :=
  let x := threadOf s nbu t
  if i = 0 then x.entry + x.tag * 2 ^ 8 + x.ctx * 2 ^ 16 + x.nearBase * 2 ^ 32 + x.nearLen * 2 ^ 48
  else if i < 14 then x.args.getD (2 * (i - 1)) 0 + x.args.getD (2 * (i - 1) + 1) 0 * 2 ^ 32
  else if i = 14 then x.bankBase + x.bankLen * 2 ^ 16 + x.cycleLimit * 2 ^ 32
  else b2n x.busy + 4 * b2n x.inexact + 8 * b2n x.poison + 16 * b2n x.collide + x.code * 2 ^ 8 + x.pc * 2 ^ 16 + x.detail * 2 ^ 32 + x.cycles * 2 ^ 48

/-- The job of a thread before its first instruction (R208). -/
def jobStart (s : State) (nbu : Nat) (x : NbuThread) : NbuJob :=
  { pc := x.startPc, args := x.args, near := memRange s.nbu.near (nbu * 2 ^ 17) (2 ^ 17), nearBase := 64 * x.nearBase, nearLen := 64 * x.nearLen,
    bank := memRange s.nbu.attic (nbu * bankPair) bankPair, bankBase := 4096 * x.bankBase, bankLen := 4096 * x.bankLen }

/-- What a job left in its memories and arguments. -/
def keepJob (s : State) (nbu t : Nat) (j : NbuJob) : State :=
  let s := { s with nbu := { s.nbu with near := putRange s.nbu.near (nbu * 2 ^ 17) (2 ^ 17) j.near, attic := putRange s.nbu.attic (nbu * bankPair) bankPair j.bank } }
  setThread s nbu t { threadOf s nbu t with args := j.args }

/-- Why a host job ends before its program does. -/
inductive HostEnd where
  | program
  | ecc (page : Nat)
  | abort
  | limit
  deriving DecidableEq, Repr

/-- End a host job that has executed `ran` instructions: by its program, where that has stopped by then, else for the reason
given; a job whose program still runs goes on. -/
def endHost (s : State) (nbu t ran cycles : Nat) (why : HostEnd) : State :=
  let x := threadOf s nbu t
  match nbuRun x.store ran (jobStart s nbu x) with
  | .stop j code pc detail => endThread (keepJob s nbu t j) nbu t code pc detail cycles j.inexact j.poison
  | .go j =>
    match why with
    | .program => s
    | .ecc page => endThread (keepJob s nbu t j) nbu t 0x06 j.pc page cycles j.inexact j.poison
    | .abort => endThread (keepJob s nbu t j) nbu t 0x0B j.pc 0 cycles j.inexact j.poison
    | .limit => endThread (keepJob s nbu t j) nbu t 0x0A j.pc 0 cycles j.inexact j.poison

/-- A front end's job ends (R209, R223, R224). -/
def endFrontEnd (s : State) (nbu t w cycles : Nat) (why : HostEnd) : State :=
  match why with
  | .program => jobDone (nbuStartAll 4 (endThread s nbu t 0 0 0 cycles false false) nbu) w
  | .ecc page => nbuStartAll 4 (bankLost (endThread s nbu t 0x06 0 page cycles false false) nbu page) nbu
  | .abort =>
    let s := endThread s nbu t 0x0B 0 0 cycles false false
    nbuStartAll 4 (dropOneWork s w) nbu
  | .limit =>
    let s := endThread s nbu t 0x0A 0 0 cycles false false
    nbuStartAll 4 (match workOf s w with | some y => workTorn s y nbu 0x0A | none => s) nbu

end Sys2Proof.Machine
end

