-- ==== Sys2Proof/Machine/TileOps.lean ====
section
/-! DEFINITION. Tile commands that host software runs on one tile (R229 to R238, R251). -/
namespace Sys2Proof.Machine

/-- Bytes of the staging SRAM (R68). -/
def sramBytes : Nat := 256 * 2 ^ 20

/-- A tile command's fields (R229). -/
structure TileFields where
  op : Nat
  last : Bool
  bf16Out : Bool
  int8 : Bool
  fp16In : Bool
  mode : Nat
  dim : Nat
  bx16 : Bool
  rows : Nat
  qCount : Nat
  kvHead : Nat
  count : Nat
  pos : Nat
  lambda : Nat
  aux : Nat
  inAddr : Nat
  listAddr : Nat
  outAddr : Nat
  deriving DecidableEq, Repr

/-- The fields of 64 bytes. -/
def tileFields (b : List Nat) : TileFields :=
  let fl := leAt b 1 1
  let sh := leAt b 7 1
  { op := leAt b 0 1, last := bitOf fl 0, bf16Out := bitOf fl 1, int8 := bitOf fl 2, fp16In := bitOf fl 3, mode := leAt b 6 1
    dim := 64 * 2 ^ bitsOf sh 0 2, bx16 := bitsOf sh 2 2 = 2, rows := leAt b 8 2, qCount := leAt b 10 1, kvHead := leAt b 11 1
    count := leAt b 12 2, pos := leAt b 16 4, lambda := leAt b 20 4, aux := leAt b 28 4
    inAddr := leAt b 32 8, listAddr := leAt b 40 8, outAddr := leAt b 48 8 }

/-- Reserved fields of R229 that are not 0, or a code that is not defined. -/
def tileReserved (b : List Nat) : Bool :=
  let op := leAt b 0 1
  let sh := leAt b 7 1
  bitsOf (leAt b 1 1) 4 4 ≠ 0 || bitsOf (leAt b 2 2) 10 6 ≠ 0 || bitsOf sh 4 4 ≠ 0 || leAt b 14 2 ≠ 0 || op = 0 || decide (5 < op) ||
    (op ≠ 4 && leAt b 6 1 ≠ 0) || decide (2 < leAt b 6 1) || (op ≠ 2 && op ≠ 4 && leAt b 28 4 ≠ 0) || (op = 4 && decide (2 ^ 18 ≤ leAt b 28 4)) ||
    (op ≠ 2 && bitsOf sh 0 2 = 3) || ((op = 1 || op = 4 || op = 5) && bitsOf sh 2 2 ≠ 1 && bitsOf sh 2 2 ≠ 2) ||
    (op ≠ 1 && op ≠ 4 && leAt b 10 1 ≠ 0) || (op = 2 && leAt b 56 8 ≠ 0) || leAt b 32 8 % 8 ≠ 0 || leAt b 40 8 % 8 ≠ 0 || leAt b 48 8 % 8 ≠ 0

/-- The limits of R231. -/
def tileLimits (f : TileFields) : Bool :=
  match f.op with
  | 1 => decide (1 ≤ f.rows) && decide (f.rows ≤ 64) && decide (1 ≤ f.count) && decide (f.count ≤ 1024) && decide (1 ≤ f.qCount) &&
      decide (f.rows * f.qCount * f.dim ≤ 65536)
  | 3 => decide (1 ≤ f.rows) && decide (f.rows ≤ 1024) && decide (1 ≤ f.count) && decide (f.count ≤ 64)
  | 4 => decide (1 ≤ f.rows) && decide (f.rows ≤ 64) && decide (1 ≤ f.qCount) &&
      (if f.mode = 0 then f.count = 0 else decide (1 ≤ f.count) && decide (f.count ≤ 2) && decide (f.qCount ≤ 32))
  | 5 => f.rows = 0 && decide (1 ≤ f.count) && decide (f.count ≤ 1024)
  | _ => decide (1 ≤ f.rows) && decide (f.rows ≤ 4096) && decide (1 ≤ f.count) && decide (f.count ≤ 4096) && decide (16 ≤ f.aux) &&
      decide (f.aux ≤ 65536) && f.aux % 16 = 0

/-- A crate list entry (R230). -/
structure ListEntry where
  nbu : Nat
  page : Nat
  visible : Nat
  strip : Bool
  index : Nat
  heads : Nat
  deriving DecidableEq, Repr

/-- The entries of a command's list. -/
def listEntries (s : State) (f : TileFields) (n : Nat) : List ListEntry :=
  (List.range n).map fun i =>
    let w := readLE s.sram (f.listAddr + 8 * i) 8
    { nbu := bitsOf w 0 13, page := bitsOf w 13 11, visible := bitsOf w 24 7, strip := bitOf w 31, index := bitsOf w 32 16, heads := bitsOf w 48 6 }

/-- Where an entry's copy begins in the attic: the crate pool lies first in a bank pair. -/
def entryBase (e : ListEntry) : Nat := e.nbu * bankPair + e.page * 4096

/-- An entry names an NBU and page inside the crate pool. -/
def entryOk (s : State) (e : ListEntry) : Bool := (liveStacks s).contains (e.nbu / 1024) && decide (e.page < cratePagesPer s)

/-- A vector of a listed crate. -/
def entryVec (s : State) (f : TileFields) (e : ListEntry) (kv h t : Nat) : List Elt :=
  ((List.range (f.dim / 16)).map fun j =>
    let g := unpackGroup f.bx16 (readBytes s.nbu.attic (entryBase e + groupOffset f.bx16 e.heads f.dim kv h t j) (groupBytes f.bx16))
    (List.range 16).map (groupElt g)).flatten

/-- Q′ rows at in_addr in binary32. -/
def inRows (s : State) (f : TileFields) (n : Nat) : List (List Elt) :=
  (List.range n).map fun i => (List.range f.dim).map fun e => elt32 (readLE s.sram (f.inAddr + (i * f.dim + e) * 4) 4)

/-- Write into staging SRAM. -/
def putSram (s : State) (a : Nat) (b : List Nat) : State := { s with sram := writeBytes s.sram a b }

/-- Write into the attic at an entry. -/
def putEntry (s : State) (e : ListEntry) (o : Nat) (b : List Nat) : State :=
  { s with nbu := { s.nbu with attic := writeBytes s.nbu.attic (entryBase e + o) b } }

/-- ATTN_BLOCK (R232). -/
def tileAttn (s : State) (f : TileFields) (l : List ListEntry) : State :=
  let rows := (inRows s f (f.rows * f.qCount)).zipIdx.map fun q => ({ pos := f.pos + q.2 / f.qCount, q := q.1 } : QRow)
  let crates := l.map fun e =>
    ({ index := e.index, slots := (List.range e.visible).map fun t => ⟨entryVec s f e 0 f.kvHead t, entryVec s f e 1 f.kvHead t⟩ } : TileCrate)
  let lastPos := f.pos + f.rows - 1
  let bad := crates.any fun c => (c.slots.take (seen c lastPos)).any fun t => (t.k ++ t.v).any (·.poison)
  let rs := (attnBlock f.dim (val32 f.lambda) rows crates).map fun r => { r with poison := r.poison || bad }
  if f.last then
    let sz := if f.bf16Out then 2 else 4
    let outs := (rs.map fun r => ((divideOut f.bf16Out (rowPartial f.dim r)).map (leBytes sz)).flatten).flatten
    putSram s f.outAddr (outs ++ rs.map fun r => b2n r.ix + 2 * b2n r.poison)
  else putSram s f.outAddr ((rs.map rowRecord).flatten)

/-- The score record of a centroid row (R233). The record holds the value as one accumulation over the row's elements
leaves it (DEDUCED). -/
def scoreRecord (qs : List (List Elt)) (cent : List Elt) (none_ : Bool) : List Nat :=
  if none_ || cent.any (·.poison) then List.replicate 14 0 ++ [1, 0]
  else
    let accs := qs.map fun q => logitTile [q] [⟨cent, []⟩] q.length
    let best := accs.foldl (fun (m : Option Acc) a => match m with | none => some a | some b => if dLt (accVal b 0) (accVal a 0) then some a else m) none
    match best with
    | none => List.replicate 14 0 ++ [1, 0]
    | some a => leBytes 12 (ofSigned 96 (accVal a 0).m) ++ leBytes 2 (ofSigned 16 (accVal a 0).e) ++ [2 * b2n (accs.any (·.ix)), 0]

/-- ROWMAX (R233). -/
def tileRowmax (s : State) (f : TileFields) (l : List ListEntry) : State :=
  let qs := inRows s f f.rows
  let recs := l.map fun e => (List.range 64).map fun c =>
    let cent := ((List.range (f.dim / 16)).map fun j =>
      let g := unpackGroup false (readBytes s.nbu.attic (entryBase e + (c * e.heads + f.kvHead) * f.dim + 16 * j) 16)
      (List.range 16).map (groupElt g)).flatten
    scoreRecord qs cent (decide (e.visible ≤ c))
  putSram s f.outAddr recs.flatten.flatten

/-- QUANT_APPEND (R234). -/
def tileQuant (s : State) (f : TileFields) (l : List ListEntry) : State :=
  let rot := if bitOf f.aux 17 then 0 else 2 * bitsOf f.aux 0 16
  let adj := bitOf f.aux 16
  let base := f.inAddr + f.rows * f.qCount * f.dim * 2
  let cs (t : Nat) : List (Dyadic × Dyadic) := (List.range (rot / 2)).map fun i =>
    (val32 (readLE s.sram (base + (t * bitsOf f.aux 0 16 + i) * 8) 4), val32 (readLE s.sram (base + (t * bitsOf f.aux 0 16 + i) * 8 + 4) 4))
  let vec (t h : Nat) : List Elt := (List.range f.dim).map fun e => elt16 f.fp16In (readLE s.sram (f.inAddr + ((t * f.qCount + h) * f.dim + e) * 2) 2)
  let cells := ((List.range f.rows).map fun t => (List.range f.qCount).map fun h => (t, h)).flatten
  if f.mode = 0 then
    putSram s f.outAddr ((cells.map fun c => ((rotVec rot adj (cs c.1) (vec c.1 c.2)).map fun o => leBytes 4 (bits32 (roundQ o))).flatten).flatten)
  else
    let kv := f.mode - 1
    cells.foldl (fun s c =>
      let p := f.pos + c.1
      match l.find? fun e => e.index = p / 64 with
      | some e =>
        let gs := quantVec f.bx16 (rotVec (if kv = 0 then rot else 0) adj (if kv = 0 then cs c.1 else []) (vec c.1 c.2))
        putEntry s e (groupOffset f.bx16 e.heads f.dim kv (f.kvHead + c.2) (p % 64) 0) ((gs.map (packGroup f.bx16)).flatten)
      | none => s) s

/-- CENTROID (R235): the list ends with a strip page's entry where one is needed. -/
def tileCentroid (s : State) (f : TileFields) (l : List ListEntry) (strip : Option ListEntry) : State :=
  l.foldl (fun s e => (List.range e.heads).foldl (fun s h =>
    let b := ((centroidOf f.dim ((List.range e.visible).map fun t => entryVec s f e 0 h t)).map (packGroup false)).flatten
    let s := putEntry s e (centroidOffset f.bx16 e.heads f.dim h 0) b
    match strip with
    | some p => putEntry s p ((e.index % 64 * e.heads + h) * f.dim) b
    | none => s) s) s

/-- An operand of MATMUL: `wide` binary32, else 8-bit integers or 16-bit values. -/
def matElem (s : State) (f : TileFields) (wide : Bool) (a i : Nat) : Elt :=
  if f.int8 then ⟨toSigned 8 (readLE s.sram (a + i) 1), 0, false⟩
  else if wide then elt32 (readLE s.sram (a + 4 * i) 4) else elt16 f.fp16In (readLE s.sram (a + 2 * i) 2)

/-- MATMUL (R236). The command has no field for A's format between binary32 and 16 bits: which it is, is a free value. -/
def tileMatmul (s : State) (f : TileFields) : State :=
  let k := f.aux
  let wide := Config.matmulWide f.rows
  let sums := ((List.range f.rows).map fun i => (List.range f.count).map fun j => (List.range k).foldl (fun (a : Acc) t =>
    (accProd a 0 (matElem s f wide f.inAddr (i * k + t)) (matElem s f false f.listAddr (j * k + t)) false).getD a) {})
  let out := (sums.map fun r => (r.map fun a => leBytes 4 (bits32 (round32Elt (accDelta a 0)))).flatten).flatten
  putSram s f.outAddr (out ++ sums.map fun r => b2n (r.any (·.ix)))

/-- Bytes of a command's input, list and output areas. -/
def tileAreas (f : TileFields) : List (Nat × Nat) :=
  let out := match f.op with
    | 1 => if f.last then f.rows * f.qCount * (f.dim * (if f.bf16Out then 2 else 4) + 1) else f.rows * f.qCount * recordBytes f.dim
    | 3 => f.count * 64 * 16
    | 4 => if f.mode = 0 then f.rows * f.qCount * f.dim * 4 else 0
    | 5 => 0
    | _ => f.rows * f.count * 4 + f.rows
  let inp := match f.op with
    | 1 => f.rows * f.qCount * f.dim * 4
    | 3 => f.rows * f.dim * 4
    | 4 => f.rows * f.qCount * f.dim * 2 + f.rows * bitsOf f.aux 0 16 * 8
    | 5 => 0
    | _ => f.rows * f.aux * (if f.int8 then 1 else 2)
  let list := if f.op = 2 then f.count * f.aux * (if f.int8 then 1 else 2) else 8 * f.count
  [(f.inAddr, inp), (f.listAddr, list), (f.outAddr, out)]

/-- Run a host tile command: its code (R238) and what it leaves. -/
def runTile (s : State) (b : List Nat) : State × Nat :=
  let f := tileFields b
  if tileReserved b || !tileLimits f then (s, 0x01)
  else if (tileAreas f).any fun a => a.2 ≠ 0 && decide (sramBytes < a.1 + a.2) then (s, 0x02)
  else if f.op = 2 then (tileMatmul s f, 0)
  else
    let l := listEntries s f f.count
    let strip := if f.op = 5 then (listEntries s f (f.count + 1)).getLast?.bind fun e => if e.strip then some e else none else none
    let rising : Bool := l.zipIdx.all fun e => match l[e.2 + 1]? with | some n => decide (e.1.index < n.index) | none => true
    if l.any (fun e => !entryOk s e) then (s, 0x02)
    else if l.any (fun e => e.heads = 0 || decide (32 < e.heads) || decide (64 < e.visible) || (f.op ≠ 4 && f.op ≠ 5 && decide (e.heads ≤ f.kvHead)) ||
        (f.op = 5 && e.visible = 0) || e.strip ≠ (f.op = 3)) || !rising then (s, 0x01)
    else match f.op with
      | 1 => (tileAttn s f l, 0)
      | 3 => (tileRowmax s f l, 0)
      | 4 => (tileQuant s f l, 0)
      | _ => (tileCentroid s f l strip, 0)

end Sys2Proof.Machine
end

