-- ==== Sys2Proof/Machine/Dense.lean ====
section
/-! DEFINITION. The dense engine (R226 to R252): dispatch, command ends, delegated blocks, the host test path. -/
namespace Sys2Proof.Machine

/-! ### Serving a DLG_BLOCK (R245 to R249) -/

/-- Bytes of a DLG_BLOCK payload. -/
def dlgBytes (m : DlgBlock) : Nat := 4 * m.q.length + sumOf (m.crates.map fun c => 8 + c.k.length + c.v.length)

/-- The head dimension and format of a shape byte. -/
def shapeDim (sh : Nat) : Nat := 64 * 2 ^ bitsOf sh 0 2
/-- BX16 in a shape byte. -/
def shapeBx16 (sh : Nat) : Bool := bitsOf sh 2 2 = 2

/-- The message keeps R231 and R246. -/
def dlgOk (m : DlgBlock) : Bool :=
  let d := shapeDim m.shape
  let sec := sectionBytes (shapeBx16 m.shape) d
  let rising : Bool := m.crates.zipIdx.all fun c => match m.crates[c.2 + 1]? with | some n => decide (c.1.index < n.index) | none => true
  m.rsv = 0 && bitsOf m.shape 0 2 ≠ 3 && (bitsOf m.shape 2 2 = 1 || bitsOf m.shape 2 2 = 2) && decide (m.shape < 16) && decide (m.cls < 4) &&
    decide (1 ≤ m.positions) && decide (m.positions ≤ 64) && decide (1 ≤ m.qCount) && decide (m.positions * m.qCount * d ≤ 65536) &&
    decide (1 ≤ m.crates.length) && decide (m.crates.length ≤ 1024) && decide (16 ≤ m.chunk) && decide (m.chunk ≤ 1024) &&
    m.q.length = m.positions * m.qCount * d && (m.partial_ || (m.part = 0 && !m.lastPart)) && rising &&
    m.crates.all fun c => decide (c.visible ≤ 64) && c.k.length = sec && c.v.length = sec

/-- The slots of a delegated crate. -/
def dlgSlots (m : DlgBlock) (c : DlgCrate) : List Slot :=
  let d := shapeDim m.shape
  let bx := shapeBx16 m.shape
  let per := d / 16 * groupBytes bx
  let vec (b : List Nat) (t : Nat) : List Elt := ((List.range (d / 16)).map fun j =>
    let g := unpackGroup bx (slice b (t * per + j * groupBytes bx) (groupBytes bx))
    (List.range 16).map (groupElt g)).flatten
  (List.range c.visible).map fun t => ⟨vec c.k t, vec c.v t⟩

/-- The payload of the DLG_OUT that answers a served message (R247, R248). -/
def dlgPayload (m : DlgBlock) : List Nat :=
  let d := shapeDim m.shape
  let n := m.positions * m.qCount
  let rows := (List.range n).map fun i => ({ pos := m.pos + i / m.qCount, q := ((m.q.drop (i * d)).take d).map elt32 } : QRow)
  let pieces := piecesOf m.chunk m.crates
  let outs := pieces.map fun pc =>
    let cs := pc.map fun c => (⟨c.index, dlgSlots m c⟩ : TileCrate)
    let bad := cs.any fun c => (c.slots.take (seen c (m.pos + m.positions - 1))).any fun t => (t.k ++ t.v).any (·.poison)
    (attnBlock d (val32 m.lambda) rows cs).map fun r => { r with poison := r.poison || bad }
  if m.partial_ then (outs.map fun l => (l.map rowRecord).flatten).flatten
  else
    let zero : Partial := ⟨refNone, dZero, List.replicate d dZero, false, false⟩
    let ps := (List.range n).map fun i => mergeAll zero (outs.map fun l => (l[i]?).elim zero (rowPartial d))
    let sz := if m.bf16Out then 2 else 4
    (ps.map fun z => ((divideOut m.bf16Out z).map (leBytes sz)).flatten).flatten ++ ps.map fun z => b2n z.ix + 2 * b2n z.poison

/-- Answer a DLG_BLOCK. -/
def answerDlg (s : State) (m : DlgBlock) (st : Status) (detail : Nat) (payload : List Nat) : State :=
  bump (sendAs s m.src (.dlgOut { status := st, detail := detail, epoch := m.epoch, request := m.request, handle := m.handle, payload := payload })
    (some m.cls) (some (fld s Reg.DEN_DLG.partition)))
    Reg.DEN_DLG.served

/-- DLG_BLOCK at a delegate (R249), from the links of a half. -/
def takeDlgBlock (s : State) (half : Nat) (m : DlgBlock) : State :=
  let kib := ceilDiv (dlgBytes m) 4096 * 4
  if !hasCap s 0 || !flag s Reg.DEN_DLG.accept then answerDlg s m .unitAbsent 0 []
  else if stepSharedFree s < kib then answerDlg s m .noCapacity 0 []
  else if !dlgOk m then answerDlg s m .versionMismatch 0x7 []
  else
    let n := (piecesOf m.chunk m.crates).length
    let id := s.den.nextServe
    let v : DlgServe := { id := id, msg := m, left := n, kib := kib }
    let s := { s with den := { s.den with serving := s.den.serving ++ [v], nextServe := id + 1 } }
    let c : TileCmd := { work := id, half := half, cls := Nat.max m.cls (fld s Reg.DEN_DLG.class_max), ctx := hCtx m.handle, handle := m.handle, serve := true }
    queueTiles s (List.replicate n c)

/-- One command of a served message is over. -/
def serveDone (s : State) (id : Nat) : State :=
  match s.den.serving.find? (·.id = id) with
  | none => s
  | some v =>
    if 1 < v.left then
      { s with den := { s.den with serving := modFirst (fun z => z.id = id) (fun z => { z with left := z.left - 1 }) s.den.serving } }
    else
      let s := { s with den := { s.den with serving := s.den.serving.filter fun z => z.id ≠ id } }
      answerDlg s v.msg .ok 0 (dlgPayload v.msg)

/-! ### Dispatch (R241) -/

/-- A tile is withheld for host software (R251). -/
def tileWithheld (s : State) (t : Nat) : Bool := flag s Reg.DEN_CFG.host_cmds && fld s Reg.DEN_TEST_CTL.tile = t

/-- A tile can take a command: usable, free, not withheld, its island not in reset. -/
def tileFree (s : State) (t : Nat) : Bool := (usableTiles s).contains t && (tget? s.den.running t).isNone && !tileWithheld s t && !s.clk.inReset.contains (6 + tileHalf t)

/-- The first command of a queue whose partition's attic regulator is open (R227). -/
def openCmd (s : State) (q : List TileCmd) : Option TileCmd := q.find? fun c => c.serve || bucketOpen s (ctxPart s c.ctx) resAttic

/-- A C0 part whose tile phases a half can serve has some unfinished: the half takes no other class (R303). -/
def c0Unfinished (s : State) (half : Nat) : Bool :=
  s.atn.work.any fun w => w.issued && onTiles s w.msg && (decide (w.phase < 3) || decide (0 < w.tiles)) &&
    (w.half = half || flag s Reg.DEN_CFG.cross) && (sessOf s w.msg.handle).elim false (·.cls = 0)

/-- The command a tile of a half takes: the highest class first, then the other half where DEN_CFG.cross allows. -/
def nextCmd (s : State) (half : Nat) : Option (Nat × TileCmd) :=
  let classes := if c0Unfinished s half then [0] else [0, 1, 2, 3]
  let look (h : Nat) : Option (Nat × TileCmd) := classes.findSome? fun c => (openCmd s (tget [] s.den.queues (4 * h + c))).map fun x => (4 * h + c, x)
  match look half with
  | some x => some x
  | none => if flag s Reg.DEN_CFG.cross then look (1 - half) else none

/-- TILE_DISPATCH: a free tile takes a command. -/
def dispatchTile (s : State) (t : Nat) : State :=
  if !tileFree s t then s
  else match nextCmd s (tileHalf t) with
    | none => s
    | some (k, c) =>
      let rest := dropFirst (fun x => x = c) (tget [] s.den.queues k)
      let s := { s with den := { s.den with queues := if rest.isEmpty then tdel s.den.queues k else tset s.den.queues k rest, running := tset s.den.running t c } }
      if c.serve then s else charge s (ctxPart s c.ctx) resAttic c.bytes

/-! ### Command ends (R237, R238, R242) -/

/-- Count a finished command and its MAC. -/
def countCmd (s : State) (macs : Nat) : State :=
  let s := bump s Reg.DEN_COUNT.commands
  let g := s.den.gmacRest + macs
  bump { s with den := { s.den with gmacRest := g % 2 ^ 30 } } Reg.DEN_COUNT.gmac (g / 2 ^ 30)

/-- DEN_FAULT where fault_evt is 1. -/
def denFault (s : State) (t code : Nat) (c : TileCmd) : State :=
  if flag s Reg.DEN_CFG.fault_evt then report s 0x0701 t 0 [t, code, c.ctx, c.handle] else s

/-- No tile remains usable (R238): DENSE clears, CAP_CHANGED and DEN_FAULT, PREFILLING and RESUMING sessions end. -/
def tilesGone (s : State) (t : Nat) (c : TileCmd) : State :=
  let s := noteCap s
  let s := report s 0x0701 t 0 [t, 0x04, c.ctx, c.handle]
  if hasCap s 1 then s
  else (tvals s.sess.table).foldl (fun s x =>
    if !x.guest && (x.state = .prefilling || x.state = .resuming) then
      let refs := (s.steps.parts.map fun p => ((p.entries.zipIdx.filter fun e => e.1.handle = x.handle && liveEntry e.1).map fun e => (p.stepRef, e.2))).flatten
      if refs.isEmpty then sessionStepEnds s x.handle .unitAbsent 0x1 else refs.foldl (fun s r => failEntry s r.1 r.2 .unitAbsent 0x1) s
    else s) s

/-- A command on a tile ends with a code; `nbu` and `page` name the place of a bank error. -/
def endTile (s : State) (t code nbu page macs : Nat) : State :=
  match tget? s.den.running t with
  | none => s
  | some c =>
    let s := { s with den := { s.den with running := tdel s.den.running t } }
    match code with
    | 0x00 => let s := countCmd s macs
              if c.serve then serveDone s c.work else tileDone s c.work
    | 0x03 => let s := denFault s t code c
              if c.serve then s else bankLost s nbu page
    | 0x04 =>
      let s := denFault s t code c
      let s := setFld s Reg.DEN_TILES.failed (putBit (fld s Reg.DEN_TILES.failed) t true)
      let k := 4 * c.half + c.cls
      let s := { s with den := { s.den with queues := tset s.den.queues k (c :: tget [] s.den.queues k) } }
      if (usableTiles s).isEmpty then tilesGone s t c else s
    | 0x06 => s
    | _ =>
      let s := denFault s t code c
      if c.serve then
        match s.den.serving.find? (·.id = c.work) with
        | some v => answerDlg { s with den := { s.den with serving := s.den.serving.filter fun z => z.id ≠ c.work } } v.msg .contextTorn 0 []
        | none => s
      else match workOf s c.work with
        | some w => workTorn s w t code
        | none => teardown s c.ctx { trigger := 1, unit := t, code := code } none

/-! ### The host test path (R251) -/

/-- Set the outcome of the host command. -/
def endHostCmd (s : State) (code cycles : Nat) : State :=
  let s := { s with den := { s.den with hostCmd := none } }
  let s := setFld s Reg.DEN_TEST_CTL.busy 0
  setFld (setFld s Reg.DEN_TEST_CTL.code code) Reg.DEN_TEST_CTL.cycles (Nat.min cycles (2 ^ 32 - 1))

/-- The 64 bytes of DEN_TEST_CMD. -/
def testBytes (s : State) : List Nat := ((List.range 8).map fun w => leBytes 8 (fldAt s Reg.DEN_TEST_CMD.word [w])).flatten

/-- DEN_TEST_CTL.go: the command runs on the tile named. -/
def startHostCmd (s : State) : State :=
  let t := fld s Reg.DEN_TEST_CTL.tile
  if flag s Reg.DEN_TEST_CTL.busy || !flag s Reg.DEN_CFG.host_cmds then s
  else if !(usableTiles s).contains t then endHostCmd s 0x02 0
  else
    let s := setFld s Reg.DEN_TEST_CTL.busy 1
    { s with den := { s.den with hostCmd := some (t, testBytes s) } }

/-- The host command ends on its tile: with the code of its run, or with the fault met. -/
def finishHostCmd (s : State) (code cycles macs : Nat) : State :=
  match s.den.hostCmd with
  | none => s
  | some (t, b) =>
    if code = 0 then
      let r := runTile s b
      endHostCmd (if r.2 = 0 then countCmd r.1 macs else r.1) r.2 cycles
    else
      let s := if code = 0x04 then setFld s Reg.DEN_TILES.failed (putBit (fld s Reg.DEN_TILES.failed) t true) else s
      let s := endHostCmd s code cycles
      if code = 0x04 then
        let c : TileCmd := { work := 0, half := tileHalf t, cls := 0, ctx := 0, handle := 0 }
        if (usableTiles s).isEmpty then tilesGone s t c else s
      else s

end Sys2Proof.Machine
end

