-- ==== Sys2Proof/Machine/Mirrors.lean ====
section
/-! DEFINITION. Mirrors and promotion (R101 to R107, R268, R482 to R495): the shadow's side, acknowledgements, replacing a
mirror, loss reports, claims, promotion, handover. -/
namespace Sys2Proof.Machine

/-! ### Replacing a mirror (R494) -/

/-- The committed objects of the layers hosted here, as (kind, layer, index, object). -/
def committedObjs (s : State) (x : Session) : List (Nat × Nat × Nat × Obj) :=
  let hk := hKey x.handle
  ([ObjKind.crate, ObjKind.slab, ObjKind.strip].map fun k => (mappedAll s hk k).filterMap fun m =>
    match objOf s m.2.2 with
    | some o => if 0 < o.valid then some (k.num, m.1, m.2.1, o) else none
    | none => none).flatten

/-- Send MIRROR_SYNC for every committed object; the last carries LAST. -/
def syncAll (s : State) (x : Session) (home : Bool) : State :=
  let l := committedObjs s x
  l.zipIdx.foldl (fun s o =>
    let last := o.2 + 1 = l.length
    sendMirror s x.handle home (.sync last) (fun q => { q with last := last, first := o.1.2.1, lastLayer := o.1.2.1 }) o.1.2.2.1 o.1.1
      (.sync o.1.2.2.2.valid (copyBytes s o.1.2.2.2))) s

/-- Open a replacement mirror and sync it. A session with nothing committed here opens it synced (DEDUCED). -/
def replaceMirror (s : State) (h : Nat) (home : Bool) : State :=
  match sessOf s h with
  | none => s
  | some x =>
    let sync := !(committedObjs s x).isEmpty
    let s := if home then openHomeMirror s h (lostDevices s) sync false else openLayerMirror s h (lostDevices s) sync
    if sync then syncAll s x home else s

/-- What waited for the mirror goes on without it: the row and the chunk of a fixed token, prepared entries, seals. -/
def releaseMirror (s : State) (h : Nat) (home : Bool) : State :=
  let refs := (s.steps.parts.map fun p => ((p.entries.zipIdx.filter fun e => e.1.handle = h && liveEntry e.1).map fun e => (p.stepRef, e.2, e.1.prepWait))).flatten
  let s := if !home then s
    else
      let s := match sessOf s h with
        | some x => if x.fixed && !x.noteAcked then sendDecodeRow s x x.pendingToken (x.step + 1) (x.length + stepTokens x) else s
        | none => s
      postFixed s h
  let s := refs.foldl (fun s r => if r.2.2 then sendPrepared s r.1 r.2.1 else s) s
  if !home then s
  else refs.foldl (fun s r => trySeal (modHome s r.1 r.2.1 fun z => if z.decided then z else { z with mirrorSent := false }) r.1 r.2.1) s

/-- Drop a mirror and choose a new one. -/
def dropMirror (s : State) (h : Nat) (home : Bool) (cause : Nat) : State :=
  match mirLink s h home with
  | none => s
  | some _ =>
    let s := dropLink (report s 0x1606 (hSerial h) 0 [h, cause]) h home
    let s := if home then modSess s h fun x => { x with mirrorDev := 0x7FF } else s
    replaceMirror (releaseMirror s h home) h home

/-! ### Promotion (R106, R268, R491, R505) -/

/-- The home role of a shadow. -/
def homeRole (d : MirShadow) : Option ShadowRole := d.roles.find? (·.home)

/-- A shadow's home is lost: in the promotion table, or waiting one by one. -/
def homeLost (s : State) (d : MirShadow) : Bool :=
  match homeRole d with
  | some r => (lostDevices s).contains r.sender || s.mir.oneByOne.contains r.sender
  | none => false

/-- Devices that a promoted home tells of a session's step: its hosts, and the devices the bind block names. -/
def stepAudience (s : State) (h : Nat) (lost : Nat) : List Nat :=
  match paramsOf s (hCtx h) with
  | none => []
  | some p =>
    let l := (rangeHosts s (hSerial h) 0 (lastLayer p)).map (·.1) ++ (match bindingOf s (hCtx h) with | some b => b.dests | none => [])
    l.foldl (fun acc d => if d = s.device || d = lost || acc.contains d then acc else acc ++ [d]) []

/-- The home's record, on this controller, of a step that a lost home sealed: it collects the acknowledgements. -/
def sealFromRecord (s : State) (h : Nat) (rec : SealRec) : State :=
  match sessOf s h, paramsOf s (hCtx h) with
  | some x, some p =>
    let en : StepEntry := { index := rec.idx, status := .ok, detail := 0, homeEpoch := x.homeEpoch, step := rec.step, token := rec.token }
    let here := (partOf s rec.stepRef).isSome
    let r := if here then sealOne s rec.stepRef rec.attempt s.device en else (s, en)
    let s := r.1
    let e : PartEntry := { handle := h, step := rec.step, homeEpoch := x.homeEpoch, admitted := true, prepared := true, committed := true, attempt := rec.attempt }
    let pad : PartEntry := { handle := 0, step := 0, homeEpoch := 0, ended := some (.ok, 0) }
    let parts := stepParticipants s (hSerial h) 0 (lastLayer p) s.device
    let done : HomeEntry := { resubmitted := true }
    let mine : HomeEntry := { decided := true, acked := [s.device] }
    let q : StepPart :=
      { stepRef := rec.stepRef, submitter := rec.stepRef / 2 ^ 21, home := s.device, cls := x.cls, first := 0, last := lastLayer p, context := hCtx h,
        tokens := 1, block := false, noRerun := false, attempt := rec.attempt, participants := parts
        entries := List.replicate rec.idx pad ++ [e], homeRec := List.replicate rec.idx done ++ [mine] }
    let s := { s with steps := { s.steps with parts := s.steps.parts.filter fun z => z.stepRef ≠ rec.stepRef || z.entries.any liveEntry } }
    let s := if (partOf s rec.stepRef).isSome then s else addPart s q
    sendSeal s q rec.idx e (parts.filter (· ≠ s.device))
  | _, _ => s

/-- The step in flight that a shadow knows of, past the last step it holds sealed: reference, entry index and attempt, as the
prepare copy or the token note of the step names them (R268). -/
def knownFlight (d : MirShadow) (r : ShadowRole) : Option (Nat × Nat × Nat) :=
  match r.copies.find? fun c => c.step = d.desc.step, d.notes.find? fun n => n.step = d.desc.step with
  | some c, _ => some (c.ref, c.idx, c.attempt)
  | none, some n => if n.ref = 0 then none else some (n.ref, n.idx, 0)
  | none, none => none

/-- Without a seal record: STP_ABORT with RESUBMIT for the step in flight, where its reference is known (R268), each
participant addressed under its layer-group-host epoch (R270). -/
def abortFlight (s : State) (h lost : Nat) (d : MirShadow) (r : ShadowRole) : State :=
  match knownFlight d r, sessOf s h with
  | some (ref, i, att), some x =>
    let en : StepEntry := { index := i, status := .ok, detail := 0, homeEpoch := x.homeEpoch, step := 0, token := 0 }
    let m : StepMsg := { mirror := false, resubmit := true, hasNext := false, epoch := 0, src := s.device, stepRef := ref, attempt := att, next := 0, entries := [en] }
    let sub := ref / 2 ^ 21
    let hosts := match paramsOf s (hCtx h) with | some p => rangeHosts s (hSerial h) 0 (lastLayer p) | none => []
    let dests := stepAudience s h lost
    let dests := if dests.contains sub || sub = s.device || sub = lost then dests else dests ++ [sub]
    let s := dests.foldl (fun s d => sendMsg s d (.stpAbort { m with epoch := (hosts.find? (·.1 = d)).elim 0 (·.2) })) s
    takeAbort s m
  | _, _ => s

/-- The END of a shadow that is not SYNCED (R505). -/
def endShadow (s : State) (d : MirShadow) : State :=
  let h := d.desc.handle
  let x : Session := { d.desc with state := .retiring, promoted := true, outRing := fld s Reg.SES_SHADOW_RING.ring, heldChunks := [], guest := false }
  let s := (d.roles).foldl (fun s r => dropRoleObjs s h r.sender) (delShadow s h)
  let old := tget? s.sess.table (hKey h)
  let s := postChunk (setSess s x) h (mkChunk .end_ h x.step 0 false false [] [Status.tierFault.code])
  let s := { s with sess := { s.sess with table := tdel s.sess.table (hKey h) } }
  match old with
  | some g => { s with sess := { s.sess with table := tset s.sess.table (hKey h) g } }
  | none => s

/-- The state after the commit of the record, or the recorded one (R106 step 1). -/
def promotedState (d : MirShadow) (sealed : Option SealRec) : SesState :=
  match sealed with
  | some r =>
    if r.step + 1 = d.desc.step && (d.desc.shadowOf = .prefilling || d.desc.shadowOf = .resuming || d.desc.shadowOf = .active) then
      (if endsSession d.desc r.token then .retiring else if d.desc.parkToken = some r.token then .parked else .active)
    else d.desc.shadowOf
  | none => d.desc.shadowOf

/-- The last seal record of a shadow's home role. -/
def lastSeal (d : MirShadow) : Option SealRec := (d.seals.filter (!·.note)).getLast?

/-- Regenerate the chunk of the last committed step, with REPLAY (R106 step 4). -/
def replayLast (s : State) (h : Nat) (d : MirShadow) : State :=
  match d.notes.find? (fun n => n.step + 1 = d.desc.step), vocabOf s (hCtx h) with
  | some n, some v => postChunks s h (textChunks h n.index true (detok n.hold (tokenString v n.token)).1)
  | _, _ => s

/-- Fix the token of a note for the step in flight (R107): its chunk goes out again with REPLAY (R106, the worked example of
R116), its row for the next step with it (R370). -/
def fixFromNote (s : State) (h : Nat) (d : MirShadow) : State :=
  match d.notes.find? (fun n => n.step = d.desc.step), vocabOf s (hCtx h), sessOf s h with
  | some n, some v, some x =>
    let (text, hold) := detok n.hold (tokenString v n.token)
    let f : Fixing := { step := x.step, token := n.token, nextAuto := nextAuto (constrOf s (hCtx h)) x.sampler.autoId x.sampler.autoState n.token,
                        holdAfter := hold, text := text, parts := partCount text }
    let s := setSess s { x with fixed := true, posted := !x.cancelPending, pendingToken := n.token, fixing := some f, holdBytes := n.hold }
    let s := sendDecodeRow s x n.token (x.step + 1) (x.length + stepTokens x)
    if x.cancelPending then s else postChunks s h (textChunks h f.step true text)
  | _, _, _ => s

/-- The rows that the step run again after a promotion consumes go out again (R370). -/
def promotedRows (s : State) (h : Nat) (d : MirShadow) : State :=
  match sessOf s h with
  | some x =>
    let last := match d.notes.find? (fun n => n.step + 1 = d.desc.step) with | some n => n.token | none => x.lastToken
    resendRows s { x with lastToken := last }
  | none => s

/-- Promote a shadow (R106); `epochUp` and `lost` as the case is: a lost home, or a handover without re-run (R495). -/
def promoteShadow (s : State) (h : Nat) (rerun : Bool) : State :=
  match (shadowOf s h).bind fun d => (homeRole d).map fun r => (d, r) with
  | none => s
  | some (d0, r0) =>
    if !r0.synced then endShadow s d0
    else
      -- R491: copies under R487 first
      let s := match lastSeal d0 with
        | some z => commitCopies s h r0.sender true fun c => c.step = z.step && c.attempt = z.attempt
        | none => s
      let s := applyRole s h r0.sender true
      match (shadowOf s h).bind fun d => (homeRole d).map fun r => (d, r) with
      | none => s
      | some (d, r) =>
        let lost := r.sender
        let st := promotedState d (lastSeal d)
        let toks := if st = .resuming then d.resume else if st = .prefilling || st = .admitting then d.desc.inTokens else []
        let x : Session :=
          { d.desc with state := st, homeDev := s.device, homeEpoch := wrapAdd 16 d.desc.homeEpoch 1, mirrorDev := 0x7FF, promoted := true
                        outRing := fld s Reg.SES_SHADOW_RING.ring, guest := false, fixed := false, posted := false, inTokens := toks, shadowOf := .free }
        let s := adoptRoleObjs (delShadow s h) h lost
        let s := setSess s x
        let rest := d.roles.filter fun z => !z.home
        let s := if rest.isEmpty then s else setShadow s { d with roles := rest }
        let s := rehold (assignTrack s h true) h
        let s := postChunk s h (mkChunk .promoted h x.step 0 false false [] [s.device, x.homeEpoch])
        let s := replayLast s h d
        let later := (d.notes.any fun n => n.step = x.step) || (r.copies.any fun c => c.step = x.step)
        let s := match lastSeal d with
          | some z => if rerun && z.step + 1 = x.step && !later then sealFromRecord s h z else s
          | none => s
        let live := st = .prefilling || st = .active || st = .resuming
        let s := if rerun && live then abortFlight s h lost d r else s
        let s := if rerun && live && (later || (lastSeal d).elim true fun z => z.step + 1 ≠ x.step) then promotedRows s h d else s
        let s := if live then fixFromNote s h d else s
        let s := if rerun && (st = .prefilling || st = .resuming) then startOwnStep s h else s
        let s := if st = .admitting then startLookup (setSess s { x with state := .admitting }) h else s
        let s := if st = .retiring then modSess s h fun x => { x with state := .active } else s
        let s := if st = .retiring then retire s h .ok .cancelled 0 else s
        replaceMirror s h true

/-- A command or message that names a shadow of a lost home promotes it first (R491). -/
def promoteIfLost (s : State) (h : Nat) : State :=
  match shadowOf s h with
  | some d =>
    if homeLost s d then
      let one := (homeRole d).elim false fun r => s.mir.oneByOne.contains r.sender
      let s := if one then report s 0x0303 ((homeRole d).elim 0 (·.sender)) 0 [(homeRole d).elim 0 (·.sender), 1] else s
      promoteShadow s h true
    else s
  | none => s

/-- The shadow whose turn it is (R491): on-shelf C0 first, then on-shelf in class order, then spilled ones. -/
def nextPromotion (s : State) : Option Nat :=
  let l := (tvals s.mir.shadows).filter fun d => (homeRole d).elim false fun r => (lostDevices s).contains r.sender
  let rank (d : MirShadow) : Nat := if onShelf d.desc then d.desc.cls else 4
  (minBy rank l).map (·.desc.handle)

/-! ### Losses and claims (R489 to R492) -/

/-- Number of session shadows whose home is a device. -/
def shadowsOf (s : State) (dev : Nat) : Nat := ((tvals s.mir.shadows).filter fun d => (homeRole d).elim false (·.sender = dev)).length

/-- An entry of the promotion table for a device: unused, or the oldest whose promotions are over (R490). -/
def lostSlot (s : State) : Option Nat :=
  match firstFree s.mir.lost 16 with
  | some i => some i
  | none => (minBy (fun e => e.2.timeUs) (s.mir.lost.filter fun e => shadowsOf s e.2.device = 0)).map (·.1)

/-- The record a participant keeps of a session whose layers it now serves. -/
def guestOf (s : State) (d : MirShadow) : State :=
  let h := d.desc.handle
  if (sessOf s h).isSome then s
  else setSess s { d.desc with state := .active, guest := true, shadowOf := .free, inTokens := [] }

/-- Serve the layers of a role under a claim: copies applied, objects moved, ROLE_CLAIM sent (R492). -/
def claimRole (s : State) (lost : Nat) (r : Role) : State :=
  let first := bitsOf r.key 0 8
  let last := bitsOf r.key 8 8
  let mine := ((tvals s.mir.shadows).map fun d => (d.roles.filter fun z => !z.home && z.sender = lost && z.first = first && z.lastLayer = last).map fun z => (d.desc.handle, z)).flatten
  let pairs := mine.foldl (fun acc z => if acc.contains (z.2.m, z.2.i) then acc else acc ++ [(z.2.m, z.2.i)]) ([] : List (Nat × Nat))
  let e := wrapAdd 16 r.epoch 1
  let s := pairs.foldl (fun s mi =>
    let s := { s with mir := { s.mir with claims := s.mir.claims ++ [{ claimer := s.device, lost := lost, epoch := e, first := first, lastLayer := last, m := mi.1, i := mi.2 }] } }
    let s := report s 0x1605 lost 0 [lost, first, last, mi.1, mi.2]
    let dests := tkeys (s.lay.active.routes.filter fun t => t.2.valid)
    sendEach s (dests.filter (· ≠ s.device)) (.roleClaim lost e first last mi.1 mi.2)) s
  mine.foldl (fun s z =>
    match shadowOf s z.1 with
    | some d => adoptRoleObjs (guestOf (applyRole s z.1 lost false) d) z.1 lost
    | none => s) s

/-- Drop every mirror that a device held for this controller (R494). -/
def dropMirrorsOn (s : State) (dev : Nat) : State :=
  (s.mir.links.filter (·.dev = dev)).foldl (fun s l => dropMirror s l.handle l.home 0) s

/-- A device is lost: the table, PEER_LOST, claims, its mirrors (R490, R492, R494). -/
def enterLost (s : State) (dev a b : Nat) : State :=
  match lostSlot s with
  | none =>
    let s := report s 0x1602 dev 0 [dev]
    { s with mir := { s.mir with oneByOne := s.mir.oneByOne ++ [dev] } }
  | some i =>
    let n := shadowsOf s dev
    let s := report s 0x1601 dev 0 [dev, a, b]
    let s := { s with mir := { s.mir with lost := tset s.mir.lost i { device := dev, timeUs := s.timebase / 1000 } } }
    let s := if n = 0 then s else report s 0x0303 dev 0 [dev, n]
    let s := ((rolesOf s 1).filter (·.device = dev)).foldl (fun s r => claimRole s dev r) s
    dropMirrorsOn s dev

/-- LOST_REPORT (R489, R490). -/
def lostReport (s : State) (lost observer link : Nat) : State :=
  if lost = s.device then report s 0x1603 observer 0 [observer]
  else if (lostDevices s).contains lost || s.mir.oneByOne.contains lost then s
  else
    let named := (rolesOf s 1 ++ rolesOf s 2).any (·.device = lost)
    let held := (tvals s.mir.shadows).any fun d => d.roles.any (·.sender = lost)
    if !named && !held then s
    else
      let w := fld s Reg.CKP_MIR_CFG.witness_us * 1000
      let old := s.mir.reports.filter fun r => decide (s.timebase ≤ r.at_ + w)
      match old.find? fun r => r.lost = lost && r.observer ≠ observer && r.link / 8 ≠ link / 8 with
      | some r =>
        let s := { s with mir := { s.mir with reports := old.filter (·.lost ≠ lost) } }
        enterLost s lost r.observer observer
      | none => { s with mir := { s.mir with reports := old ++ [{ lost := lost, observer := observer, link := link, at_ := s.timebase }] } }

/-- ROLE_CLAIM from another controller (R492, R493). -/
def takeClaim (s : State) (src lost epoch first last m i : Nat) : State :=
  let c : Claim := { claimer := src, lost := lost, epoch := epoch, first := first, lastLayer := last, m := m, i := i }
  let s := { s with mir := { s.mir with claims := s.mir.claims ++ [c] } }
  let s := report s 0x1605 lost 0 [lost, first, last, m, i]
  if lost ≠ s.device then s
  else
    let mine := (tvals s.sess.table).filter fun x => decide (0 < m) && hSerial x.handle % m = i && x.state ≠ .free
    mine.foldl (fun s x => if x.guest then (match paramsOf s (hCtx x.handle) with
        | some p => if (hostedLayers s (hSerial x.handle) p).isEmpty then dropGuest s x.handle else s
        | none => s)
      else demote s x.handle none) s

/-! ### The shadow's side (R482 to R487, R494, R495) -/

/-- MIRROR_ACK of a message. -/
def mirAck (s : State) (q : MirrorHdr) (st : Status) : State :=
  sendMsg s q.src (.mirror { q with sync := false, last := false, src := s.device, aux := 0, step := 0, seq := 0, attempt := 0, status := st, ref := q.seq } .ack)

/-- A shelf, or a place in the spill table, for one more descriptor (R96, R99). -/
def shelfForShadow (s : State) : Bool :=
  decide ((countedSess s).length < sessionLimit s) && (decide (shelvesUsed s < shelves s) || (spillVictim s).isSome)

/-- MIRROR_OPEN (R101, R102, R482). -/
def takeOpen (s : State) (q : MirrorHdr) (d : SessDesc) (toks : List Nat) : State :=
  let h := q.handle
  let home := !q.layers
  match tget? s.contexts (hCtx h) with
  | none => mirAck s q .protection
  | some c =>
    if c.torn.isSome then mirAck s q .protection
    else
      let role : ShadowRole := { home := home, sender := q.src, first := q.first, lastLayer := q.lastLayer, epoch := q.epoch, m := bitsOf q.aux 0 8, i := bitsOf q.aux 8 8,
                                 synced := !q.sync }
      let base : Session := { sessOfDesc d with shadowOf := d.state, state := .shadow, inTokens := toks, tTouch := s.timebase, guest := false }
      match shadowOf s h with
      | some old =>
        let s := if (roleOf old q.src home).isSome then dropRoleObjs s h q.src else s
        let roles := old.roles.filter (fun r => !sameRole q.src home r) ++ [role]
        mirAck (setShadow s { old with desc := if home then { base with place := old.desc.place } else old.desc, roles := roles }) q .ok
      | none =>
        if !shelfForShadow s then mirAck s q .noCapacity
        else
          let notes : List TokenNote := if d.fixed then [{ step := d.step, token := d.pendingToken, index := d.step, hold := d.holdBytes, ref := 0, idx := 0 }] else []
          checkSpill (mirAck (setShadow s { desc := base, roles := [role], notes := notes }) q .ok)

/-- MIRROR_STATE (R104, R332, R487). -/
def takeState (s : State) (h : Nat) (aux : Nat) (toks : List Nat) : State :=
  let st := ([SesState.free, .admitting, .prefilling, .active, .parked, .resuming, .dormant, .retiring, .shadow]).getD (aux % 256) .free
  match shadowOf s h with
  | none => s
  | some d =>
    let s := setShadow s { d with desc := { d.desc with shadowOf := st, tTouch := s.timebase }, resume := if st = .resuming then toks else d.resume }
    let s := if st = .prefilling then linkShadow s d toks else s
    if st = .parked || st = .dormant then d.roles.foldl (fun s r => applyRole s h r.sender r.home) s else s

/-- MIRROR_NOTE (R107): the notes of the step in flight and of the last committed one are kept. -/
def takeNote (s : State) (h : Nat) (q : MirrorHdr) (token index : Nat) (hold : List Nat) : State :=
  match shadowOf s h with
  | none => s
  | some d =>
    let n : TokenNote := { step := q.step, token := token, index := index, hold := hold, ref := q.ref, idx := q.aux }
    let keep := d.notes.filter fun m => m.step ≠ q.step && decide (q.step ≤ m.step + 1)
    setShadow s { d with notes := keep ++ [n], desc := { d.desc with fixed := true, pendingToken := token } }

/-- MIRROR_PREP (R487): the status of its acknowledgement. A copy of the next step implies the seal of the one before, whether or
not it finds room. -/
def takePrep (s : State) (h : Nat) (q : MirrorHdr) (c : PrepCopy) : State × Status :=
  let home := !q.layers
  let s := commitCopies s h q.src home fun y => serialLt 32 y.step q.step
  if storeUnits s < storeUsed s + pagesOf (prepBytes c) then (s, .noCapacity)
  else
    match shadowOf s h with
    | none => (s, .badHandle)
    | some d =>
      let held : HeldCopy := { step := q.step, attempt := q.attempt, ref := q.ref, idx := q.aux, copy := c }
      (setShadow s (modRole d q.src home fun r => { r with copies := (r.copies.filter fun y => y.committed || y.step ≠ q.step || decide (q.attempt < y.attempt)) ++ [held] }), .ok)

/-- MIRROR_RETIRE (R110). -/
def takeRetire (s : State) (h src : Nat) (home : Bool) : State :=
  match shadowOf s h with
  | none => s
  | some d =>
    let s := dropRoleObjs s h src
    let roles := d.roles.filter fun r => !sameRole src home r
    if roles.isEmpty then delShadow s h else setShadow s { d with roles := roles }

/-- The object kind of an aux field. -/
def kindOfAux (aux : Nat) : ObjKind := if bitsOf aux 0 2 = 1 then .slab else if bitsOf aux 0 2 = 2 then .strip else .crate

/-- MIRROR_SYNC toward a shadow (R494). -/
def takeSync (s : State) (h : Nat) (q : MirrorHdr) (valid : Nat) (bytes : List Nat) : State :=
  match shadowOf s h, paramsOf s (hCtx h) with
  | some d, some p =>
    let home := !q.layers
    let k := kindOfAux q.aux
    let s := receiveObj s d.desc p (roleKey h q.src) k q.first q.step valid d.desc.step bytes
    setShadow s (modRole d q.src home fun r =>
      { r with synced := r.synced || q.last, syncedValid := if k = .crate then r.syncedValid ++ [(q.first, q.step, valid)] else r.syncedValid })
  | _, _ => s

/-- MIRROR_PULL (R487): commit and apply through a step, and send the copy back. -/
def takePull (s : State) (h : Nat) (q : MirrorHdr) (count : Nat) : State :=
  let home := !q.layers
  let s := applyRole (commitCopies s h q.src home fun y => serialLt 32 y.step count) h q.src home
  match (mapped s (roleKey h q.src) (kindOfAux q.aux) q.first q.step).bind (objOf s) with
  | some o => sendMsg s q.src (.mirror { q with src := s.device, seq := 0 } (.sync o.valid (copyBytes s o)))
  | none => s

/-- Process one message of a sender in its turn: the status of its acknowledgement. -/
def processMirror (s : State) (q : MirrorHdr) (b : MirrorBody) : State × Status :=
  let h := q.handle
  match b with
  | .state toks => (takeState s h q.aux toks, .ok)
  | .note token index hold => (takeNote s h q token index hold, .ok)
  | .prep c => takePrep s h q c
  | .retire => (takeRetire s h q.src (!q.layers), .ok)
  | .sync v bytes => (takeSync s h q v bytes, .ok)
  | .pull n => (takePull s h q n, .ok)
  | .handover =>
    (match (shadowOf s h).bind homeRole with
     | some r => if r.synced then (promoteShadow s h false, .ok) else (s, .busyMaint)
     | none => (s, .badHandle))
  | _ => (s, .ok)

/-- Process a message and those held behind it, in seq order; `fuel` bounds them. -/
def runMirror : Nat → State → MirrorHdr → MirrorBody → State
  | 0, s, _, _ => s
  | n + 1, s, q, b =>
    let home := !q.layers
    let (s, st) := processMirror s q b
    let s := mirAck s q st
    match shadowOf s q.handle with
    | none => s
    | some d =>
      let d := modRole d q.src home fun r => { r with nextSeq := q.seq + 1 }
      let s := setShadow s d
      match (roleOf d q.src home).bind fun r => r.early.find? fun e => e.1.seq = q.seq + 1 with
      | none => s
      | some e =>
        let s := setShadow s (modRole d q.src home fun r => { r with early := r.early.filter fun z => z.1.seq ≠ q.seq + 1 })
        runMirror n s e.1 e.2

/-- A message toward a shadow (R482, R485): epoch, order, effect, acknowledgement. -/
def toShadow (s : State) (q : MirrorHdr) (b : MirrorBody) : State :=
  let s := promoteIfLost s q.handle
  let home := !q.layers
  match (shadowOf s q.handle).bind fun d => roleOf d q.src home with
  | none => mirAck s q (if (sessOf s q.handle).isSome then .staleRole else .badHandle)
  | some r =>
    if q.epoch ≠ r.epoch then mirAck s q .staleRole
    else if q.seq = r.nextSeq then runMirror (r.early.length + 1) s q b
    else if serialLt 32 q.seq r.nextSeq then mirAck s q .ok
    else match shadowOf s q.handle with
      | some d => setShadow s (modRole d q.src home fun r => { r with early := r.early ++ [(q, b)] })
      | none => s

/-! ### Seal records and notes (R264, R487) -/

/-- The copies that a seal message names, with their shadows and roles. -/
def sealedCopies (s : State) (src ref i attempt : Nat) : List (Nat × ShadowRole × HeldCopy) :=
  ((tvals s.mir.shadows).map fun d => (d.roles.map fun r =>
    (r.copies.filter fun c => r.sender = src && c.ref = ref && c.idx = i && c.attempt = attempt).map fun c => (d.desc.handle, r, c)).flatten).flatten

/-- A seal record is already held for an entry. -/
def recordHeld (s : State) (ref i attempt : Nat) : Bool :=
  s.mir.shadows.any fun d => d.2.seals.any fun r => r.stepRef = ref && r.idx = i && r.attempt = attempt

/-- One entry of STP_SEAL with MIRROR: the answer, none where it is a seal note. -/
def sealMirrorOne (s : State) (m : StepMsg) (en : StepEntry) : State × Option StepEntry :=
  match sealedCopies s m.src m.stepRef en.index m.attempt with
  | (h, r, c) :: _ =>
    (match shadowOf s h with
     | none => (s, none)
     | some d =>
       if r.home && serialLt 16 en.homeEpoch d.desc.homeEpoch then (s, some { en with status := .staleRole, detail := d.desc.homeEpoch % 256, homeEpoch := d.desc.homeEpoch })
       else
         let z : SealRec := { handle := h, stepRef := m.stepRef, idx := en.index, attempt := m.attempt, step := c.step, token := en.token, note := !r.home }
         let keep := d.seals.filter fun y => decide (c.step ≤ y.step + 1) && !(y.stepRef = z.stepRef && y.idx = z.idx && y.note = z.note)
         let s := setShadow s { d with seals := keep ++ [z] }
         let s := commitCopies s h r.sender r.home fun y => y.step = c.step && y.attempt = c.attempt
         (s, if r.home then some { en with status := .ok, detail := 0 } else none))
  | [] =>
    if recordHeld s m.stepRef en.index m.attempt then (s, some { en with status := .ok, detail := 0 })
    else if (lostDevices s).contains m.src || s.mir.oneByOne.contains m.src then
      (s, some { en with status := .staleRole, detail := (en.homeEpoch + 1) % 256, homeEpoch := wrapAdd 16 en.homeEpoch 1 })
    else (s, some { en with status := .badHandle, detail := 0x1 })

/-- STP_SEAL with MIRROR at a mirror: its answer keeps MIRROR. -/
def sealMirror (s : State) (m : StepMsg) : State :=
  let s := ((sealedCopies s m.src m.stepRef ((m.entries.headD ⟨0, .ok, 0, 0, 0, 0⟩).index) m.attempt).map (·.1)).foldl promoteIfLost s
  let (s, l) := m.entries.foldl (fun acc en => let r := sealMirrorOne acc.1 m en; (r.1, acc.2 ++ r.2.toList)) (s, ([] : List StepEntry))
  if l.isEmpty then s else sendMsg s m.src (.stpSealAck { m with mirror := true, epoch := 0, src := s.device, entries := l.map fun en => { en with step := 0, token := 0 } })

/-! ### Acknowledgements and copies at the mirrored side -/

/-- The note of a step is acknowledged: the chunk, the row, the seal (R107, R108, R264). -/
def noteAcked (s : State) (h step : Nat) : State :=
  match sessOf s h with
  | none => s
  | some x =>
    if x.step ≠ step || !x.fixed then s
    else
      let s := setSess s { x with noteAcked := true }
      let s := sendDecodeRow s x x.pendingToken (x.step + 1) (x.length + stepTokens x)
      let s := postFixed s h
      let refs := (s.steps.parts.map fun p => ((p.entries.zipIdx.filter fun e => e.1.handle = h && liveEntry e.1).map fun e => (p.stepRef, e.2))).flatten
      refs.foldl (fun s r => trySeal s r.1 r.2) s

/-- The entry of a prepare copy's part. -/
def prepAcked (s : State) (h ref attempt : Nat) : State :=
  match partOf s ref with
  | none => s
  | some p =>
    match entryIndex p h with
    | some i => if (p.entries[i]?).elim false fun e => e.prepWait && e.attempt = attempt && liveEntry e then sendPrepared s ref i else s
    | none => s

/-- A rejoin handover of the session has no answer yet (R549). -/
def rejoining (s : State) (h : Nat) : Bool := (sessOf s h).elim false (·.rejoin)

/-- The home leaves a session that its mirror has taken over by a handover (R495, R549). -/
def handedOver (s : State) (h : Nat) : State :=
  let s := { s with mir := { s.mir with holding := s.mir.holding.filter (· ≠ h) } }
  let s := if rejoining s h then s else setFld s Reg.CKP_HANDOVER.moved (fld s Reg.CKP_HANDOVER.moved + 1)
  demote s h none

/-- A command that waited for the rejoin of its session is taken (R550). -/
def takeWaited (s : State) (v : SessVerb) : State :=
  match v with
  | .open_ sub a => doOpen s sub a
  | .resume sub a => doResume s sub a
  | .query sub => doQuery s sub
  | .insert sub k f r => doInsert s sub k f r
  | .cancel sub => doCancel s sub
  | .remove sub n f r => doRemove s sub n f r

/-- A session's step 0 or resume step is to run again after a start: its tokens are known (R548). -/
def stepAgain (x : Session) : Bool := !x.guest && (x.state = .prefilling || x.state = .resuming) && hasInput x

/-- A session that a warm start restored and that stays here: it retires where a cancel waited for the step that the save
killed, it parks where a resume's tokens were not yet known. -/
def settleKept (s : State) (h : Nat) : State :=
  match sessOf s h with
  | none => s
  | some x =>
    if x.cancelPending then retire s h .ok .cancelled 0
    else if x.state = .resuming && !stepAgain x then setState s h (parkState s h)
    else s

/-- The mirror was not SYNCED: the session stays here, unmirrored, and gets another mirror; what waited goes on (R549). -/
def rejoinKept (s : State) (h : Nat) : State :=
  let vs := (sessOf s h).elim [] (·.waiting)
  let s := modSess s h fun x => { x with rejoin := false, waiting := [] }
  let s := { s with mir := { s.mir with holding := s.mir.holding.filter (· ≠ h) } }
  vs.foldl takeWaited (settleKept (dropMirror s h true Status.busyMaint.code) h)

/-- The outcome of a rejoin is unknown: FREE without an END chunk, WARM_ORPHAN, BAD_HANDLE for what waited (R549, R550). -/
def rejoinLost (s : State) (h : Nat) : State :=
  let dev := (mirLink s h true).elim 0x7FF (·.dev)
  let s := { s with mir := { s.mir with holding := s.mir.holding.filter (· ≠ h) } }
  bump (leaveHome s h .badHandle 0x1 fun s => report s 0x0107 (hSerial h) 0 [h, dev]) Reg.CLK_START.orphans

/-- The answer of a rejoin handover other than OK. -/
def rejoinAnswer (s : State) (h : Nat) (st : Status) : State :=
  match st with
  | .staleRole => demote s h none
  | .badHandle => demote s h none
  | .busyMaint => rejoinKept s h
  | _ => rejoinLost s h

/-- No handover remains. -/
def checkHandover (s : State) : State :=
  if s.mir.links.any fun l => l.waits.any fun w => w.2 = MirWait.handover then s
  else if s.mir.handover.isEmpty then setFld s Reg.CKP_HANDOVER.busy 0 else s

/-- MIRROR_ACK (R104, R485). -/
def takeAck (s : State) (q : MirrorHdr) : State :=
  let home := !q.layers
  match mirLink s q.handle home with
  | none => s
  | some l =>
    match l.waits.find? (·.1 = q.ref) with
    | none => s
    | some w =>
      if l.dev ≠ q.src || l.epoch ≠ q.epoch then s
      else
        let h := q.handle
        let full := q.status = .noCapacity && (match w.2 with | .prep _ _ => true | _ => false)
        let s := if full then setLink s { l with copies := l.copies.map fun c => if c.seq = q.ref then { c with refused := true } else c }
          else setLink s { l with waits := l.waits.filter fun z => z.1 ≠ q.ref, copies := l.copies.filter fun c => c.seq ≠ q.ref }
        if full then s
        else if q.status = .ok then
          match w.2 with
          | .open_ => (match mirLink s h home with
              | some l => if l.counts || l.waits.any (fun z => match z.2 with | .sync _ => true | _ => false) then s else setLink s { l with counts := true }
              | none => s)
          | .note step => noteAcked s h step
          | .prep ref att => prepAcked (if home then modSess s h fun x => { x with mirrorAcked := x.step } else s) h ref att
          | .sync last => if last then (match mirLink s h home with | some l => setLink s { l with counts := true } | none => s) else s
          | .handover => checkHandover (handedOver s h)
          | .retire => dropLink s h home
          | .state => s
        else match w.2 with
          | .open_ =>
            let s := dropLink (report s 0x0301 (hSerial h) 0 [h, q.src]) h home
            releaseMirror (if home then modSess s h fun x => { x with mirrorDev := 0x7FF } else s) h home
          | .handover => if rejoining s h then rejoinAnswer s h q.status else checkHandover { s with mir := { s.mir with holding := s.mir.holding.filter (· ≠ h) } }
          | .retire => dropLink s h home
          | _ => if home && q.status = .staleRole then demote s h none else dropMirror s h home q.status.code

/-- An object comes back from the mirror (R154, R265, R487). -/
def takeReturn (s : State) (q : MirrorHdr) (valid : Nat) (bytes : List Nat) : State :=
  let h := q.handle
  match sessOf s h, paramsOf s (hCtx h) with
  | some x, some p =>
    let k := kindOfAux q.aux
    let s := receiveObj s x p (hKey h) k q.first q.step valid x.step bytes
    let key := (k.num, q.first, q.step)
    let rs := s.mir.restores.map fun r => if r.handle = h then { r with waits := r.waits.filter (· ≠ key) } else r
    let done := rs.filter fun r => r.waits.isEmpty
    let s := { s with mir := { s.mir with restores := rs.filter fun r => !r.waits.isEmpty } }
    done.foldl (fun s r =>
      match r.answer with
      | none => s
      | some (home, ref, i, att) =>
        let s := modSess s h fun x => if x.guest && serialLt 32 x.step r.step then { x with step := r.step, length := maxOf ((committedObjs s x).map fun o => if o.1 = 0 then 64 * o.2.2.1 + o.2.2.2.valid else 0) } else x
        let s := { s with steps := { s.steps with behind := s.steps.behind.filter fun b => b.1 ≠ h } }
        let en : StepEntry := { index := i, status := .ok, detail := 0, homeEpoch := x.homeEpoch, step := 0, token := 0 }
        let s := sendMsg s home (.stpSealAck { mirror := false, resubmit := false, hasNext := false, epoch := 0, src := s.device, stepRef := ref, attempt := att, next := 0, entries := [en] })
        dropDone s ref) s
  | _, _ => s

/-- MIRROR_SYNC: from this controller's mirror, or toward a shadow here. -/
def anySync (s : State) (q : MirrorHdr) (valid : Nat) (bytes : List Nat) : State :=
  match mirLink s q.handle (!q.layers) with
  | some l => if l.dev = q.src && l.epoch = q.epoch then takeReturn s q valid bytes else toShadow s q (.sync valid bytes)
  | none => toShadow s q (.sync valid bytes)

/-- The attempt that a copy on its way belongs to, with its step reference and entry, while the entry still waits for the mirror. -/
def copyFor (s : State) (h : Nat) (l : MirLink) (c : SentCopy) : Option (Nat × Nat × Nat × PartEntry) :=
  match l.waits.find? (·.1 = c.seq) with
  | some (_, .prep ref att) =>
    match (partOf s ref).bind fun p => (entryIndex p h).bind fun i => (p.entries[i]?).map fun e => (i, e) with
    | some (i, e) => if e.prepWait && e.attempt = att then some (ref, att, i, e) else none
    | none => none
  | _ => none

/-- Send a refused copy again, under the next number; one whose attempt is over goes. -/
def resendCopy (s : State) (h : Nat) (home : Bool) (c : SentCopy) : State :=
  match mirLink s h home with
  | none => s
  | some l =>
    let rest := { l with waits := l.waits.filter fun z => z.1 ≠ c.seq, copies := l.copies.filter fun z => z.seq ≠ c.seq }
    match copyFor s h l c with
    | none => setLink s rest
    | some (ref, att, i, e) =>
      let n := l.seq + 1
      let l := { rest with seq := n, waits := rest.waits ++ [(n, .prep ref att)], copies := rest.copies ++ [{ c with seq := n, refused := false, again := true }] }
      sendMsg (setLink s l) l.dev (.mirror { mirHeader s l e.step i with attempt := att, ref := ref } (.prep c.copy))

/-- A copy that was refused has waited prep_wait_us since it was first sent. -/
def copyOverdue (s : State) (h : Nat) (l : MirLink) (c : SentCopy) : Bool :=
  (c.refused || c.again) && (copyFor s h l c).isSome && decide (c.sentAt + fld s Reg.CKP_MIR_CFG.prep_wait_us * 1000 ≤ s.timebase)

/-- PREP_RESEND_EXPIRY (R488): resend the copies refused, or drop the mirror after prep_wait_us. -/
def prepResend (s : State) (h : Nat) (home : Bool) : State :=
  match mirLink s h home with
  | none => s
  | some l =>
    if l.copies.any (copyOverdue s h l) then dropMirror s h home Status.noCapacity.code
    else (l.copies.filter (·.refused)).foldl (fun s c => resendCopy s h home c) s

/-! ### Handover (R495) -/

/-- A device can be reached, or will not be: a port of its route is usable, or it has no route. -/
def reachable (s : State) (dev : Nat) : Bool :=
  let (nat, eth) := routePorts s dev
  (nat.isEmpty && eth.isEmpty) || nat.any (fun n => !wrongPartner s dev n && usable s n none) || eth.any fun p => usable s p none

/-- Send the handovers that are due: no step of the session is in flight; a rejoin waits for the links to be UP, which precedes it
in the boot sequence (R546). -/
def runHandovers (s : State) : State :=
  s.mir.handover.foldl (fun s h =>
    match sessOf s h, mirLink s h true with
    | some x, some l =>
      if x.rejoin && !reachable s l.dev then s
      else if s.steps.parts.any fun p => p.entries.any fun e => e.handle = h && liveEntry e && e.started then s
      else if !l.counts && !x.rejoin then { s with mir := { s.mir with handover := s.mir.handover.filter (· ≠ h), holding := s.mir.holding.filter (· ≠ h) } }
      else
        let s := { s with mir := { s.mir with handover := s.mir.handover.filter (· ≠ h) } }
        sendMirror s h true .handover id x.step 0 .handover
    | _, _ => { s with mir := { s.mir with handover := s.mir.handover.filter (· ≠ h), holding := s.mir.holding.filter (· ≠ h) } }) s

/-- After a warm start: a session's step 0 or resume step is submitted again once every host of it can be reached (R548). -/
def runAgain (s : State) : State :=
  s.steps.again.foldl (fun s h =>
    let done (s : State) : State := { s with steps := { s.steps with again := s.steps.again.filter (· ≠ h) } }
    match sessOf s h, paramsOf s (hCtx h) with
    | some x, some p =>
      if x.state ≠ .prefilling && x.state ≠ .resuming then done s
      else if x.rejoin || !((rangeHosts s (hSerial h) 0 (lastLayer p)).all fun d => d.1 = s.device || reachable s d.1) then s
      else startOwnStep (done s) h
    | _, _ => done s) s

/-- CKP_HANDOVER.go. -/
def startHandover (s : State) : State :=
  if flag s Reg.CKP_HANDOVER.busy then s
  else
    let dev := fld s Reg.CKP_HANDOVER.device
    let hs := (s.mir.links.filter fun l => l.home && l.dev = dev && l.counts).map (·.handle)
    let s := setFld s Reg.CKP_HANDOVER.moved 0
    if hs.isEmpty then s
    else
      let s := setFld s Reg.CKP_HANDOVER.busy 1
      checkHandover (runHandovers { s with mir := { s.mir with handover := hs, holding := s.mir.holding ++ hs } })

end Sys2Proof.Machine
end

