-- ==== Sys2Proof/Machine/Maint.lean ====
section
/-! DEFINITION. The maintenance arbiter (R511 to R513) and failure warnings (R506). -/
namespace Sys2Proof.Machine

/-! ### Scopes (R511), as numbers -/

/-- The scope of a stack. -/
def scStack (k : Nat) : Nat := k
/-- The scope of a half. -/
def scHalf (h : Nat) : Nat := 0x100 + h
/-- The scope of a bay. -/
def scBay (b : Nat) : Nat := 0x200 + b
/-- The scope of a context. -/
def scCtx (c : Nat) : Nat := 0x10000 + c
/-- The scope of a trunk store, as TRUNK_CUT writes it: an NVMe store is the scope of its drive. -/
def scStore (st : Nat) : Nat := 0x20000 + st % 512
/-- The scope of a drive. -/
def scDrive (d : Nat) : Nat := scStore (0x100 + d)
/-- The scope of a table slot. -/
def scSlot (i : Nat) : Nat := 0x30000 + i
/-- The scope of a CAM bank. -/
def scBank (b : Nat) : Nat := 0x30100 + b
/-- The scope of an index slot. -/
def scIndex (i : Nat) : Nat := 0x30200 + i

/-! ### Compatibility (R512) -/

/-- Pairs of activities that are incompatible when their scopes overlap. -/
def scopedPairs : List (Nat × Nat) :=
  [(1, 1), (1, 2), (2, 2), (2, 8), (3, 3), (4, 4), (5, 5), (5, 9), (6, 6), (8, 8), (9, 9)]

/-- Pairs that are incompatible whatever their scopes, beside a partial layout reload. -/
def barredPairs : List (Nat × Nat) := [(3, 5), (3, 6)]

/-- Two activities conflict. -/
def conflicts (a b : Activity) : Bool :=
  let p := (Nat.min a.no b.no, Nat.max a.no b.no)
  a.no = 7 || b.no = 7 || barredPairs.contains p || (scopedPairs.contains p && a.scope.any b.scope.contains)

/-- The running activity that keeps an activity out. -/
def conflictWith (s : State) (a : Activity) : Option Nat := (s.maint.running.find? (conflicts a)).map (·.no)

/-- What starts with an activity: a drive whose firmware is activated is avoided for sinks (R513), the links of
a bay retrain. -/
def activityStarts (s : State) (a : Activity) : State :=
  if a.no = 9 then
    let s := { s with tier := { s.tier with targets := s.tier.targets.map fun t =>
      if !t.remote && t.number = a.target then { t with activating := true } else t } }
    emit s (.nvmeCommit a.target a.fw)
  else if a.no = 4 then retrainBay s a.target
  else s

/-- What ends with an activity. -/
def activityEnds (s : State) (a : Activity) : State :=
  if a.no = 9 then
    { s with tier := { s.tier with targets := s.tier.targets.map fun t =>
      if !t.remote && t.number = a.target then { t with activating := false } else t } }
  else s

/-- Start an activity the arbiter admits. -/
def startActivity (s : State) (a : Activity) : State :=
  activityStarts { s with maint := { s.maint with running := s.maint.running ++ [a] } } a

/-- Ask the arbiter for an activity: the state with it running, or the activity that refuses it, posted as MAINT_REFUSED. -/
def admitActivity (s : State) (a : Activity) : Except (State × Nat) State :=
  match conflictWith s a with
  | some n => .error (report s 0x160E a.no 0 [a.no, n], n)
  | none => .ok (startActivity s a)

/-- Start the first waiting activity that nothing keeps out; `n` bounds them. -/
def startWaiting : Nat → State → State
  | 0, s => s
  | n + 1, s =>
    match s.maint.waiting.find? fun a => (conflictWith s a).isNone with
    | some a => startWaiting n (startActivity { s with maint := { s.maint with waiting := s.maint.waiting.erase a } } a)
    | none => s

/-- An activity is over: those that wait may start. -/
def endActivity (s : State) (no : Nat) (scope : List Nat) : State :=
  match s.maint.running.find? fun a => a.no = no && a.scope = scope with
  | none => s
  | some a =>
    let s := activityEnds { s with maint := { s.maint with running := s.maint.running.erase a } } a
    let s := if a.host then setFld s Reg.MNT_STATUS.busy 0 else s
    startWaiting s.maint.waiting.length s

/-- An activity of the controller's own: it waits rather than fails (R511); one that already waits or runs is not asked
for again. -/
def ownActivity (s : State) (a : Activity) : State :=
  if s.maint.waiting.contains a || s.maint.running.contains a then s
  else if (conflictWith s a).isSome then { s with maint := { s.maint with waiting := s.maint.waiting ++ [a] } }
  else startActivity s a

/-- Activities running, or waiting, as MNT_ACTIVE reads. -/
def activityBits (l : List Activity) : Nat := maskOf (l.map fun a => a.no - 1)

/-- The scope of an MNT_REQ activity on a target. -/
def requestScope (no target : Nat) : List Nat :=
  match no with
  | 1 => [scStack target]
  | 2 => [scStack (target / 1024)]
  | 4 => [scBay target]
  | _ => [scDrive target]

/-- The unit that an MNT_REQ activity names is there. -/
def requestUnit (s : State) (no target : Nat) : Bool :=
  match no with
  | 1 => (partStacks s.part).contains target
  | 2 => (partStacks s.part).contains (target / 1024)
  | 4 => target < partBays s.part
  | _ => s.tier.targets.any fun t => !t.remote && t.number = target

/-- MNT_REQ.go with the fields as written (R513). -/
def mntRequest (s : State) (no target fw : Nat) : State :=
  if fld s Reg.MNT_STATUS.busy = 1 || !List.contains [1, 2, 4, 9] no then s
  else if !requestUnit s no target then setFld (setFld s Reg.MNT_STATUS.code 0x01) Reg.MNT_STATUS.conflict 0
  else
    match admitActivity s { no := no, scope := requestScope no target, host := true, target := target, fw := fw } with
    | .error (s, n) => setFld (setFld s Reg.MNT_STATUS.code 0x0B) Reg.MNT_STATUS.conflict n
    | .ok s => setFld (setFld (setFld s Reg.MNT_STATUS.busy 1) Reg.MNT_STATUS.code 0) Reg.MNT_STATUS.conflict 0

/-- A write of MNT_REQ with go 1: the fields are stored, the activity requested. -/
def mntWrite (s : State) (no target fw : Nat) : State :=
  let s := setFld (setFld (setFld s Reg.MNT_REQ.activity no) Reg.MNT_REQ.target target) Reg.MNT_REQ.fw_slot fw
  mntRequest s (fld s Reg.MNT_REQ.activity) (fld s Reg.MNT_REQ.target) (fld s Reg.MNT_REQ.fw_slot)

/-! ### Failure warnings (R506) -/

/-- The event of a warning, in table order. -/
def warnEvent : Nat → Nat
  | 0 => 0x1609 | 1 => 0x160A | 2 => 0x160B | 3 => 0x160C | _ => 0x160D

/-- Whether a count of an interval is at its threshold: `n` events of `total` (link symbols), or the temperature. -/
def warnCrossed (s : State) (kind n total : Nat) : Bool :=
  match kind with
  | 0 => fld s Reg.MNT_WARN_CFG.attic_ce ≤ n
  | 1 => fld s Reg.MNT_WARN_CFG.store_ce ≤ n
  | 2 => total < n * 10 ^ fld s Reg.MNT_WARN_CFG.ber_exp
  | 3 => 100 ≤ n + fld s Reg.MNT_WARN_CFG.temp_margin
  | _ => fld s Reg.MNT_WARN_CFG.droop ≤ n

/-- The automatic action of a warning on a unit: bank spare-in of a bank pair, retrain of a link's bay. -/
def warnAction (s : State) (kind unit : Nat) : State :=
  if kind = 0 && flag s Reg.MNT_WARN_CFG.auto_spare then
    ownActivity s { no := 2, scope := requestScope 2 unit, target := unit }
  else if kind = 2 && flag s Reg.MNT_WARN_CFG.auto_retrain then
    ownActivity s { no := 4, scope := requestScope 4 (unit / 8), target := unit / 8 }
  else s

/-- Raise a warning for a unit: its bit, the count, the event, the automatic action. -/
def raiseWarning (s : State) (kind unit n : Nat) : State :=
  let s := setFld s Reg.MNT_WARN_STATE.active (putBit (fld s Reg.MNT_WARN_STATE.active) kind true)
  let s := report (bump s Reg.MNT_WARN_STATE.raised) (warnEvent kind) unit 0 [unit, n]
  warnAction s kind unit

/-- The end of an interval of a warning, with what its units counted in it: (unit, events, total). -/
def warnInterval (s : State) (kind : Nat) (counts : List (Nat × Nat × Nat)) : State :=
  let above := counts.filter fun c => warnCrossed s kind c.2.1 c.2.2
  if above.isEmpty then setFld s Reg.MNT_WARN_STATE.active (putBit (fld s Reg.MNT_WARN_STATE.active) kind false)
  else above.foldl (fun s c => raiseWarning s kind c.1 c.2.1) s

/-- A droop event (R602): the second's count crosses the threshold once. -/
def droopEvent (s : State) (rail : Nat) : State :=
  let n := s.maint.droops + 1
  let s := { s with maint := { s.maint with droops := n } }
  if n = fld s Reg.MNT_WARN_CFG.droop then raiseWarning s 4 rail n else s

/-- MAINT_ACTIVITY_DONE (R511): an activity of the arbiter, or of MNT_REQ, ends. -/
def execMaintActivityDone (no target : Nat) (s : State) : Host.Outcome State Fault Refusal :=
  run s (whenUp fun s =>
    if no = 3 then endActivity s 3 [scHalf target]
    else if [1, 2, 4, 9].contains no then endActivity s no (requestScope no target) else s)

/-- MNT_ATTIC_SCRUB (R513): MNT_REQ activity 1 on a stack. -/
def execMntAtticScrub (stack : Nat) (s : State) : Host.Outcome State Fault Refusal :=
  run s (hostAccess fun s => mntWrite (dropShadow s) 1 stack (fld s Reg.MNT_REQ.fw_slot))

/-- MNT_SPARE_IN (R513): MNT_REQ activity 2 on a bank pair. -/
def execMntSpareIn (bankPair : Nat) (s : State) : Host.Outcome State Fault Refusal :=
  run s (hostAccess fun s => mntWrite (dropShadow s) 2 bankPair (fld s Reg.MNT_REQ.fw_slot))

/-- MNT_LINK_RETRAIN (R513): MNT_REQ activity 4 on a bay. -/
def execMntLinkRetrain (bay : Nat) (s : State) : Host.Outcome State Fault Refusal :=
  run s (hostAccess fun s => mntWrite (dropShadow s) 4 bay (fld s Reg.MNT_REQ.fw_slot))

/-- MNT_NVME_FW_ACTIVATE (R513): MNT_REQ activity 9 on a drive, with the firmware slot. -/
def execMntNvmeFwActivate (drive slot : Nat) (s : State) : Host.Outcome State Fault Refusal :=
  run s (hostAccess fun s => mntWrite (dropShadow s) 9 drive slot)

/-- PERIODIC_SCRUB (R511): the controller's own attic scrub of a stack, which waits rather than fails. -/
def execPeriodicScrub (stack : Nat) (s : State) : Host.Outcome State Fault Refusal :=
  run s (whenUp fun s =>
    if requestUnit s 1 stack then ownActivity s { no := 1, scope := requestScope 1 stack, target := stack } else s)

/-- WARN_INTERVAL_END (R506): the interval of a warning ends, with what each unit counted in it; the droop count starts
again. -/
def execWarnIntervalEnd (kind : Nat) (counts : List (Nat × Nat × Nat)) (s : State) : Host.Outcome State Fault Refusal :=
  run s (whenUp fun s =>
    if kind = 4 then
      let n := s.maint.droops
      let s := { s with maint := { s.maint with droops := 0 } }
      if warnCrossed s 4 n 0 then s
      else setFld s Reg.MNT_WARN_STATE.active (putBit (fld s Reg.MNT_WARN_STATE.active) 4 false)
    else if kind < 4 then warnInterval s kind counts else s)

end Sys2Proof.Machine
end

