-- ==== Sys2Proof/Machine/Trunks.lean ====
section
/-! DEFINITION. Trunks: the cut, the drain, the token log, the restore (R496 to R505, R539). -/
namespace Sys2Proof.Machine

/-! ### Records -/

/-- The cut of a home's request that this controller takes part in. -/
def cutRec (s : State) (home req : Nat) : Option Cut := s.trunk.cuts.find? fun c => c.home = home && c.request = req

/-- Replace a cut's record. -/
def setCut (s : State) (c : Cut) : State :=
  { s with trunk := { s.trunk with cuts := modFirst (fun d => d.home = c.home && d.request = c.request) (fun _ => c) s.trunk.cuts } }

/-- Forget a cut. -/
def delCut (s : State) (c : Cut) : State :=
  { s with trunk := { s.trunk with cuts := dropFirst (fun d => d.home = c.home && d.request = c.request) s.trunk.cuts } }

/-- The store of a trunk is usable: a pool or a drive that is not lost. -/
def storeUsable (s : State) (store : Nat) : Bool :=
  s.tier.targets.any fun t => t.remote = !bitOf store 8 && t.number = bitsOf store 0 8 && !t.lost

/-- The first free unit of a store beyond trunks, cuts and sunk copies (packed in arrival order, as R138 packs copies). -/
def storeNext (s : State) (store : Nat) : Nat :=
  let l := nextUnit s (if bitOf store 8 then 2 else 3) (bitsOf store 0 8)
  Nat.max l (maxOf ((s.trunk.trunks.filter (·.store = store)).map fun t => t.extent + t.units))

/-- Bytes of an object's copy, header included. -/
def cutBytes (o : Obj) : Nat := movedBytes o

/-- The bytes of an object as a shard holds it. -/
def cutImage (s : State) (o : Obj) : Mem := if o.attic then storedBytes s o else lowerMem o

/-- The crates and slabs of a session that this controller hosts, as they stand at a cut point: the tail crates and slabs
copied, full crates named (R497). -/
def cutObjs (s : State) (h : Nat) : List CutObj :=
  let hk := hKey h
  let crates := (mappedAll s hk .crate).filterMap fun m => (objOf s m.2.2).map fun o =>
    { kind := 0, layer := m.1, index := m.2.1, obj := m.2.2, copy := if o.valid < 64 then some (cutImage s o) else none : CutObj }
  let slabs := (mappedAll s hk .slab).filterMap fun m => (objOf s m.2.2).map fun o =>
    { kind := 1, layer := m.1, index := 0, obj := m.2.2, copy := some (cutImage s o) : CutObj }
  crates ++ slabs

/-- Pages that the fast copy of a session will take here: tail crates and active slab buffers. -/
def cutNeed (s : State) (h : Nat) : Nat :=
  sumOf (((cutObjs s h).filter (·.copy.isSome)).map fun c => (objOf s c.obj).elim 0 fun o => pagesOf (cutBytes o))

/-- Bytes of a controller's shard (R499). -/
def shardBytes (s : State) (c : Cut) : Nat :=
  4096 + sumOf (c.sessions.map fun x => 4096 + sumOf (x.objs.map fun o => (objOf s o.obj).elim 0 cutBytes))

/-- Free what a cut holds here: the references on full crates and the pages. -/
def releaseCut (s : State) (c : Cut) : State :=
  let s := c.sessions.foldl (fun s x => x.objs.foldl (fun s o => if o.copy.isNone then dropRef s o.obj else s) s) s
  let hs := c.sessions.map (·.handle)
  let s := delCut s c
  let free (h : Nat) : Bool := !(s.trunk.cuts.any fun d => d.sessions.any (·.handle = h))
  let s := { s with mir := { s.mir with pinned := s.mir.pinned.filter fun h => !(hs.contains h && free h),
                                        holding := if c.home = s.device then s.mir.holding.filter (fun h => !hs.contains h) else s.mir.holding } }
  hs.foldl (fun s h => match sessOf s h with
    | some x => if x.state = .retiring && free h then releaseObjs s h else s
    | none => s) s

/-! ### The cut -/

/-- The other hosts of the sessions of a cut, each once with its epoch. -/
def cutHosts (s : State) (ctx : Nat) (hs : List Nat) : List (Nat × Nat) :=
  match paramsOf s ctx with
  | none => []
  | some p => (hs.map fun h => rangeHosts s (hSerial h) 0 (lastLayer p)).flatten.foldl (fun acc d =>
      if d.1 = s.device || acc.any (fun a => a.1 = d.1) then acc else acc ++ [d]) []

/-- The step count at which a session will be cut: after the step in flight, if there is one. -/
def cutStepOf (s : State) (h : Nat) : Nat :=
  match sessOf s h with
  | some x => if startedFlight s h then x.step + 1 else x.step
  | none => 0

/-- Reserve cut pages and store space for sessions here (R496 check 5). -/
def canReserve (s : State) (store : Nat) (hs : List Nat) : Option Nat :=
  let n := sumOf (hs.map (cutNeed s))
  if storeUsable s store && decide (n ≤ atticFree s) then some n else none

/-- A session stands at a step boundary here. -/
def atBoundary (s : State) (h : Nat) : Bool :=
  !(s.steps.parts.any fun p => p.entries.any fun e => e.handle = h && liveEntry e && e.started)

/-- Take a session's cut point: the fast copy is captured, full crates are held by a reference, RETIRING will wait. -/
def takeCut (s : State) (c : Cut) (h : Nat) : State :=
  match sessOf s h with
  | none => s
  | some x =>
    let objs := cutObjs s h
    let s := objs.foldl (fun s o => if o.copy.isNone then modObj s o.obj (fun b => { b with refs := b.refs + 1 }) else s) s
    let d := if x.guest then none else some (descOf x)
    let mark (y : CutSess) : CutSess := { y with cut := true, cutStep := x.step, length := x.length, objs := objs, desc := d }
    let c := { c with sessions := modFirst (fun y => y.handle = h) mark c.sessions }
    { setCut s c with mir := { s.mir with pinned := if s.mir.pinned.contains h then s.mir.pinned else s.mir.pinned ++ [h] } }

/-- Take every cut point that is due here (R497): a participant waits for the step count the home named. -/
def cutPoints (s : State) : State :=
  s.trunk.cuts.foldl (fun s c =>
    if !c.armed then s
    else c.sessions.foldl (fun s y =>
      match cutRec s c.home c.request, sessOf s y.handle with
      | some c, some x =>
        if y.cut || !atBoundary s y.handle || (x.guest && x.step < y.want) then s
        else
          let s := takeCut s c y.handle
          if c.home = s.device && x.step ≠ y.want then
            c.hosts.foldl (fun s d => sendMsg s d (.trunkReq { op := 1, epoch := 0, src := s.device, request := c.request, context := c.context,
                                                               serial := c.serial, store := c.store, handles := [(y.handle, x.step)], shard := none, pairs := [] })) s
          else s
      | _, _ => s) s) s

/-- Give up a cut at its home: the others are told, what it holds here is freed, TRUNK_CUT completes. -/
def failCut (s : State) (c : Cut) (st : Status) (detail : Nat) : State :=
  let s := c.hosts.foldl (fun s d => sendMsg s d (.trunkReq { op := 2, epoch := 0, src := s.device, request := c.request, context := c.context,
                                                              serial := c.serial, store := c.store, handles := [], shard := none, pairs := [] })) s
  let s := endActivity (releaseCut s c) 5 [scCtx c.context, scStore c.store]
  match c.sub with
  | some sub => refuse s sub st detail
  | none => s

/-- Every controller has reserved: the cut points begin. -/
def armCut (s : State) (c : Cut) : State :=
  if c.hosts.all c.reserved.contains then cutPoints (setCut s { c with armed := true }) else s

/-- The handles of a list that a TRUNK_CUT cannot cut, by the checks of R496 in order. -/
def cutRefusal (s : State) (ctx : Nat) (hs : List Nat) : Option (Status × Nat) :=
  let rec_ (h : Nat) : Option Session := (sessOf s h).filter fun x => !x.guest
  if hs.any fun h => (rec_ h).isNone then some (.badHandle, 0x1)
  else if hs.any fun h => hCtx h ≠ ctx then some (.protection, 0x1)
  else match (hs.filterMap rec_).find? fun x => !(x.state = .active || x.state = .parked || x.state = .dormant) with
    | some x => some (.badHandle, stateDetail x.state)
    | none => none

/-- TRUNK_CUT (R496, R539): `hs` is what list_addr holds, `rsv` the reserved bits of the entry. -/
def doCut (s : State) (sub : Sub) (hs : List Nat) (store rsv : Nat) : State :=
  if rsv ≠ 0 || 512 ≤ store || hs.isEmpty || 4096 < hs.length then refuse s sub .versionMismatch 0x2
  else match ctxBad s sub.context with
  | some (st, d) => refuse s sub st d
  | none =>
    match cutRefusal s sub.context hs with
    | some (st, d) => refuse s sub st d
    | none =>
      if (tget? s.sec.trunk (fld s Reg.SEC_CFG.trunk_index)).isNone then refuse s sub .protection 0x13
      else match admitActivity s { no := 5, scope := [scCtx sub.context, scStore store] } with
      | .error (s, _) => refuse s sub .busyMaint 0x2
      | .ok s =>
        let serial := (tget? s.contexts sub.context).elim 1 (·.trunkSerial)
        let hosts := cutHosts s sub.context hs
        let c : Cut := { home := s.device, request := s.trunk.nextReq, context := sub.context, serial := serial, store := store,
                         extent := storeNext s store, pages := 0, sub := some sub, hosts := hosts.map (·.1), since := s.timebase,
                         sessions := hs.map fun h => { handle := h, want := cutStepOf s h } }
        let s := { s with trunk := { s.trunk with nextReq := s.trunk.nextReq + 1, cuts := s.trunk.cuts ++ [c] },
                          contexts := tmodIf s.contexts sub.context fun x => { x with trunkSerial := wrapAdd 32 x.trunkSerial 1 } }
        match canReserve s store hs with
        | none => failCut s { c with hosts := [] } .noCapacity 0xC
        | some n =>
          let c := { c with pages := n }
          let s := setCut { s with mir := { s.mir with holding := s.mir.holding ++ hs } } c
          let s := hosts.foldl (fun s d => sendMsg s d.1 (.trunkReq { op := 1, epoch := d.2, src := s.device, request := c.request,
                                                                      context := c.context, serial := serial, store := store, handles := c.sessions.map fun y => (y.handle, y.want), shard := none, pairs := [] })) s
          armCut s c

/-- Answer a TRUNK_REQ. -/
def trunkAnswer (s : State) (home op req : Nat) (st : Status) (detail h : Nat) : State :=
  sendMsg s home (.trunkRsp { op := op, src := s.device, request := req, status := st, detail := detail, handle := h, extent := 0, length := 0, digest := 0 })

/-- TRUNK_REQ op 1 CUT at a participant: a reservation, or the step counts of a cut under way. -/
def takeReqCut (s : State) (r : TrunkReq) : State :=
  match cutRec s r.src r.request with
  | some c =>
    cutPoints (setCut s { c with sessions := c.sessions.map fun y =>
                                 match r.handles.find? (·.1 = y.handle) with | some q => { y with want := q.2 } | none => y })
  | none =>
    let hs := (r.handles.filter fun q => (sessOf s q.1).isSome)
    match canReserve s r.store (hs.map (·.1)) with
    | none => trunkAnswer s r.src 1 r.request .noCapacity 0xC 0
    | some n =>
      match admitActivity s { no := 5, scope := [scCtx r.context, scStore r.store] } with
      | .error (s, _) => trunkAnswer s r.src 1 r.request .busyMaint 0x2 0
      | .ok s =>
        let c : Cut := { home := r.src, request := r.request, context := r.context, serial := r.serial, store := r.store,
                         extent := storeNext s r.store, pages := n, armed := true, since := s.timebase,
                         sessions := hs.map fun q => { handle := q.1, want := q.2 } }
        let s := trunkAnswer { s with trunk := { s.trunk with cuts := s.trunk.cuts ++ [c] } } r.src 1 r.request .ok 0 0
        -- sessions that this controller has no record of are taken at once: it holds nothing of them
        let none_ := r.handles.filter fun q => (sessOf s q.1).isNone
        cutPoints (none_.foldl (fun s q => trunkAnswer s r.src 4 r.request .ok 0 q.1) s)

/-- The home lets a session's next step start once every controller has reported TAKEN (R497). -/
def takenBy (s : State) (c : Cut) (h dev : Nat) : State :=
  let c := { c with sessions := modFirst (fun y => y.handle = h) (fun y => { y with takenBy := if y.takenBy.contains dev then y.takenBy else y.takenBy ++ [dev] }) c.sessions }
  let s := setCut s c
  match c.sessions.find? (·.handle = h) with
  | some y => if y.taken && c.hosts.all y.takenBy.contains then { s with mir := { s.mir with holding := s.mir.holding.filter (· ≠ h) } } else s
  | none => s

/-- FAST_COPY_COMPLETE: the copy of a session is complete here. -/
def fastCopied (s : State) (home req h : Nat) : State :=
  match cutRec s home req with
  | none => s
  | some c =>
    if !(c.sessions.any fun y => y.handle = h && y.cut && !y.taken) then s
    else
      let c := { c with sessions := modFirst (fun y => y.handle = h) (fun y => { y with taken := true }) c.sessions }
      let s := setCut s c
      if c.home = s.device then takenBy s c h s.device else trunkAnswer s c.home 4 c.request .ok 0 h

/-- The sections of a controller's shard (R499). -/
def shardOf (s : State) (c : Cut) : List ShardSess :=
  let image (o : CutObj) : List Nat :=
    match objOf s o.obj with
    | some b => readBytes (o.copy.getD (cutImage s b)) 0 (cutBytes b)
    | none => []
  c.sessions.map fun y =>
    { handle := y.handle, cutStep := y.cutStep, length := y.length, desc := y.desc,
      crates := (y.objs.filter (·.kind = 0)).map fun o => (o.layer, o.index, image o),
      slabs := (y.objs.filter (·.kind = 1)).map fun o => (o.layer, image o) }

/-- The full crates of a shard, which the trunk can give back (R502). -/
def shardFull (s : State) (c : Cut) : List (Nat × Nat × Nat × Mem) :=
  (c.sessions.map fun y => (y.objs.filter fun o => o.kind = 0 && o.copy.isNone).filterMap fun o =>
    (objOf s o.obj).map fun b => (y.handle, o.layer, o.index, cutImage s b)).flatten

/-- Two lists name the same sessions. -/
def sameSet (a b : List Nat) : Bool := a.all b.contains && b.all a.contains

/-- Enter a trunk, and free the older trunks of the same session set beyond those kept (R498). -/
def addTrunk (s : State) (t : Trunk) : State :=
  let older := s.trunk.trunks.filter fun u => u.context = t.context && sameSet u.handles t.handles
  let drop := older.take (older.length - fld s Reg.CKP_DRAIN.keep)
  { s with trunk := { s.trunk with trunks := (s.trunk.trunks.filter fun u => !drop.contains u) ++ [t] } }

/-- The layers this controller hosts of a context, first and last. -/
def shardRange (s : State) (ctx : Nat) : Nat × Nat :=
  match paramsOf s ctx with
  | some p => let l := (List.range p.layers.length).filter (hostsLayer s); (l.headD 0, l.getLastD 0)
  | none => (0, 0)

/-- Every shard is drained: the manifest, the trunk, TRUNK_DONE, the completion (R498, R500). -/
def finishCut (s : State) (c : Cut) : State :=
  if !(c.done && c.hosts.all fun d => c.drained.any (·.device = d)) then s
  else
    let off := maxOf (c.drained.map fun d => if d.device = s.device then d.extent + ceilDiv d.length 4096 else 0)
    let m : Manifest := { context := c.context, serial := c.serial, shards := c.drained, sessions := c.sessions.map fun y => (y.handle, y.cutStep),
                          key := fld s Reg.SEC_CFG.trunk_index, digest := 0, r := 0, s := 0 }
    let bytes := sumOf (c.drained.map (·.length))
    let size := ceilDiv (4096 + 96 * c.drained.length + 16 * c.sessions.length + 104) 4096
    let t : Trunk := { home := true, context := c.context, serial := c.serial, store := c.store, extent := c.extent,
                       units := off + size - c.extent, handles := c.sessions.map (·.handle), crates := shardFull s c,
                       logged := c.sessions.map fun y => (y.handle, y.length) }
    let s := addTrunk (emit s (.manifest off m)) t
    let s := endActivity (releaseCut s c) 5 [scCtx c.context, scStore c.store]
    let s := report s 0x1607 c.context 0 [c.serial, c.sessions.length, bytes]
    match c.sub with
    | some sub => complete s sub .ok 0 [c.serial, c.sessions.length, off, bytes]
    | none => s

/-- TRUNK_DRAIN_COMPLETE: this controller's shard of a cut is written, or failed; `digest` is its SHA-384. -/
def drained (s : State) (home req digest : Nat) (ok : Bool) : State :=
  match cutRec s home req with
  | none => s
  | some c =>
    if c.done || !(c.sessions.all (·.taken)) then s
    else if !ok then
      if c.home = s.device then failCut s c .tierFault 0x9
      else
        let s := trunkAnswer s c.home 5 c.request .tierFault 0x9 0
        endActivity (releaseCut s c) 5 [scCtx c.context, scStore c.store]
    else
      let len := shardBytes s c
      let (first, last) := shardRange s c.context
      let e : ShardRef := { device := s.device, first := first, last := last, home := c.home = s.device, extent := c.extent, length := len, digest := digest }
      let s := emit s (.shard c.context c.serial c.extent (shardOf s c))
      if c.home = s.device then
        let c := { c with done := true, drained := c.drained ++ [e], pages := 0 }
        finishCut (setCut s c) c
      else
        let t : Trunk := { home := false, context := c.context, serial := c.serial, store := c.store, extent := c.extent,
                           units := ceilDiv len 4096, handles := c.sessions.map (·.handle), crates := shardFull s c }
        let s := addTrunk s t
        let s := sendMsg s c.home (.trunkRsp { op := 5, src := s.device, request := c.request, status := .ok, detail := 0, handle := 0,
                                               extent := c.extent, length := len, digest := digest })
        endActivity (releaseCut s c) 5 [scCtx c.context, scStore c.store]

/-- TRUNK_RSP op 1 RESERVED, op 4 TAKEN, op 5 DRAINED at the home of a cut. -/
def cutAnswer (s : State) (q : TrunkRsp) : State :=
  match cutRec s s.device q.request with
  | none => s
  | some c =>
    if !c.hosts.contains q.src then s
    else if q.op = 1 then
      if q.status ≠ .ok then failCut s c .noCapacity 0xC
      else
        let c := { c with reserved := if c.reserved.contains q.src then c.reserved else c.reserved ++ [q.src] }
        armCut (setCut s c) c
    else if q.op = 4 then
      if q.status ≠ .ok then failCut s c .tierFault 0x9 else takenBy s c q.handle q.src
    else if q.status ≠ .ok then failCut s c .tierFault 0x9
    else if c.drained.any (·.device = q.src) then s
    else
      let (first, last) := ((rolesOf s 1).find? (·.device = q.src)).elim (0, 0) fun r => (bitsOf r.key 0 8, bitsOf r.key 8 8)
      let c := { c with drained := c.drained ++ [{ device := q.src, first := first, last := last, home := false, extent := q.extent,
                                                   length := q.length, digest := q.digest }] }
      finishCut (setCut s c) c

/-! ### The token log (R501) -/

/-- The trunk of this home whose log a session's tokens go to: the newest. -/
def logTrunk (s : State) (h : Nat) : Option Trunk := s.trunk.trunks.reverse.find? fun t => t.home && t.handles.contains h

/-- Log the new context tokens of a session, where it has any. -/
def logSession (s : State) (h : Nat) : State :=
  match logTrunk s h, sessOf s h with
  | some t, some x =>
    match t.logged.find? (·.1 = h) with
    | none => s
    | some (_, from_) =>
      if x.length ≤ from_ then s
      else
        let toks := x.kv.drop from_
        let t' := { t with logged := t.logged.map fun q => if q.1 = h then (h, x.length) else q }
        let s := { s with trunk := { s.trunk with trunks := s.trunk.trunks.map fun u => if u = t then t' else u } }
        let s := bump s Reg.CKP_LOG.records
        emit s (.log t.context t.serial { handle := h, first := from_, tokens := toks, next := x.lastToken, crcOk := true }
          (crc32c (toks.map (leBytes 4)).flatten))
  | _, _ => s

/-- The sessions that some trunk of this home logs. -/
def loggedSessions (s : State) : List Nat := ((s.trunk.trunks.filter (·.home)).map (·.handles)).flatten.eraseDups

/-- TOKEN_LOG_FLUSH: every cut session with new commits is logged. -/
def flushLogs (s : State) : State := (loggedSessions s).foldl logSession s

/-- A cut session that has parked is logged at once. -/
def logParked (s : State) : State :=
  (loggedSessions s).foldl (fun s h => match sessOf s h with
    | some x => if x.state = .parked || x.state = .dormant then logSession s h else s
    | none => s) s

/-! ### Deletion and loss -/

/-- CKP_TRUNK_DEL: the trunk of a serial and context is freed. -/
def delTrunk (s : State) (serial ctx : Nat) : State :=
  { s with trunk := { s.trunk with trunks := s.trunk.trunks.filter fun t => !(t.serial = serial && t.context = ctx) } }

/-- A trunk store is lost: its trunks with it, TRUNK_STORE_LOST for each at the home; cuts to it fail. -/
def storeLost (s : State) (store : Nat) : State :=
  let gone := s.trunk.trunks.filter (·.store = store)
  let s := { s with trunk := { s.trunk with trunks := s.trunk.trunks.filter (·.store ≠ store) } }
  let s := (gone.filter (·.home)).foldl (fun s t => report s 0x1608 t.serial 0 [t.serial]) s
  (s.trunk.cuts.filter (·.store = store)).foldl (fun s c =>
    if c.home = s.device then failCut s c .tierFault 0x9
    else endActivity (releaseCut (trunkAnswer s c.home 5 c.request .tierFault 0x9 0) c) 5 [scCtx c.context, scStore c.store]) s

/-! ### The restore (R503) -/

/-- The restore of a request. -/
def restOf (s : State) (req : Nat) : Option TrunkRest := s.trunk.rests.find? (·.request = req)

/-- Replace a restore's record. -/
def setRest (s : State) (r : TrunkRest) : State :=
  { s with trunk := { s.trunk with rests := modFirst (fun q => q.request = r.request) (fun _ => r) s.trunk.rests } }

/-- Forget a session that a restore made, with all it holds. -/
def eraseSession (s : State) (h : Nat) : State :=
  let s := { s with steps := { s.steps with parts := s.steps.parts.filter fun p => !(p.own && p.entries.any (·.handle = h)) } }
  let s := ledgerDrop (releaseObjs s h) h
  { s with sess := { s.sess with table := tdel s.sess.table (hKey h), serials := { s.sess.serials with
                                                                                   freed := if hDev h = s.device then s.sess.serials.freed ++ [hSerial h] else s.sess.serials.freed } } }

/-- The signature of a manifest verifies under the trunk key it names (R539). -/
def manifestOk (s : State) (m : Manifest) : Bool :=
  match tget? s.sec.trunk m.key with
  | some d => match ecMul 384 d (some g384) with
    | some q => ecdsaVerify q m.digest m.r m.s
    | none => false
  | none => false

/-- The kind-1 role that hosts exactly a shard's layers. -/
def shardHost (s : State) (r : ShardRef) : Option Role :=
  (rolesOf s 1).find? fun q => bitsOf q.key 0 8 = r.first && bitsOf q.key 8 8 = r.last

/-- Write a shard's copies of a session as HOME copies under a handle; `hosts` says which layers are served here. -/
def loadShard (s : State) (x : Session) (p : Params) (sec_ : ShardSess) : State :=
  let hk := hKey x.handle
  let s := sec_.crates.foldl (fun s c => receiveObj s x p hk .crate c.1 c.2.1 (Nat.min 64 (sec_.length - 64 * c.2.1)) sec_.cutStep c.2.2) s
  sec_.slabs.foldl (fun s c => receiveObj s x p hk .slab c.1 0 0 sec_.cutStep c.2) s

/-- Room for a shard's sessions under the hatch's headroom rule: the keep-set objects that are not RESIDENT. -/
def restoreRoom (s : State) (hs : List Nat) : Bool :=
  hs.all fun h => match sessOf s h with
    | some x => headroomOk s x.partition (keepNeed s x)
    | none => true

/-- A restore fails: everything made for it is freed here and on the hosts, TRUNK_RESTORE completes. -/
def failRest (s : State) (r : TrunkRest) (st : Status) (detail : Nat) : State :=
  let s := r.hosts.foldl (fun s d => sendMsg s d (.trunkReq { op := 2, epoch := 0, src := s.device, request := r.request, context := r.context,
                                                              serial := 0, store := 0, handles := [], shard := none, pairs := [] })) s
  let s := r.sessions.foldl (fun s x => eraseSession s x.new) s
  refuse { s with trunk := { s.trunk with rests := dropFirst (fun q => q.request = r.request) s.trunk.rests } } r.sub st detail

/-- The log's records of a session, in order up to the first whose CRC fails. -/
def logOf (log : List LogRecord) (h : Nat) : List LogRecord := (log.takeWhile (·.crcOk)).filter (·.handle = h)

/-- The record of a restored session: its descriptor from the shard, the logged tokens as the input of its restore step,
the logged next token fixed (R503 steps 5 and 6). -/
def restoredSession (s : State) (d : SessDesc) (new cutStep : Nat) (log : List LogRecord) : Session :=
  let toks := (log.map (·.tokens)).flatten
  let next := (log.getLast?).elim 0 (·.next)
  let k := toks.length
  let base := sessOfDesc d
  let v := vocabOf s (hCtx new)
  let str (t : Nat) : List Nat := v.elim [] fun v => tokenString v t
  let auto := (toks.drop 1).foldl (fun q t => nextAuto (constrOf s (hCtx new)) d.sampler.autoId q t) d.sampler.autoState
  let hold := (toks.drop 1).foldl (fun b t => (detok b (str t)).2) d.holdBytes
  let out := detok hold (str next)
  let f : Fixing := { step := cutStep + k - 1, token := next, nextAuto := nextAuto (constrOf s (hCtx new)) d.sampler.autoId auto next,
                      holdAfter := out.2, text := out.1, parts := partCount out.1 }
  let b := { base with handle := new, homeDev := s.device, homeEpoch := 1, mirrorDev := 0x7FF, mirrorEpoch := 0, mirrorAcked := 0xFFFFFFFF,
                       outRing := fld s Reg.SES_SHADOW_RING.ring, shadowOf := .free, verb := none, prefixRef := 0, tTouch := s.timebase,
                       place := .shelf, guest := false, cancelPending := false, posted := false }
  if k = 0 then { b with step := cutStep, fixed := false }
  else
    { b with state := .prefilling, restoring := some d.state, step := cutStep + k - 1, inTokens := toks, fixed := true, pendingToken := next, fixing := some f,
             sampler := { d.sampler with autoState := auto }, holdBytes := hold,
             maxTokens := if d.maxTokens = 0xFFFFFFFF then d.maxTokens else d.maxTokens - (k - 1) }

/-- The record that TRUNK_RESTORE writes for a session at the result address. -/
def restRecord (x : RestSess) : List Nat :=
  leBytes 8 x.old ++ leBytes 8 x.new ++ leBytes 4 x.step ++ [(x.status.getD .ok).code] ++ List.replicate 11 0

/-- Every restore step is sealed: the records, OK (R503 step 7). A session that ended first fails the restore (R271). -/
def checkRest (s : State) (req : Nat) : State :=
  match restOf s req with
  | none => s
  | some r =>
    if !r.started then s
    else match r.sessions.find? fun x => match sessOf s x.new with | some y => y.state = .retiring | none => true with
    | some x => failRest s r ((sessOf s x.new).elim .tierFault fun y => if y.fault = .ok then .cancelled else y.fault) 0x9
    | none =>
      if r.sessions.any fun x => (sessOf s x.new).elim false (·.restoring.isSome) then s
      else
        let s := emit s (.hostWrite r.resultAddr (r.sessions.map restRecord).flatten)
        complete { s with trunk := { s.trunk with rests := dropFirst (fun q => q.request = r.request) s.trunk.rests } } r.sub .ok 0 []

/-- Every host has restored its shard: the restore steps are submitted (R503 step 6). -/
def startRest (s : State) (r : TrunkRest) : State :=
  if r.started || !r.hosts.all r.restored.contains then s
  else
    let s := setRest s { r with started := true }
    let s := r.sessions.foldl (fun s x => match sessOf s x.new with
      | some y => if y.restoring.isSome then startOwnStep s x.new else setState s x.new (if y.state = .active then .active else parkState s x.new)
      | none => s) s
    checkRest s r.request

/-- Give every session of the manifest a handle of this controller; none where serials or shelves run out. -/
def restHandles : State → Nat → List (Nat × Nat) → Option (State × List (Nat × Nat))
  | s, _, [] => some (s, [])
  | s, ctx, (h, _) :: t =>
    if sessionLimit s ≤ (countedSess s).length + t.length || !shelfComes s then none
    else match nextSerial s with
      | none => none
      | some (serial, gen) =>
        (restHandles (takeSerial s) ctx t).map fun q => (q.1, (h, mkHandle s.device ctx serial gen) :: q.2)

/-- TRUNK_RESTORE: the manifest and the home's own shard as read from the store (`none` where a read fails), the token log,
whether the shard's digest verifies. -/
def doRestore (s : State) (sub : Sub) (store resultAddr rsv : Nat) (man : Option Manifest) (shard : Option (List ShardSess)) (shardOk : Bool)
    (log : Option (List LogRecord)) : State :=
  if rsv ≠ 0 || 512 ≤ store then refuse s sub .versionMismatch 0x2
  else match ctxBad s sub.context with
  | some (st, d) => refuse s sub st d
  | none =>
    match man with
    | none => refuse s sub .tierFault 0x9
    | some m =>
      if !manifestOk s m then refuse s sub .digestMismatch 0x2
      else if m.context ≠ sub.context then refuse s sub .protection 0x1
      else if m.shards.any fun r => (shardHost s r).isNone then refuse s sub .versionMismatch 0x13
      else match restHandles s sub.context m.sessions, paramsOf s sub.context with
      | none, _ => refuse s sub .noCapacity 0x5
      | _, none => refuse s sub .badHandle 0x1
      | some (s1, pairs), some p =>
        if !shardOk then refuse s sub .digestMismatch 0x3
        else match shard, log with
        | none, _ => refuse s sub .tierFault 0x9
        | _, none => refuse s sub .tierFault 0x9
        | some secs, some lg =>
          let new (h : Nat) : Nat := ((pairs.find? (·.1 = h)).map (·.2)).getD 0
          let homeSecs := secs.filter fun q => q.desc.isSome && pairs.any (·.1 = q.handle)
          if homeSecs.length < pairs.length then refuse s sub .tierFault 0x9
          else
            let recs := homeSecs.map fun q => (q, restoredSession s1 (q.desc.getD (descOf { handle := 0 })) (new q.handle) q.cutStep (logOf lg q.handle))
            let s2 := recs.foldl (fun s r => setSess s { r.2 with length := r.1.length }) s1
            let s3 := recs.foldl (fun s r => loadShard s { r.2 with length := r.1.length } p r.1) s2
            if !restoreRoom s3 (recs.map (·.2.handle)) then refuse s sub .noCapacity 0x5
            else
              let others := m.shards.filter fun r => (shardHost s3 r).elim false fun q => q.device ≠ s3.device
              let r : TrunkRest := { request := s3.trunk.nextReq, sub := sub, context := sub.context, resultAddr := resultAddr,
                                     hosts := others.filterMap fun o => (shardHost s3 o).map (·.device), shard := secs, log := lg,
                                     sessions := recs.map fun q => { old := q.1.handle, new := q.2.handle,
                                                                     step := if q.2.restoring.isSome then q.2.step + 1 else q.2.step, target := (q.1.desc.elim .active (·.state)) } }
              let s4 := { s3 with trunk := { s3.trunk with nextReq := s3.trunk.nextReq + 1, rests := s3.trunk.rests ++ [r] } }
              let s5 := others.foldl (fun s o => match shardHost s o with
                | some q => sendMsg s q.device (.trunkReq { op := 3, epoch := q.epoch, src := s.device, request := r.request, context := r.context,
                                                            serial := m.serial, store := store, handles := m.sessions, shard := some o, pairs := pairs })
                | none => s) s4
              startRest s5 r

/-- TRUNK_REQ op 3 RESTORE at a host: reserve, read, verify, write, answer. -/
def takeReqRestore (s : State) (r : TrunkReq) (shard : Option (List ShardSess)) (shardOk : Bool) : State :=
  match paramsOf s r.context with
  | none => trunkAnswer s r.src 3 r.request .noCapacity 0x5 0
  | some p =>
    if !shardOk then trunkAnswer s r.src 3 r.request .digestMismatch 0x3 0
    else match shard with
    | none => trunkAnswer s r.src 3 r.request .tierFault 0x9 0
    | some secs =>
      let new (h : Nat) : Option Nat := (r.pairs.find? (·.1 = h)).map (·.2)
      let guest (q : ShardSess) (h : Nat) : Session :=
        { handle := h, state := .active, partition := ctxPart s r.context, homeDev := r.src, homeEpoch := 1, guest := true, tOpen := s.timebase,
          step := q.cutStep, length := q.length }
      let mine := secs.filterMap fun q => (new q.handle).map fun h => (q, guest q h)
      let s1 := mine.foldl (fun s m => loadShard (setSess s m.2) m.2 p m.1) s
      if !restoreRoom s1 (mine.map (·.2.handle)) then trunkAnswer s r.src 3 r.request .noCapacity 0x5 0
      else
        let t : TrunkHosted := { home := r.src, request := r.request, handles := mine.map (·.2.handle) }
        trunkAnswer { s1 with trunk := { s1.trunk with hosted := s1.trunk.hosted ++ [t] } } r.src 3 r.request .ok 0 0

/-- TRUNK_RSP op 3 RESTORED at the home of a restore. -/
def restAnswer (s : State) (q : TrunkRsp) : State :=
  match restOf s q.request with
  | none => s
  | some r =>
    if !r.hosts.contains q.src || r.started then s
    else if q.status ≠ .ok then failRest s r q.status q.detail
    else
      let r := { r with restored := if r.restored.contains q.src then r.restored else r.restored ++ [q.src] }
      startRest (setRest s r) r

/-- TRUNK_REQ op 2 ABORT: what a cut or a restore reserved or wrote here is freed, a finished shard of it too. -/
def takeReqAbort (s : State) (r : TrunkReq) : State :=
  let s := match cutRec s r.src r.request with
    | some c => endActivity (releaseCut s c) 5 [scCtx c.context, scStore c.store]
    | none => { s with trunk := { s.trunk with trunks := s.trunk.trunks.filter fun t => t.home || !(t.serial = r.serial && t.context = r.context) } }
  let mine := s.trunk.hosted.filter fun t => t.home = r.src && t.request = r.request
  let s := { s with trunk := { s.trunk with hosted := s.trunk.hosted.filter fun t => !mine.contains t } }
  mine.foldl (fun s t => t.handles.foldl dropGuest s) s

/-- What the rest of the machine's progress means for trunks: cuts of a context being torn down end, cut points fall due,
parked sessions are logged, restores complete. -/
def trunkSettle (s : State) : State :=
  let s := (s.trunk.cuts.filter fun c => c.home = s.device && (tget? s.contexts c.context).elim true (·.torn.isSome)).foldl
    (fun s c => failCut s c .contextTorn 0x0) s
  let s := (s.trunk.rests.filter fun r => (tget? s.contexts r.context).elim true (·.torn.isSome)).foldl (fun s r => failRest s r .contextTorn 0x0) s
  let s := logParked (cutPoints s)
  (s.trunk.rests.map (·.request)).foldl checkRest s

/-- A table swap that a context's teardown ended gives up its activity (R287, R511). -/
def swapSettle (s : State) : State :=
  (s.maint.running.filter fun a => a.no = 6 && !s.tok.swaps.any (·.scope = a.scope)).foldl (fun s a => endActivity s 6 a.scope) s

/-- Lockdown is in force once no part it waits for holds step slots (R520). -/
def lockSettle (s : State) : State :=
  match s.sec.lockWait with
  | none => s
  | some l =>
    if s.steps.parts.any fun p => l.contains p.stepRef && p.entries.any fun e => decide (0 < e.ownKib + e.sharedKib) then s
    else report (measChanged { s with sec := { s.sec with lockdown := true, lockWait := none } } 27) 0x1704 0 0 []

/-- Everything that a command's effect lets go on: steps and messages, handovers, trunks, lockdown; nothing starts during a save
(R543). -/
def settleAll (s : State) : State := if s.clk.phase = .saving then s else lockSettle (swapSettle (trunkSettle (runAgain (runHandovers (settle s)))))

end Sys2Proof.Machine
end

