-- ==== Sys2Proof/Machine/StepCmds.lean ====
section
/-! DEFINITION. The commands of semaphores, attention, near-bank units, the dense engine and steps. -/
namespace Sys2Proof.Machine

/-- A command's effect in full service, followed by what it lets go on. -/
def act (f : State → State) : State → State := whenUp fun s => settleAll (f s)

/-- The effect of a register write of the host, followed by what it lets go on. -/
def hostAct (f : State → State) : State → State := hostAccess fun s => settleAll (f (dropShadow s))

/-- A command or message that names a session promotes a shadow of a lost home first (R491). -/
def naming (h : Nat) (f : State → State) : State → State := fun s => f (promoteIfLost s h)

/-- Promote every session a list of handles names, where its home is lost. -/
def namingAll (hs : List Nat) (f : State → State) : State → State := fun s => f (hs.foldl promoteIfLost s)

/-! ### Semaphores -/

/-- SEM_ACQUIRE (R282): `rsv` is the OR of the entry's reserved bits. -/
def execSemAcquire (sub : Sub) (sem cls rsv : Nat) (s : State) : Host.Outcome State Fault Refusal :=
  run s (whenUp (verb 1 sub fun s =>
    if rsv ≠ 0 || 4096 ≤ sem || 4 ≤ cls then refuse s sub .versionMismatch 0x2
    else match ctxBad s sub.context with
      | some (st, d) => refuse s sub st d
      | none => semAcquire s sub s.device sem cls))

/-- SEM_RELEASE (R283). -/
def execSemRelease (sub : Sub) (sem rsv : Nat) (s : State) : Host.Outcome State Fault Refusal :=
  run s (act (verb 1 sub fun s =>
    if rsv ≠ 0 || 4096 ≤ sem then refuse s sub .versionMismatch 0x2
    else match ctxBad s sub.context with
      | some (st, d) => refuse s sub st d
      | none => semRelease s sub s.device sem))

/-- SEM_GRANT (R281, R282): the oldest waiter that a semaphore has passed to completes. -/
def execSemGrant (sem : Nat) (s : State) : Host.Outcome State Fault Refusal :=
  run s (whenUp fun s =>
    let x := semOf s sem
    match x.granted with
    | [] => s
    | (w, m) :: t =>
      complete (setSem s sem { x with granted := t }) w.sub (if m.isSome then .abandoned else .ok) 0 (semResults m (s.timebase - w.since)))

/-- SEM_REQ of a remote device at the semaphores (R286): the verb's opcode, its entry, and the device. -/
def takeSemReq (s : State) (src op : Nat) (sub : Sub) (sem cls : Nat) : State :=
  let sub := { sub with ring := remoteRing + src }
  if 4096 ≤ sem || 4 ≤ cls then refuse s sub .versionMismatch 0x2
  else if op = 0x80 then semAcquire s sub src sem cls
  else if op = 0x81 then semRelease s sub src sem
  else refuse s sub .versionMismatch 0x2

/-- SEM_REQ (R286). -/
def execSemReq (src op : Nat) (sub : Sub) (sem cls : Nat) (s : State) : Host.Outcome State Fault Refusal :=
  run s (act fun s => takeSemReq s src op sub sem cls)

/-- SEM_INHERIT_LIMIT (R284): the holder's context is torn down; a remote holder's semaphore is abandoned. -/
def execSemInheritLimit (sem : Nat) (s : State) : Host.Outcome State Fault Refusal :=
  run s (act fun s =>
    let x := semOf s sem
    match x.holder with
    | some h =>
      if x.inherit.isNone then s
      else
        let s := report s 0x0806 sem 0 [sem, h.ctx]
        let s := abandonAll s 4 fun y => y.dev = h.dev && y.ctx = h.ctx
        if h.dev = s.device then teardown s h.ctx { trigger := 4, unit := 0, code := 0 } none else s
    | none => s)

/-! ### The attention service -/

/-- ATN_QKV (R166), from the links of a half. -/
def execAtnQkv (half : Nat) (q : AtnQkv) (s : State) : Host.Outcome State Fault Refusal :=
  run s (act (naming q.handle fun s => takeQkv s half q))

/-- ATN_QKV_EARLY_HOLD_EXPIRY (R629): the hold of a work of the attention service is over. -/
def execAtnQkvEarlyHoldExpiry (id : Nat) (s : State) : Host.Outcome State Fault Refusal :=
  run s (act fun s => expireQkv s id)

/-- DLG_BLOCK (R249) at a delegate. -/
def execDlgBlock (half : Nat) (m : DlgBlock) (s : State) : Host.Outcome State Fault Refusal :=
  run s (act fun s => takeDlgBlock s half m)

/-- DLG_OUT (R250). -/
def execDlgOut (m : DlgOut) (s : State) : Host.Outcome State Fault Refusal :=
  run s (act fun s => takeDlgOut s m)

/-- DLG_TIMEOUT (R250): the request of that number has had no answer in timeout_us. -/
def execDlgTimeout (request : Nat) (s : State) : Host.Outcome State Fault Refusal :=
  run s (act fun s => dlgTimeout s request)

/-! ### Tiles -/

/-- TILE_COMMAND_END (R238): the command on a tile ends with a code; `nbu` and `page` place a bank error, `macs` and
`cycles` are measured. -/
def execTileCommandEnd (tile code nbu page macs cycles : Nat) (s : State) : Host.Outcome State Fault Refusal :=
  run s (act fun s =>
    if s.den.hostCmd.elim false (·.1 = tile) then finishHostCmd s code cycles macs else endTile s tile code nbu page macs)

/-- TILE_CYCLE_LIMIT (R238). -/
def execTileCycleLimit (tile cycles : Nat) (s : State) : Host.Outcome State Fault Refusal :=
  run s (act fun s =>
    if s.den.hostCmd.elim false (·.1 = tile) then finishHostCmd s 0x05 cycles 0 else endTile s tile 0x05 0 0 0)

/-- TILE_DISPATCH (R241): a free tile takes the next command. -/
def execTileDispatch (tile : Nat) (s : State) : Host.Outcome State Fault Refusal :=
  run s (whenUp fun s => dispatchTile s tile)

/-- DEN_TEST_CTL_GO (R251): a write of DEN_TEST_CTL with go 1 and the tile. -/
def execDenTestCtlGo (tile : Nat) (s : State) : Host.Outcome State Fault Refusal :=
  run s (hostAccess fun s =>
    let s := dropShadow s
    if flag s Reg.DEN_TEST_CTL.busy || (partTiles s.part).isEmpty then s else startHostCmd (setFld s Reg.DEN_TEST_CTL.tile tile))

/-! ### Steps -/

/-- STP_DESC (R255). -/
def execStpDesc (d : StepDesc) (s : State) : Host.Outcome State Fault Refusal :=
  run s (act (namingAll (d.entries.map (·.handle)) fun s => takeDesc s d))

/-- PART_START (R258): the waiting part of a step reference starts. -/
def execPartStart (ref : Nat) (s : State) : Host.Outcome State Fault Refusal :=
  run s (act fun s => partStart s ref)

/-- CREDIT_WAIT_EXPIRY (R277): a part that has waited credit_wait_us pre-empts for the shared-pool credits it lacks. -/
def execCreditWaitExpiry (ref : Nat) (s : State) : Host.Outcome State Fault Refusal :=
  run s (act fun s =>
    match partOf s ref with
    | some p =>
      match creditShort s ref with
      | none => s
      | some (n, need) =>
        match coverVictims (fun v => sharedCredits s v.stepRef n) (victims s (partClass s p)) need with
        | some vs => vs.foldl (fun s v => preemptPart s (partClass s p) v) s
        | none => s
    | none => s)

/-- STP_PREPARED (R264). -/
def execStpPrepared (m : StepMsg) (s : State) : Host.Outcome State Fault Refusal :=
  run s (act fun s => takePrepared s m)

/-- STP_SEAL (R265) at a participant. -/
def execStpSeal (m : StepMsg) (s : State) : Host.Outcome State Fault Refusal :=
  run s (whenLive fun s => settleAll (sealParticipant s m))

/-- STP_SEAL_MIRROR (R264): STP_SEAL with MIRROR at a mirror. -/
def execStpSealMirror (m : StepMsg) (s : State) : Host.Outcome State Fault Refusal :=
  run s (act fun s => sealMirror s m)

/-- STP_SEAL_ACK (R264). -/
def execStpSealAck (m : StepMsg) (s : State) : Host.Outcome State Fault Refusal :=
  run s (act fun s => sealAck s m)

/-- STP_KILLED (R272) at the home. -/
def execStpKilled (m : StepMsg) (s : State) : Host.Outcome State Fault Refusal :=
  run s (act fun s => takeKilled s m)

/-- STP_ABORT (R272) at a participant, a sender or the submitter. -/
def execStpAbort (m : StepMsg) (s : State) : Host.Outcome State Fault Refusal :=
  run s (act fun s => takeAbort s m)

/-- STP_DONE at the submitter (R274): the results under the step reference. -/
def takeDone (s : State) (m : StepMsg) : State := submitterDone s m.stepRef m.attempt m.entries

/-- STP_DONE (R274). -/
def execStpDone (m : StepMsg) (s : State) : Host.Outcome State Fault Refusal :=
  run s (act fun s => takeDone s m)

/-- SEAL_RETRY_EXPIRY (R266): the unacknowledged seals of a step are sent again. -/
def execSealRetryExpiry (ref : Nat) (s : State) : Host.Outcome State Fault Refusal :=
  run s (act fun s => resendSeals s ref)

/-- A prepared entry of a participant asks its home (R267); once eight queries have gone unanswered it posts STEP_IN_DOUBT. -/
def prepQuery (s : State) (ref i : Nat) : State :=
  match partOf s ref with
  | none => s
  | some p =>
    match p.entries[i]? with
    | none => s
    | some e =>
      if !e.prepared || !liveEntry e || isHome s p then s
      else
        let s := sendPrepared (modEntry s ref i fun e => { e with queries := e.queries + 1 }) ref i
        if e.queries = 8 then report s 0x0803 (ref % 2 ^ 24) 0 [ref, e.attempt] else s

/-- PREP_QUERY_EXPIRY (R267). -/
def execPrepQueryExpiry (ref entry : Nat) (s : State) : Host.Outcome State Fault Refusal :=
  run s (act fun s => prepQuery s ref entry)

/-- An entry held for the commit before it is checked again: still one step ahead, it is refused under order 12 (R255). -/
def entryHoldOver (s : State) (ref i : Nat) : State :=
  let s := checkEntry s ref i
  match partOf s ref with
  | none => s
  | some p =>
    match p.entries[i]? with
    | none => s
    | some e =>
      let ahead : Bool := (sessOf s e.handle).elim false fun x => e.step = (x.step + 1) % 2 ^ 32
      if !e.admitted && liveEntry e && ahead then failEntry s ref i .badHandle 0x6 else s

/-- STP_ENTRY_EARLY_HOLD_EXPIRY (R255). -/
def execStpEntryEarlyHoldExpiry (ref entry : Nat) (s : State) : Host.Outcome State Fault Refusal :=
  run s (act fun s => entryHoldOver s ref entry)

/-- CONTEXT_SLOT_FREE (R287). -/
def execContextSlotFree (ctx : Nat) (s : State) : Host.Outcome State Fault Refusal :=
  run s (whenUp fun s => freeContext s ctx)

/-- STEP_SUBMIT (R275): the descriptor that desc_addr holds, desc_len, result_addr and the entry's reserved bits. -/
def execStepSubmit (sub : Sub) (d : StepDesc) (len resultAddr rsv : Nat) (s : State) : Host.Outcome State Fault Refusal :=
  run s (act (verb 1 sub fun s => namingAll (d.entries.map (·.handle)) (fun s => doSubmit s sub d len resultAddr rsv) s))

/-- STEP_KILL (R276). -/
def execStepKill (sub : Sub) (ref rsv : Nat) (s : State) : Host.Outcome State Fault Refusal :=
  run s (act (verb 1 sub fun s => doKill s sub ref rsv))

end Sys2Proof.Machine
end

