-- ==== Sys2Proof/Machine/Tables.lean ====
section
/-! DEFINITION. The commands of the token services: TBL_SWAP, tokenizing, logits, sampling, the embedding row cache
(chapter "Tokens, sampling and embeddings"). -/
namespace Sys2Proof.Machine

/-! ### Table swaps (R347 to R350, R372, R373) -/

/-- Capability bit of a slot's unit: tokenizer, embedding unit, constraint unit (R53). -/
def slotCap (i : Nat) : Nat := if i < 4 then 8 else if i < 8 then 9 else 7

/-- 4 KiB units that a table image takes: 64 KiB units of the vocabulary hash region, 4 KiB units of the store room. -/
def tableSpace (slot length : Nat) : Nat := if slot < 4 then ceilDiv length 65536 * 16 else ceilDiv length 4096

/-- 4 KiB units of the vocabulary hash region in use. -/
def vocabUsed (s : State) : Nat :=
  sumOf (s.tok.slots.map fun t => if t.1 < 4 then t.2.space else 0) +
    sumOf (s.tok.swaps.map fun w => match w.target with | .load i t => if i < 4 then t.space else 0 | _ => 0)

/-- A table of some units fits in the free space of its region (order 4 of R348). -/
def tableFits (s : State) (slot n : Nat) : Bool :=
  if slot < 4 then decide (vocabUsed s + n ≤ s.lay.active.sram.vocab * 256) else decide (storeUsed s + n ≤ storeUnits s)

/-- A context holds an open session. -/
def hasOpen (s : State) (ctx : Nat) : Bool := 0 < openSessions s ctx false

/-- A new table is incompatible with open sessions that use an old one (R372). -/
def bodyClash (old new : TableBody) : Bool :=
  match old, new with
  | .vocab a, .vocab b => a.strings.length ≠ b.strings.length
  | .embed a, .embed b => a.width ≠ b.width
  | .constr a, .constr b => a.autos ≠ b.autos
  | _, _ => true

/-- The body of the table in a slot. -/
def slotBody (s : State) (i : Option Nat) : Option TableBody := (i.bind (slotTable s)).map (·.body)

/-- Two slots of a binding clash: both name a table and the tables differ in what R372 lists. -/
def slotClash (s : State) (old new : Option Nat) : Bool :=
  match slotBody s old, slotBody s new with
  | some a, some b => bodyClash a b
  | _, _ => false

/-- A BIND is incompatible with the open sessions of its context (R372). -/
def bindClash (s : State) (ctx : Nat) (b : Binding) : Bool :=
  match bindingOf s ctx with
  | none => false
  | some o =>
    let auto : Bool := s.sess.table.any fun p => hCtx p.2.handle = ctx && !p.2.guest && p.2.state ≠ .free && p.2.sampler.autoId ≠ 0
    hasOpen s ctx && (slotClash s o.vocab b.vocab || slotClash s o.embed b.embed || slotClash s o.constr b.constr ||
      (o.vocab.isSome && b.vocab.isNone) || (o.constr.isSome && b.constr.isNone && auto))

/-- Firmware raises HAT_PROJ.home_per_ns for a bound vocabulary (R363). -/
def raiseHome (s : State) (v : Nat) : State :=
  let need := ceilDiv ((64 + ceilDiv v 1024 + 2048) * 5) 24
  let s := if s.hatch.floorPer < need then { s with hatch := { s.hatch with floorPer := need } } else s
  if fld s Reg.HAT_PROJ.home_per_ns < need then setFld s Reg.HAT_PROJ.home_per_ns need else s

/-- The vocabulary size of a table. -/
def bodyV : TableBody → Option Nat
  | .vocab v => some v.strings.length
  | _ => none

/-- The kind of a table as TABLE_SWAPPED names it (R374). -/
def bodyKind : TableBody → Nat
  | .vocab _ => 1
  | .embed _ => 2
  | .constr _ => 3

/-- The first 8 bytes of a digest. -/
def digestHead (d : Nat) : Nat := d / 2 ^ 320

/-- A table enters a slot: its owner is the loading context, or the one that owned it before (R347). -/
def putTable (s : State) (slot : Nat) (t : Table) : State :=
  let s := { s with tok := { s.tok with slots := tset s.tok.slots slot t, cache := s.tok.cache.filter (·.slot ≠ slot) } }
  let s := match bodyV t.body with | some v => if (bindersOf s slot).isEmpty then s else raiseHome s v | none => s
  measChanged s (11 + slot)

/-- A context takes a binding. -/
def putBinding (s : State) (ctx : Nat) (b : Binding) : State :=
  let s := { s with contexts := tmodIf s.contexts ctx fun c => { c with binding := some b } }
  let s := match (slotBody s b.vocab).bind bodyV with | some v => raiseHome s v | none => s
  sweepTables s

/-- The switch of a swap (step 4 of R373): op, slot, kind and digest head of TABLE_SWAPPED, and the context of a BIND. -/
def switchTo (s : State) (target : SwapTo) : State × List Nat :=
  match target with
  | .load i t => (putTable s i t, [1, i, bodyKind t.body, digestHead t.digest])
  | .bind c b => (putBinding s c b, [2, 0xFF, 0, 0, c])
  | .free i =>
    match slotTable s i with
    | some t => (dropTable s i, [3, i, bodyKind t.body, digestHead t.digest])
    | none => (s, [3, i, 0, 0])

/-- The scope of a swap for the arbiter (R511). -/
def swapScope (s : State) (target : SwapTo) : List Nat :=
  match target with
  | .load i _ => [scSlot i]
  | .free i => [scSlot i]
  | .bind c b =>
    let own := match bindingOf s c with | some o => [o.vocab, o.embed, o.constr] | none => []
    distinct (((own ++ [b.vocab, b.embed, b.constr]).filterMap id).map scSlot)

/-- The waiting session verbs that no swap concerns any longer start (step 5 of R373). -/
def unpause (s : State) : State :=
  let stay (v : SessVerb) : Bool := s.steps.paused || swapping s v.sub.context
  let go := s.tok.paused.filter fun v => !stay v
  let s := { s with tok := { s.tok with paused := s.tok.paused.filter stay } }
  go.foldl (fun s v => match v with
    | .open_ sub a => doOpen s sub a
    | .resume sub a => doResume s sub a
    | _ => s) s

/-- The work that a swap waits for in its contexts (step 3 of R373): tokenizing, sampling, parts that have started. -/
def swapBusy (s : State) (w : Swap) : Bool :=
  (s.sess.table.any fun p => w.ctxs.contains (hCtx p.2.handle) && (p.2.input.isSome || p.2.coveredAt.isSome)) ||
    s.steps.parts.any fun p => w.ctxs.contains p.context && p.entries.any fun e => liveEntry e && e.started

/-- Steps 4 and 5 of R373 for a swap whose work is over. -/
def finishSwap (s : State) (w : Swap) : State :=
  let s := { s with tok := { s.tok with swaps := s.tok.swaps.erase w } }
  let (s, ev) := switchTo s w.target
  let s := endActivity s 6 w.scope
  let s := complete s w.sub .ok 0 []
  unpause (report s 0x0B01 (ev.getD 1 0) 0 ev)

/-- The first swap that nothing keeps. -/
def switchNext (s : State) : State :=
  match s.tok.swaps.find? fun w => !swapBusy s w with
  | some w => finishSwap s w
  | none => s

/-- Order 6 of R348, then the swap: at once where nothing is in its way, else recorded. -/
def admitSwap (s : State) (sub : Sub) (target : SwapTo) (ctxs : List Nat) : State :=
  let sc := swapScope s target
  match admitActivity s { no := 6, scope := sc } with
  | .error (s, _) => refuse s sub .busyMaint 0x1
  | .ok s =>
    let w : Swap := { sub := sub, target := target, ctxs := ctxs, scope := sc }
    let s := { s with tok := { s.tok with swaps := s.tok.swaps ++ [w] } }
    if swapBusy s w then s else finishSwap s w

/-- The general checks of a TBL_SWAP (R45), then `f`. -/
def swapGate (s : State) (sub : Sub) (rsv cap level : Nat) (f : State → State) : State :=
  if rsv ≠ 0 || s.attached < level then refuse s sub .versionMismatch 0x2
  else match tget? s.contexts sub.context with
    | none => refuse s sub .badHandle 0x1
    | some c =>
      if !hasCap s cap then refuse s sub .unitAbsent 0x0
      else if c.torn.isSome then refuse s sub .contextTorn 0x0
      else f s

/-- Contexts whose work a change of a slot's table waits for. -/
def openBinders (s : State) (slot : Nat) : List Nat := bindersOf s slot

/-- TBL_SWAP LOAD (R347, R348). -/
def doLoadTable (s : State) (sub : Sub) (slot flags length : Nat) (img : List Nat) : State :=
  let boundV := (vocabOf s sub.context).map (·.strings.length)
  if 16 ≤ slot || 2 ≤ flags then refuse s sub .versionMismatch 0x10
  else match parseTable slot img length boundV with
    | .error .structure_ => refuse s sub .versionMismatch 0x10
    | .error .digest => refuse s sub .digestMismatch 0x1
    | .ok (body, dig) =>
      let old := slotTable s slot
      let owner := match old with | some t => t.owner.getD sub.context | none => sub.context
      let n := tableSpace slot length
      let clash : Bool := match old with
        | some t => bodyClash t.body body && (bindersOf s slot).any (hasOpen s)
        | none => false
      if owner ≠ sub.context then refuse s sub .protection 0x5
      else if !tableFits s slot n then refuse s sub .noCapacity 0x10
      else if clash then refuse s sub .versionMismatch 0xF
      else
        admitSwap s sub (.load slot { body := body, digest := dig, shared := flags = 1, owner := some sub.context, space := n })
          (if old.isSome then openBinders s slot else [])

/-- A slot of a bind block, in its range, 0xFF none: `none` where it is out of range. -/
def bindSlot (b lo hi : Nat) : Option (Option Nat) :=
  if b = 0xFF then some none else if lo ≤ b && b ≤ hi then some (some b) else none

/-- The bind block of R349: `none` where it breaks the table. -/
def parseBind (s : State) (b : List Nat) : Option Binding :=
  let k := leAt b 3 1
  let sl := leAt b 4 1
  let dest (i : Nat) : Nat := leAt b (32 + 2 * i) 2
  match bindSlot (leAt b 0 1) 0 3, bindSlot (leAt b 1 1) 4 7, bindSlot (leAt b 2 1) 8 15 with
  | some v, some e, some c =>
    let held (i : Option Nat) : Bool := match i with | some i => (slotTable s i).isSome | none => true
    let w := match slotBody s e with | some (.embed t) => t.width | _ => 0
    let sliceOk : Bool := sl = 0 || (w % k = 0 && w / k % 16 = 0)
    let destOk : Bool := (List.range 16).all fun i => if i < k then dest i < 2048 else dest i = 0
    if 1 ≤ k && k ≤ 16 && sl ≤ 1 && sliceOk && destOk && (slice b 5 27).all (· = 0) && held v && held e && held c then
      some { vocab := v, embed := e, constr := c, dests := (List.range k).map dest, slice := sl = 1 }
    else none
  | _, _, _ => none

/-- The constraint table of a binding has the vocabulary's V (R364). -/
def bindVocabOk (s : State) (b : Binding) : Bool :=
  match slotBody s b.constr, slotBody s b.vocab with
  | some (.constr c), some (.vocab v) => c.v = v.strings.length
  | some (.constr _), _ => false
  | _, _ => true

/-- TBL_SWAP BIND (R348, R349). -/
def doBindTable (s : State) (sub : Sub) (flags length : Nat) (block : List Nat) : State :=
  match (if flags ≠ 0 || length ≠ 64 then none else parseBind s block) with
  | none => refuse s sub .versionMismatch 0x10
  | some b =>
    let mine (i : Option Nat) : Bool := match i.bind (slotTable s) with
      | some t => t.shared || t.owner.isNone || t.owner = some sub.context
      | none => true
    if !bindVocabOk s b then refuse s sub .versionMismatch 0x10
    else if s.attached < 3 && b.constr.isSome then refuse s sub .versionMismatch 0x2
    else if !(mine b.vocab && mine b.embed && mine b.constr) then refuse s sub .protection 0x5
    else if bindClash s sub.context b then refuse s sub .versionMismatch 0xF
    else admitSwap s sub (.bind sub.context b) (if hasOpen s sub.context then [sub.context] else [])

/-- TBL_SWAP FREE (R347, R348). -/
def doFreeTable (s : State) (sub : Sub) (op slot flags : Nat) : State :=
  if op ≠ 3 || 16 ≤ slot || flags ≠ 0 then refuse s sub .versionMismatch 0x10
  else match slotTable s slot with
    | none => complete s sub .ok 0 []
    | some t =>
      if t.owner.isSome && t.owner ≠ some sub.context then refuse s sub .protection 0x5
      else if !(bindersOf s slot).isEmpty then refuse s sub .versionMismatch 0xF
      else admitSwap s sub (.free slot) []

/-- TBL_SWAP_LOAD (R347): slot, flags, length, the image at addr; `rsv` is the OR of the entry's reserved bits and of addr's
low three bits. -/
def execTblSwapLoad (sub : Sub) (slot flags length rsv : Nat) (img : List Nat) (s : State) : Host.Outcome State Fault Refusal :=
  run s (act (verb 2 sub fun s =>
    swapGate s sub rsv (slotCap slot) (if 8 ≤ slot then 3 else 0) fun s => doLoadTable s sub slot flags length img))

/-- TBL_SWAP_BIND (R349): flags, length, the bind block at addr. -/
def execTblSwapBind (sub : Sub) (flags length rsv : Nat) (block : List Nat) (s : State) : Host.Outcome State Fault Refusal :=
  run s (act (verb 2 sub fun s => swapGate s sub rsv 8 0 fun s => doBindTable s sub flags length block))

/-- TBL_SWAP_FREE (R347): op 3, and every op that is neither LOAD nor BIND, which order 1 of R348 refuses. -/
def execTblSwapFree (sub : Sub) (op slot flags rsv : Nat) (s : State) : Host.Outcome State Fault Refusal :=
  run s (act (verb 2 sub fun s => swapGate s sub rsv (slotCap slot) 0 fun s => doFreeTable s sub op slot flags))

/-- TABLE_SWITCH (R373): the first swap whose work is over switches. -/
def execTableSwitch (s : State) : Host.Outcome State Fault Refusal := run s (act switchNext)

/-! ### Tokenizing (R353 to R355) -/

/-- Inputs waiting or served, C0 first, then by arrival. -/
def nextInputOf (s : State) : Option (Nat × Input) :=
  let l := s.sess.table.filterMap fun p => p.2.input.map fun i => (p.2.handle, p.2.cls, i)
  let first (a b : Nat × Nat × Input) : Bool :=
    if (a.2.1 = 0) ≠ (b.2.1 = 0) then a.2.1 = 0 else decide (a.2.2.order < b.2.2.order)
  match l.find? fun a => s.tok.serving = some a.2.2.order with
  | some a => some (a.1, a.2.2)
  | none => (sortBy first l).head?.map fun a => (a.1, a.2.2)

/-- The tokenizer takes its next input. -/
def serveNext (s : State) : State :=
  let s := { s with tok := { s.tok with serving := none } }
  { s with tok := { s.tok with serving := (nextInputOf s).map fun i => i.2.order } }

/-- Tokenizing of the input in service completes (R355). -/
def tokenizeDone (s : State) : State :=
  match nextInputOf s with
  | none => s
  | some (h, i) =>
    match vocabOf s (hCtx h) with
    | none => s
    | some v =>
      let toks := tokenizeText v (fld s Reg.TOK_CFG.head) (fld s Reg.TOK_CFG.tail) i.inLen i.data
      serveNext (inputReady s h toks (decide (textLimit < i.inLen)))

/-- TOKENIZE_COMPLETE (R355). -/
def execTokenizeComplete (s : State) : Host.Outcome State Fault Refusal := run s (act fun s => if s.clk.inReset.contains 18 then s else tokenizeDone s)

/-! ### Logits and sampling (R357 to R363) -/

/-- Why a LOGITS message ends its session's part (R358): malformed, covered twice, a wrong step. -/
def logitsBad (x : Session) (m : LogitsMsg) (rsv v : Nat) : Option (Status × Nat) :=
  if rsv ≠ 0 || 3 ≤ m.fmt || m.count = 0 || m.count ≠ m.values.length || v < m.first + m.count then some (.versionMismatch, 0x7)
  else if x.logits.any fun g => m.first < g.first + g.values.length && g.first < m.first + m.count then some (.versionMismatch, 0x9)
  else if m.step ≠ x.step then some (.badHandle, 0x6)
  else none

/-- LOGITS at the home (R358); `rsv` is the OR of the message's reserved bits. -/
def takeLogits (s : State) (m : LogitsMsg) (rsv : Nat) : State :=
  let stale := bump s Reg.SMP_COUNT.stale
  match sessOf s m.handle, partOf s m.stepRef with
  | some x, some p =>
    if x.guest || !isHome s p then stale
    else match entryIndex p m.handle with
      | none => stale
      | some i =>
        match p.entries[i]? with
        | none => stale
        | some e =>
          if !liveEntry e || !e.started || e.attempt ≠ m.attempt then stale
          else
            let v := (vocabOf s (hCtx m.handle)).elim 0 (·.strings.length)
            match logitsBad x m rsv v with
            | some (st, d) => failEntry s m.stepRef i st d
            | none =>
              let sl := x.logits ++ [{ first := m.first, fmt := m.fmt, values := m.values }]
              let full := logitsCovered sl v
              let s := setSess s { x with logits := sl, covered := full,
                                          coveredAt := if full then some s.tok.nextInput else x.coveredAt }
              if full then
                modPart { s with tok := { s.tok with nextInput := s.tok.nextInput + 1 } } m.stepRef fun p => { p with logitsAt := some s.timebase }
              else s
  | _, _ => stale

/-- LOGITS (R358). -/
def execLogits (m : LogitsMsg) (rsv : Nat) (s : State) : Host.Outcome State Fault Refusal :=
  run s (act (naming m.handle fun s => takeLogits s m rsv))

/-- The session whose turn at a sampler pipeline it is (R363): class order, then full coverage. -/
def nextSample (s : State) : Option Session :=
  let l := (tvals s.sess.table).filter fun x => x.coveredAt.isSome && !x.guest
  let first (a b : Session) : Bool :=
    if a.cls ≠ b.cls then decide (a.cls < b.cls) else decide (a.coveredAt.getD 0 < b.coveredAt.getD 0)
  (sortBy first l).head?

/-- A sampler pipeline draws the token of the session whose turn it is: with FIXED the fixed token stands (R358). -/
def sampleNext (s : State) : State :=
  match nextSample s with
  | none => s
  | some x =>
    let h := x.handle
    let s := modSess s h fun x => { x with coveredAt := none }
    match vocabOf s (hCtx h) with
    | none => s
    | some v =>
      let s := if x.fixed then s
        else
          let (t, fell) := chooseToken s x v
          let s := bump s Reg.SMP_COUNT.samples
          let s := if fell then report (bump s Reg.SMP_COUNT.fallback) 0x0B02 (hSerial h) 0 [h, x.step] else s
          fixToken s h t v
      let (ref, i) := flightOf s h
      trySeal s ref i

/-- SAMPLER_DRAW (R360). -/
def execSamplerDraw (s : State) : Host.Outcome State Fault Refusal := run s (act fun s => if s.clk.inReset.contains 18 then s else sampleNext s)

/-! ### The embedding row cache (R371) -/

/-- EMB_DECAY (R371): every use count is halved. -/
def execEmbDecay (s : State) : Host.Outcome State Fault Refusal :=
  run s (whenUp fun s => { s with tok := { s.tok with cache := s.tok.cache.map fun r => { r with uses := r.uses / 2 } } })

/-- A write of EMB_CFG: a value out of range is ignored; a change of mode empties the cache (R371). -/
def embCfgWrite (s : State) (w : RegWrite) : State :=
  let put (s : State) (f : Field) : State := match wget w f with | some v => if limOk f.lim v then setFld s f v else s | none => s
  let old := fld s Reg.EMB_CFG.mode
  let s := [Reg.EMB_CFG.mode, Reg.EMB_CFG.decay_us, Reg.EMB_CFG.depth].foldl put s
  if fld s Reg.EMB_CFG.mode = old then s else { s with tok := { s.tok with cache := [] } }

/-- EMB_CFG_WRITE (R371): a write that covers a field of EMB_CFG. -/
def execEmbCfgWrite (w : RegWrite) (s : State) : Host.Outcome State Fault Refusal :=
  run s (hostAccess fun s => embCfgWrite (dropShadow s) w)

end Sys2Proof.Machine
end

