-- ==== Sys2Proof/Machine/Contract.lean ====
section
/-! DEFINITION. The verbs of the contract: attachment, capabilities, contexts (chapter "The Olmer contract", R158 to R162,
R517, R518), and the session and inventory verbs' entries. -/
namespace Sys2Proof.Machine

/-- Contract levels implemented (R53). -/
def ctlMin : Nat := 1
/-- Highest contract level implemented. -/
def ctlMax : Nat := 3

/-- INVALID_OPCODE (R38): an entry with an opcode that is not listed, or with a nonzero reserved bit. -/
def execInvalidOpcode (sub : Sub) (s : State) : Host.Outcome State Fault Refusal :=
  run s (whenUp (verb 0 sub fun s => refuse s sub .versionMismatch 0x2))

/-! ### ATTACH, DETACH, QUERY_CAP -/

/-- The results of ATTACH: level, ctl_min, ctl_max, cap, missing (R48). -/
def attachResults (s : State) (level missing : Nat) : List Nat := [level, ctlMin, ctlMax, capWord s, missing]

/-- Bits required that the capability word lacks. -/
def missingCaps (s : State) (required : Nat) : Nat := maskOf ((setBits required 64).filter fun i => !bitOf (capWord s) i)

/-- ATTACH (R47 to R50). -/
def doAttach (s : State) (sub : Sub) (minLevel maxLevel required rsv : Nat) : State :=
  let level := Nat.min maxLevel ctlMax
  let missing := missingCaps s required
  if rsv ≠ 0 then complete s sub .versionMismatch 0x2 (attachResults s 0 0)
  else if sub.ring ≠ 0 then complete s sub .versionMismatch 0x3 (attachResults s 0 0)
  else if maxLevel < ctlMin || ctlMax < minLevel then complete s sub .versionMismatch 0x0 (attachResults s 0 0)
  else if missing ≠ 0 then complete s sub .unitAbsent 0x0 (attachResults s 0 missing)
  else if s.attached ≠ 0 && s.attached ≠ level then complete s sub .versionMismatch 0x4 (attachResults s 0 0)
  else
    let s := { s with attached := level }
    complete s sub .ok 0 (attachResults s level 0)

/-- ATTACH (R49): min_level, max_level, required, the entry's reserved bits. -/
def execAttach (sub : Sub) (minLevel maxLevel required rsv : Nat) (s : State) : Host.Outcome State Fault Refusal :=
  run s (whenUp (verb 0 sub fun s => doAttach s sub minLevel maxLevel required rsv))

/-- DETACH (R52): every context is destroyed, then the attachment ends. -/
def doDetach (s : State) (sub : Sub) (rsv : Nat) : State :=
  if rsv ≠ 0 then refuse s sub .versionMismatch 0x2
  else
    let s := { s with detaching := s.detaching ++ [sub] }
    endDetach ((tkeys s.contexts).foldl (fun s c => teardown s c { trigger := 3, unit := 0, code := 0 } none) s)

/-- DETACH (R52). -/
def execDetach (sub : Sub) (rsv : Nat) (s : State) : Host.Outcome State Fault Refusal :=
  run s (act (verb 1 sub fun s => doDetach s sub rsv))

/-- QUERY_CAP (R628). -/
def execQueryCap (sub : Sub) (rsv : Nat) (s : State) : Host.Outcome State Fault Refusal :=
  run s (whenUp (verb 0 sub fun s =>
    if rsv ≠ 0 then refuse s sub .versionMismatch 0x2
    else complete s sub .ok 0 [s.attached, ctlMin, ctlMax, capWord s]))

/-! ### The attention parameter block (R158 to R162) -/

/-- The host memory of CTX_CREATE: the block at params_addr and what its table addresses hold. -/
def blockField (b : List Nat) (o n : Nat) : Nat := leAt b o n

/-- A binary32 pattern is finite and at least zero. -/
def f32NonNeg (bits : Nat) : Bool := match decode32 bits with | .fin d => decide (0 ≤ d.m) | _ => false

/-- A binary32 pattern is finite and positive. -/
def f32Positive (bits : Nat) : Bool := match decode32 bits with | .fin d => decide (0 < d.m) | _ => false

/-- The default softmax scale log2(e) / √d in binary32 (R158). -/
def lambdaDefault (headDim : Nat) : Nat := if headDim = 64 then 0x3E38AA3B else if headDim = 128 then 0x3E0293EE else 0x3DB8AA3B

/-- The head dimension of its code. -/
def headDimOf (code : Nat) : Nat := if code = 0 then 64 else if code = 1 then 128 else 256

/-- A layer entry of its 64 bits (R159): `none` where it breaks the rule. -/
def parseLayer (e : Nat) : Option LayerEntry :=
  if e % 4 = 0 || 16 ≤ e then none else some { attn := bitOf e 0, ssm := bitOf e 1, full := bitOf e 2, noRope := bitOf e 3 }

/-- A list of options, none of them absent. -/
def allSome {α : Type} : List (Option α) → Option (List α)
  | [] => some []
  | none :: _ => none
  | some a :: t => (allSome t).map (a :: ·)

/-- The rules of the block's own fields (R158), the state-space fields only where it has state-space heads (DEDUCED). -/
def blockOk (b : List Nat) : Bool :=
  let f := blockField b
  let g := f 0x1B 1
  let lam := f 8 4
  let ssmOk : Bool := g = 0 || (f 0x1C 2 % 16 = 0 && 16 ≤ f 0x1C 2 && f 0x1C 2 ≤ 256 && f 0x1E 2 % 16 = 0 && 16 ≤ f 0x1E 2 && f 0x1E 2 ≤ 512 && f32NonNeg (f 0x20 4))
  f 0 1 = 1 && 1 ≤ f 1 1 && f 1 1 ≤ 32 && 1 ≤ f 2 1 && f 2 1 ≤ 16 && f 1 1 * f 2 1 ≤ 256 && f 3 1 ≤ 2 && 1 ≤ f 4 2 && f 4 2 ≤ 256 &&
    f 6 1 ≤ 1 && f 7 1 ≤ 1 && (lam = 0 || f32Positive lam) && f 0xC 2 % 2 = 0 && f 0xC 2 ≤ headDimOf (f 3 1) && f 0xE 1 ≤ 1 && f 0xF 1 = 0 &&
    f 0x18 2 ≤ 1024 && f 0x1A 1 ≤ 64 && g ≤ 64 && ssmOk && f 0x24 1 < 4 && f 0x25 3 = 0 && (slice b 0x38 72).all (· = 0)

/-- The numbers of `n` little-endian 4-byte values at an offset. -/
def words32 (l : List Nat) (o n : Nat) : List Nat := (List.range n).map fun i => leAt l (o + 4 * i) 4

/-- The state-space record at a place of the table (R160). -/
def parseSsm (t : List Nat) (g p i : Nat) : SsmRec :=
  let o := i * (4 * g + 8 * g * p)
  { a := words32 t o g, d := words32 t (o + 4 * g) (g * p), gamma := words32 t (o + 4 * g + 4 * g * p) (g * p) }

/-- A binary64 pattern is finite. -/
def f64Finite (bits : Nat) : Bool := bitsOf bits 52 11 ≠ 0x7FF

/-- The parameter block with its tables (R158 to R160, R162): `none` where it breaks a rule. -/
def parseParams (level : Nat) (b rot ssm layers : List Nat) : Option Params :=
  let f := blockField b
  let n := f 4 2
  let r := f 0xC 2
  let g := f 0x1B 1
  let p := f 0x1C 2
  let d := headDimOf (f 3 1)
  let rates := (List.range (r / 2)).map fun i => leAt rot (8 * i) 8
  match allSome ((List.range n).map fun i => parseLayer (leAt layers (8 * i) 8)) with
  | none => none
  | some ls =>
    let ns := (ls.filter (·.ssm)).length
    if !blockOk b || !rates.all f64Finite || (0 < ns && (g = 0 || level < 3)) then none
    else some { kvHeads := f 1 1, group := f 2 1, headDim := d, layers := ls, inFp16 := f 6 1 = 1, outBf16 := f 7 1 = 1,
                lambda := if f 8 4 = 0 then lambdaDefault d else f 8 4, rotDims := r, rotAdjacent := f 0xE 1 = 1, rates := rates,
                kSel := f 0x18 2, window := f 0x1A 1, ssmHeads := g, ssmP := if g = 0 then 0 else p, ssmN := if g = 0 then 0 else f 0x1E 2,
                ssmEps := f 0x20 4, gateAfter := bitOf (f 0x24 1) 0, noNorm := bitOf (f 0x24 1) 1,
                ssm := (List.range ns).map (parseSsm ssm g p) }

/-! ### CTX_CREATE, CTX_DESTROY -/

/-- The context key blob keeps its table (R517). -/
def blobOk (k : List Nat) : Bool := leAt k 0 1 = 1 && leAt k 1 1 ≤ 1 && leAt k 2 2 = 0 && (slice k 80 16).all (· = 0)

/-- Contexts of a partition. -/
def ctxsIn (s : State) (p : Nat) : Nat := (s.contexts.filter (·.2.partition = p)).length

/-- Orders 4 and 5 of R518: the context key under the domain key of the blob. -/
def unwrapKey (s : State) (k : List Nat) : Except Nat (List Nat) :=
  match tget? s.sec.dk (leAt k 1 1) with
  | none => .error 0x10
  | some dk =>
    match keyUnwrap dk (slice k 8 72) with
    | none => .error 0x11
    | some key => if key.take 32 = key.drop 32 then .error 0x11 else .ok key

/-- CTX_CREATE (R517, R518): what host memory holds, `k` the key blob; `part` the partition field. -/
def doCreate (s : State) (sub : Sub) (part rsv : Nat) (block rot ssm layers k : List Nat) : State :=
  let pn := if part = 0xFF then 0 else part
  if rsv ≠ 0 || (15 < part && part ≠ 0xFF) || !blobOk k then refuse s sub .versionMismatch 0x7
  else match parseParams s.attached block rot ssm layers with
    | none => refuse s sub .versionMismatch 0x8
    | some p =>
      if (tget? s.contexts sub.context).isSome then refuse s sub .badHandle 0x10
      else match unwrapKey s k with
        | .error d => refuse (if d = 0x11 then bump s Reg.SEC_COUNT.unwrap_fail else s) sub .protection d
        | .ok key =>
          let e := partEntry s pn
          let span : Bool := p.layers.any (·.ssm) && decide (1024 < slabSpan (slabSize p) s.lay.active.attic.slabKib)
          if !e.enable then refuse s sub .protection 0x12
          else if e.maxContexts ≤ ctxsIn s pn then refuse s sub .noCapacity 0xD
          else if stepSharedFree s < recordKib p then refuse s sub .noCapacity 0xE
          else if span then refuse s sub .noCapacity 0xF
          else
            let c : Ctx := { partition := pn, params := p, keyId := leAt k 4 4, dkIndex := leAt k 1 1, key := key }
            let s := { s with contexts := tset s.contexts sub.context c }
            let s := setFldAt (setFldAt (setFldAt s Reg.HAT_CTX.max_sessions [sub.context] 0) Reg.HAT_CTX.max_c0 [sub.context] 0)
              Reg.HAT_CTX.class_floor [sub.context] 0
            complete s sub .ok 0 [c.keyId]

/-- CTX_CREATE (R518): the partition, the attention parameter block, its rotary, state-space and layer tables and the key
blob as host memory holds them; `rsv` is the OR of the entry's reserved bits and of key_addr's low three bits. -/
def execCtxCreate (sub : Sub) (part rsv : Nat) (block rot ssm layers blob : List Nat) (s : State) : Host.Outcome State Fault Refusal :=
  run s (act (verb 1 sub fun s => doCreate s sub part rsv block rot ssm layers blob))

/-- CTX_DESTROY (R287): the context is torn down; the command completes when its slot is freed. -/
def execCtxDestroy (sub : Sub) (rsv : Nat) (s : State) : Host.Outcome State Fault Refusal :=
  run s (act (verb 1 sub fun s =>
    if rsv ≠ 0 then refuse s sub .versionMismatch 0x2
    else match ctxBad s sub.context with
      | some (st, d) => refuse s sub st d
      | none => teardown s sub.context { trigger := 2, unit := 0, code := 0 } (some sub)))

/-! ### Session and inventory verbs -/

/-- SES_OPEN (R630). -/
def execSesOpen (sub : Sub) (a : OpenArgs) (s : State) : Host.Outcome State Fault Refusal :=
  run s (act (verb 1 sub fun s => doOpen s sub a))

/-- An object's copies are gone: its lower copy lies on a cellar target that is lost (R156), or a start kept none (R548). -/
def lowerGone (s : State) (o : Obj) : Bool :=
  match o.lower with
  | some l => l.tier ≠ 1 && s.tier.targets.any fun t => t.lost && t.number = l.target && t.remote = (l.tier = 3)
  | none => !o.attic && !o.lost

/-- Copies of a PARKED or DORMANT session on a target that is lost are lost at the latest here (R156). -/
def loseGone (s : State) (h : Nat) : State :=
  match sessOf s h with
  | some x =>
    if x.state ≠ .parked && x.state ≠ .dormant then s
    else (sessObjs s (hKey h)).foldl (fun s id => match objOf s id with
      | some o => if o.state = .home && lowerGone s o then loseObj s id ((o.lower.map (·.tier)).getD 1) else s
      | none => s) s
  | none => s

/-- SES_RESUME (R26), after what a lost cellar target has taken (R156). -/
def execSesResume (sub : Sub) (a : OpenArgs) (s : State) : Host.Outcome State Fault Refusal :=
  run s (act (verb 2 sub (naming sub.handle fun s => doResume (loseGone s sub.handle) sub a)))

/-- SES_CANCEL (R109): `rsv` is the OR of the entry's reserved bits. -/
def execSesCancel (sub : Sub) (rsv : Nat) (s : State) : Host.Outcome State Fault Refusal :=
  run s (act (verb 1 sub (naming sub.handle fun s => if rsv ≠ 0 then refuse s sub .versionMismatch 0x2 else doCancel s sub)))

/-- SES_QUERY (R94). -/
def execSesQuery (sub : Sub) (rsv : Nat) (s : State) : Host.Outcome State Fault Refusal :=
  run s (act (verb 1 sub (naming sub.handle fun s => if rsv ≠ 0 then refuse s sub .versionMismatch 0x2 else doQuery s sub)))

/-- PFX_INSERT (R333): max_chunks, flags. -/
def execPfxInsert (sub : Sub) (maxChunks flags rsv : Nat) (s : State) : Host.Outcome State Fault Refusal :=
  run s (act (verb 2 sub (naming sub.handle fun s => doInsert s sub maxChunks flags rsv)))

/-- PFX_REMOVE (R338): node_ref, flags. -/
def execPfxRemove (sub : Sub) (nodeRef flags rsv : Nat) (s : State) : Host.Outcome State Fault Refusal :=
  run s (act (verb 2 sub (naming sub.handle fun s => doRemove s sub nodeRef flags rsv)))

/-! ### Inventory messages (R326 to R344) -/

/-- The session record of an inventory request at another controller: made where there is none (DESIGN CHOICE: class 3
until the step descriptor names it). -/
def invGuest (s : State) (r : InvReq) (toks : List Nat) : State :=
  match sessOf s r.handle with
  | some _ => s
  | none =>
    let s := match tget? s.sess.table (hKey r.handle) with | some y => if y.guest then releaseObjs s y.handle else s | none => s
    let x : Session := { handle := r.handle, state := .active, cls := 3, bx16 := r.fmt = 2, partition := ctxPart s r.context, homeDev := r.src,
                         guest := true, tOpen := s.timebase, inTokens := toks }
    { s with sess := { s.sess with table := tset s.sess.table (hKey r.handle) x } }

/-- Answer an INV_REQ. -/
def invAnswer (s : State) (r : InvReq) (st : Status) (d value : Nat) (pts : Option (List Nat)) (slab : Bool) : State :=
  sendMsg s r.src (.invRsp { op := r.op, status := st, detail := d, request := r.request, value := value, points := pts, slabPoint := slab, handle := r.handle })

/-- INV_REQ PROBE: the local answer, pins taken (R326). -/
def takeProbe (s : State) (r : InvReq) : State :=
  match ctxBad s r.context, paramsOf s r.context with
  | none, some p =>
    let (s, best, pts) := localLookup s r.src r.request r.handle p r.tokens r.fmt
    invAnswer s r .ok 0 best pts false
  | some (st, d), _ => invAnswer s r st d 0 none false
  | _, none => invAnswer s r .badHandle 0x1 0 none false

/-- INV_REQ COMMIT (R328). -/
def takeCommit (s : State) (r : InvReq) : State :=
  match ctxBad s r.context with
  | some (st, d) => invAnswer s r st d 0 none false
  | none =>
    let toks := match pinsOf s r.src r.request with | some q => q.tokens | none => []
    let s := if r.value = 0 && toks.isEmpty then s else invGuest s r toks
    let (s, st, d) := commitLocal s r.src r.request r.handle r.value
    invAnswer s r (if r.value = 0 then .ok else st) (if r.value = 0 then 0 else d) 0 none false

/-- INV_REQ PUBLISH (R334). -/
def takePublish (s : State) (r : InvReq) : State :=
  match ctxBad s r.context with
  | some (st, d) => invAnswer s r st d 0 none false
  | none =>
    let (s, st, w) := publishLocal s r.handle r.value r.pin
    invAnswer s r st 0 w.indexed none w.slabPoint

/-- INV_REQ WITHDRAW (R338, R339). -/
def takeWithdraw (s : State) (r : InvReq) : State :=
  let (s, n) := countWithdrawn <| if r.all then withdrawCtx s r.context
    else match s.inv.nodes.find? fun n => n.2.indexed && n.2.ctx = r.context && n.2.fmt = r.fmt && n.2.depth = r.value && n.2.hash = r.hash with
      | some n => withdrawNode s n.1
      | none => (s, 0)
  invAnswer s r .ok 0 n none false

/-- INV_PROBE (R326): INV_REQ op 1. -/
def execInvProbe (r : InvReq) (s : State) : Host.Outcome State Fault Refusal := run s (act fun s => takeProbe s r)
/-- INV_COMMIT (R328): INV_REQ op 2. -/
def execInvCommit (r : InvReq) (s : State) : Host.Outcome State Fault Refusal := run s (act fun s => takeCommit s r)
/-- INV_PUBLISH (R334): INV_REQ op 3. -/
def execInvPublish (r : InvReq) (s : State) : Host.Outcome State Fault Refusal := run s (act fun s => takePublish s r)
/-- INV_WITHDRAW (R339): INV_REQ op 4. -/
def execInvWithdraw (r : InvReq) (s : State) : Host.Outcome State Fault Refusal := run s (act fun s => takeWithdraw s r)

/-- INV_NO_ANSWER, at most once per second with the count (R345). -/
def noAnswer (s : State) : State :=
  let s := { s with inv := { s.inv with noAnswerCount := s.inv.noAnswerCount + 1 } }
  if duePerSecond s.inv.noAnswerAt s.timebase then
    report { s with inv := { s.inv with noAnswerAt := some s.timebase, noAnswerCount := 0 } } 0x0A04 0 0 [s.inv.noAnswerCount]
  else s

/-- An answer of a lookup at the home (R327, R328). -/
def lookupAnswer (s : State) (src : Nat) (r : InvRsp) (l : Lookup) : State :=
  if l.req ≠ r.request || !l.waitingFor.contains src then s
  else
    let left := l.waitingFor.erase src
    if r.op = 1 && !l.committing then
      if r.status ≠ .ok then lookupZero s r.handle
      else
        let s := modSess s r.handle fun x => { x with lookup := some { l with waitingFor := left, answers := l.answers ++ [(src, r.value, r.points)] } }
        if left.isEmpty then lookupCommit s r.handle else s
    else if r.op = 2 && l.committing then
      if r.status ≠ .ok then lookupFails s r.handle
      else
        let s := modSess s r.handle fun x => { x with lookup := some { l with waitingFor := left } }
        if left.isEmpty then lookupDone s r.handle l.t else s
    else s

/-- An answer of a publication or a withdrawal at the home (R336 to R338). -/
def opAnswer (s : State) (src : Nat) (r : InvRsp) : State :=
  match invOp s r.request with
  | none => s
  | some o =>
    if !o.waitingFor.contains src || o.publish ≠ (r.op = 3) then s
    else
      let o := { o with waitingFor := o.waitingFor.erase src,
                        status := if o.publish && r.status ≠ .ok && o.status.isNone then some (r.status, r.detail) else o.status }
      let s := setInvOp s o
      if o.waitingFor.isEmpty then finishInvOp s o else s

/-- INV_RSP at the home, from a device (R327). -/
def takeInvRsp (s : State) (src : Nat) (r : InvRsp) : State :=
  if r.op = 1 || r.op = 2 then
    match (sessOf s r.handle).bind (·.lookup) with
    | some l => lookupAnswer s src r l
    | none => s
  else opAnswer s src r

/-- INV_RSP (R327), from a device. -/
def execInvRsp (src : Nat) (r : InvRsp) (s : State) : Host.Outcome State Fault Refusal := run s (act fun s => takeInvRsp s src r)

/-- A probe or a commit has not been answered in probe_us (R327, R328). -/
def probeTimeout (s : State) (h : Nat) : State :=
  match (sessOf s h).bind (·.lookup) with
  | some l => if l.committing then lookupFails s h else lookupZero (noAnswer s) h
  | none => s

/-- INV_PROBE_TIMEOUT (R327): the lookup of a session. -/
def execInvProbeTimeout (handle : Nat) (s : State) : Host.Outcome State Fault Refusal := run s (act fun s => probeTimeout s handle)

/-- INV_PIN_EXPIRY (R328): the pins of a device's request are pin_ms old. -/
def execInvPinExpiry (src request : Nat) (s : State) : Host.Outcome State Fault Refusal := run s (act fun s => dropPins s src request)

end Sys2Proof.Machine
end

