-- ==== Sys2Proof/Machine/Ladder.lean ====
section
/-! DEFINITION. The commands of the Ladder, of descriptor spills, of regulators and tallies (R96 to R100, R110, R136 to R156,
R259, R312, R314). -/
namespace Sys2Proof.Machine

/-! ### Starting moves (R139, R140, R151) -/

/-- Bytes of a slab's stored copy or of an object's whole copy, as an object that a tail copy makes would take. -/
def tailBytes (o : Obj) (count : Nat) : Nat := if o.kind = .slab then movedBytes o else 2 * o.heads * count * (sectionBytes o.bx16 o.dim / 64)

/-- The bytes that a move charges, attic side and store-room side (R140, R150). -/
def moveCharge (s : State) (m : Move) (o : Obj) : Nat × Nat :=
  let n := movedBytes o
  let store := match o.lower with | some l => if l.tier = 1 then n else 0 | none => n
  match m.kind with
  | .raise => (n, store)
  | .sink => if !o.dirty && o.lower.isSome then (0, 0) else (n, n)
  | .writeback => (n, store)
  | .age => (0, n)
  | .tail src c => (tailBytes o c, match objOf s src with | some so => (if so.attic then 0 else n) | none => 0)

/-- The regulators of a move's partition let it start. -/
def moveOpen (s : State) (m : Move) (o : Obj) : Bool :=
  let c := moveCharge s m o
  (c.1 = 0 || bucketOpen s m.partition resAttic) && (c.2 = 0 || bucketOpen s m.partition resStore)

/-- The cellar target of a copy (R136). -/
def cellarTarget (s : State) (o : Obj) : Option Target :=
  let l := usableTargets s
  l[(o.layer + o.index) % Nat.max 1 l.length]?

/-- Why a queued move does not start now, or that it can: it waits for its regulator; it waits for something else (attic
pages, its source, room below). -/
inductive MoveReady where
  | ready
  | regulator
  | other
  deriving DecidableEq, Repr

/-- Attic pages can be had for an object. -/
def roomNow (s : State) (o : Obj) : Bool := match findRoom s o with | .at_ .. => true | _ => false

/-- Room in the store room for a copy. -/
def storeRoom (s : State) (o : Obj) : Bool := decide (storeUsed s + pagesOf (movedBytes o) ≤ storeUnits s)

/-- Whether a queued move can start. -/
def moveReady (s : State) (m : Move) (o : Obj) : MoveReady :=
  let ok : Bool := match m.kind with
    | .raise => o.state = .rising || (o.state = .home && (lowerGone s o || (o.lower.isSome && roomNow s o)))
    | .sink => (!o.dirty && o.lower.isSome) || (match o.lower with | some l => l.tier = 1 | none => false) || storeRoom s o
    | .writeback => o.lower.isSome || storeRoom s o
    | .age => (cellarTarget s o).isSome
    | .tail src _ => o.state = .home && roomNow s o && (match objOf s src with
        | some so => if so.kind = .crate then so.state = .resident else so.lower.isSome
        | none => false)
  if !ok then .other else if moveOpen s m o then .ready else .regulator

/-- The first entry of a queue that can start, and whether every entry waits for its regulator or its pages. -/
def firstReady (s : State) (q : List Move) : Option Move :=
  q.find? fun m => match objOf s m.obj with | some o => moveReady s m o = .ready | none => true

/-- The move an engine starts next: queues in service order (R139). An entry that waits for attic pages, for its source or
for room below it does not hold back the queues after its own (DESIGN CHOICE: else a C0 raise would hold back the sink that
frees its pages). -/
def nextMove (s : State) (e : Nat) : Option (Nat × Move) :=
  (List.range 8).foldl (fun acc q => match acc with
    | some m => some m
    | none => (firstReady s (queueOf s e q)).map fun m => (q, m)) none

/-- Put a started move among the running ones. -/
def beginMove (s : State) (m : Move) (o : Obj) (target : Nat) : State :=
  let c := moveCharge s m o
  let s := charge (charge s m.partition resAttic c.1) m.partition resStore c.2
  { s with tier := { s.tier with running := s.tier.running ++ [{ m with step := o.step, started := s.timebase, target := target,
                                                                                             unit := nextUnit s (if 256 ≤ target then 3 else 2) (target % 256) }] } }

/-- Whether a move copies between attic and a cellar target, or within the cellar path: its tier for the deadline. -/
def lowerTier (o : Obj) : Nat := match o.lower with | some l => l.tier | none => 1

/-- Place an object that waited for pages and mark it rising. -/
def riseNow (s : State) (id : Nat) (o : Obj) : State × Obj :=
  match findRoom s o with
  | .at_ n pg sh =>
    let o := { withPages s o n pg sh with state := .rising }
    (setObj s id o, o)
  | _ => (s, o)

/-- Start one move that is ready. -/
def startMove (s : State) (e q : Nat) (m : Move) : State :=
  let s := setQueue s e q (dropFirst (fun x => x.id = m.id) (queueOf s e q))
  match objOf s m.obj with
  | none => s
  | some o =>
    match m.kind with
    | .raise =>
      if lowerGone s o then bump (loseObj s m.obj (lowerTier o)) Reg.LAD_FAULT.lost
      else
        let (s, o) := if o.state = .home then riseNow s m.obj o else (s, o)
        checkAttic (beginMove s m o 0)
    | .tail _ _ =>
      let (s, o) := riseNow s m.obj o
      checkAttic (beginMove s m o 0)
    | .age => beginMove s m o (match cellarTarget s o with | some t => 256 * b2n t.remote + t.number | none => 0)
    | .sink => beginMove s m o 0
    | .writeback => if o.state = .resident then beginMove s m o 0 else s

/-- LADDER_MOVE_START of an engine that runs fewer than 256 moves; none starts while the store-room or security island of the
half is in reset, or its store-room PLL has no source (R558). -/
def ladderStart (s : State) (e : Nat) : State :=
  let mine := s.tier.running.filter fun m => match objOf s m.obj with | some o => engineOf o = e | none => false
  if 256 ≤ mine.length || s.clk.inReset.contains (15 + e) || (tget? s.clk.plls (15 + e)).elim false (·.state = .coasting) || s.clk.inReset.contains (20 + e) then s
  else match nextMove s e with
    | some (q, m) => startMove s e q m
    | none => s

/-- LADDER_MOVE_START (R139): the Ladder engine of a half starts its next move. -/
def execLadderMoveStart (engine : Nat) (s : State) : Host.Outcome State Fault Refusal := run s (act fun s => ladderStart s engine)

/-! ### Ending moves (R148 to R156) -/

/-- A running move. -/
def runningMove (s : State) (id : Nat) : Option Move := s.tier.running.find? (·.id = id)

/-- A running move whose copy travels as remote memory requests: their answers complete it (R478). -/
def remoteMove (s : State) (id : Nat) : Bool := (runningMove s id).elim false (·.asked)

/-- Take a move out of the running ones. -/
def endMove (s : State) (id : Nat) : State := { s with tier := { s.tier with running := s.tier.running.filter (·.id ≠ id) } }

/-- After an object's move: an object whose last reference went is freed; its sessions may be DORMANT or PARKED now. -/
def afterMove (s : State) (id : Nat) (owners : List Nat) : State :=
  let s := match objOf s id with | some o => if o.doomed then freeObj s id else s | none => s
  owners.foldl parkDormant s

/-- The raise that waited behind a sink enters its queue (R152). -/
def raiseBehind (s : State) (id : Nat) : State :=
  match objOf s id with
  | some o =>
    match o.raiseAfter with
    | some q => requestRaise (setObj s id { o with raiseAfter := none }) id q
    | none => s
  | none => s

/-- The crate image of a tail copy (R329): K and V of the first `count` slots, no centroids; the header follows. -/
def tailImage (so o : Obj) (m : Mem) (count : Nat) : Mem :=
  (List.range 2).foldl (fun a kv => (List.range o.heads).foldl (fun a h =>
    let b := groupOffset o.bx16 o.heads o.dim kv h 0 0
    let n := count * (sectionBytes o.bx16 o.dim / 64)
    putRange a b n (memRange m (groupOffset so.bx16 so.heads so.dim kv h 0 0) n)) a) []

/-- A raise or a tail copy is complete: the object is RESIDENT. -/
def raised (s : State) (m : Move) (o : Obj) : State :=
  let owners := ownersOf s m.obj
  let s := match m.kind with
    | .tail src count =>
      match objOf s src with
      | some so =>
        if o.kind = .crate then
          let s := placeBytes s o (tailImage so o (objBytes s so) count)
          let o := { o with state := .resident, dirty := true, crc := crc32c (bodyBytes s o) }
          putObj s m.obj o
        else
          let s := placeBytes s o (match so.lower with | some l => l.bytes | none => [])
          setObj s m.obj { o with state := .resident, dirty := true, active := 0 }
      | none => s
    | _ =>
      let s := placeBytes s o (match o.lower with | some l => l.bytes | none => [])
      setObj s m.obj { o with state := .resident, dirty := false, active := 0 }
  afterMove (bump s Reg.LAD_COUNT.raises) m.obj owners

/-- A copy that a raise needed is lost (R153, R154). -/
def raiseFails (s : State) (m : Move) (o : Obj) : State :=
  let owners := ownersOf s m.obj
  let tier := match m.kind with | .tail src _ => (match objOf s src with | some so => if so.attic then 0 else 1 | none => 1) | _ => lowerTier o
  let s := loseObj (bump s Reg.LAD_FAULT.lost) m.obj tier
  let s := match m.kind with | .tail src _ => (match objOf s src with | some so => if so.attic then s else loseObj s src tier | none => s) | _ => s
  afterMove s m.obj owners

/-- RAISE_COMPLETE of a move: `crcOk` says that the CRC-32C of what was read is body_crc (R153). -/
def raiseComplete (s : State) (id : Nat) (crcOk : Bool) : State :=
  match runningMove s id with
  | none => s
  | some m =>
    match objOf s m.obj with
    | none => endMove s id
    | some o =>
      if o.state ≠ .rising then s
      else if crcOk then raised (endMove s id) m o else raiseFails (endMove s id) m o

/-- RAISE_COMPLETE (R151): the raise or tail copy of a move number is complete. -/
def execRaiseComplete (move : Nat) (crcOk : Bool) (s : State) : Host.Outcome State Fault Refusal :=
  run s (act fun s => if remoteMove s move then s else raiseComplete s move crcOk)

/-- A sink is complete: attic pages or store-room units freed, the object HOME (R150, R151). -/
def sunk (s : State) (m : Move) (o : Obj) : State :=
  let owners := ownersOf s m.obj
  let s := if m.kind = .sink then
      let low : Option Lower := if !o.dirty && o.lower.isSome then o.lower
        else some { tier := 1, target := 0, unit := (match o.lower with | some l => if l.tier = 1 then l.unit else nextUnit s 1 0 | none => nextUnit s 1 0),
                    bytes := storedBytes s o, step := o.step }
      setObj (wipeAttic s o) m.obj { o with state := .home, attic := false, dirty := false, lower := low, active := 0 }
    else
      let tier := if 256 ≤ m.target then 3 else 2
      let t := m.target % 256
      let low := o.lower.map fun l => { l with tier := tier, target := t, unit := m.unit }
      setObj s m.obj { o with state := .home, lower := low }
  let s := bump s Reg.LAD_COUNT.sinks
  let s := raiseBehind s m.obj
  checkStore (afterMove s m.obj owners)

/-- SINK_COMPLETE of a move. -/
def sinkComplete (s : State) (id : Nat) : State :=
  match runningMove s id with
  | none => s
  | some m =>
    match objOf s m.obj with
    | none => endMove s id
    | some o => if o.state ≠ .sinking then s else sunk (endMove s id) m o

/-- SINK_COMPLETE (R151): the sink of a move number is complete. -/
def execSinkComplete (move : Nat) (s : State) : Host.Outcome State Fault Refusal := run s (act fun s => if remoteMove s move then s else sinkComplete s move)

/-- WRITEBACK_COMPLETE of a move (R148): dirty is cleared unless the step changed meanwhile. -/
def writebackComplete (s : State) (id : Nat) : State :=
  match runningMove s id with
  | none => s
  | some m =>
    match m.kind, objOf s m.obj with
    | .writeback, some o =>
      let s := endMove s id
      let low : Lower := match o.lower with
        | some l => { l with bytes := storedBytes s o, step := m.step }
        | none => { tier := 1, target := 0, unit := nextUnit s 1 0, bytes := storedBytes s o, step := m.step }
      let s := setObj s m.obj { o with lower := some low, dirty := if o.step = m.step then false else o.dirty }
      checkStore (afterMove s m.obj [])
    | .writeback, none => endMove s id
    | _, _ => s

/-- WRITEBACK_COMPLETE (R148). -/
def execWritebackComplete (move : Nat) (s : State) : Host.Outcome State Fault Refusal := run s (act fun s => if remoteMove s move then s else writebackComplete s move)

/-- Mark a cellar target faulty (R155). -/
def markFaulty (s : State) (remote : Bool) (number : Nat) : State :=
  { s with tier := { s.tier with targets := s.tier.targets.map fun t => if t.remote = remote && t.number = number then { t with faulty := true } else t } }

/-- A sink or a write-back fails or is late (R155): nothing is lost, SINK_FAULT, the next usable target is tried. -/
def sinkFails (s : State) (m : Move) (o : Obj) : State :=
  let owners := ownersOf s m.obj
  match m.kind with
  | .age =>
    let s := markFaulty s (256 ≤ m.target) (m.target % 256)
    let s := report s 0x0402 (o.creator % 2 ^ 24) 0 [crateId o, if 256 ≤ m.target then 3 else 2]
    let s := setObj s m.obj { o with state := .home }
    let s := if o.raiseAfter.isSome || o.doomed then raiseBehind s m.obj
      else if (cellarTarget s o).isSome then pushMove (setObj s m.obj { o with state := .sinking }) m.obj o .age qAge else s
    afterMove s m.obj owners
  | .sink =>
    let s := report s 0x0402 (o.creator % 2 ^ 24) 0 [crateId o, 1]
    let s := setObj s m.obj { o with state := .resident, dirty := true, raiseAfter := none }
    checkAttic (afterMove s m.obj owners)
  | _ =>
    let t := lowerTier o
    let s := match o.lower with | some l => if t ≠ 1 then markFaulty s (t = 3) l.target else s | none => s
    let s := report s 0x0402 (o.creator % 2 ^ 24) 0 [crateId o, t]
    afterMove (if o.doomed || t ≠ 1 then s else pushMove s m.obj o .writeback qWriteback) m.obj owners

/-- A move fails, or exceeds its deadline (R153, R155). -/
def moveFails (s : State) (id : Nat) : State :=
  match runningMove s id with
  | none => s
  | some m =>
    let s := endMove s id
    match objOf s m.obj with
    | none => s
    | some o =>
      match m.kind with
      | .raise => raiseFails s m o
      | .tail _ _ => raiseFails s m o
      | _ => sinkFails s m o

/-- MOVE_FAILED (R154). -/
def execMoveFailed (move : Nat) (s : State) : Host.Outcome State Fault Refusal := run s (act fun s => moveFails s move)

/-- TIER_DEADLINE_EXPIRY (R153): a running move has exceeded its tier's deadline. -/
def execTierDeadlineExpiry (move : Nat) (s : State) : Host.Outcome State Fault Refusal := run s (act fun s => moveFails s move)

/-- FAULTY_TARGET_EXPIRY (R155): a faulty target has been avoided for retry_ms. -/
def execFaultyTargetExpiry (remote : Bool) (number : Nat) (s : State) : Host.Outcome State Fault Refusal :=
  run s (act fun s => { s with tier := { s.tier with targets := s.tier.targets.map fun t =>
                                                     if t.remote = remote && t.number = number then { t with faulty := false } else t } })

/-- A cellar target is lost (R156): no copies go there, trunks on it are lost (R514), the capability word follows (R55). -/
def targetLost (s : State) (remote : Bool) (number : Nat) : State :=
  if !s.tier.targets.any fun t => t.remote = remote && t.number = number && !t.lost then s
  else
    let s := { s with tier := { s.tier with targets := s.tier.targets.map fun t => if t.remote = remote && t.number = number then { t with lost := true } else t } }
    let s := report s 0x0406 (256 * b2n remote + number) 0 [b2n remote, number]
    noteCap (storeLost s (256 * b2n (!remote) + number))

/-- CELLAR_TARGET_LOST (R156). -/
def execCellarTargetLost (remote : Bool) (number : Nat) (s : State) : Host.Outcome State Fault Refusal :=
  run s (act fun s => targetLost s remote number)

/-! ### Shelves (R97 to R100, R110) -/

/-- A free shelf goes to a session that waits for one (R99). -/
def giveShelf (s : State) : State :=
  if shelvesUsed s < shelves s then
    match (countedSess s).find? (·.place = .waiting) with
    | some x => setPlace s x.handle .shelf
    | none => s
  else s

/-- The place of a session's or a shadow's descriptor. -/
def placeOf (s : State) (h : Nat) : Option Place :=
  match sessOf s h with
  | some x => if x.guest then (tget? s.mir.shadows (hKey h)).map (·.desc.place) else some x.place
  | none => (tget? s.mir.shadows (hKey h)).map (·.desc.place)

/-- SPILL_COMPLETE (R98): the shelf is free; a session named meanwhile is fetched. -/
def spillDone (s : State) (h : Nat) : State :=
  if placeOf s h ≠ some .spilling then s
  else
    let s := giveShelf (setPlace s h .spilled)
    let wanted : Bool := match sessOf s h with | some x => !x.waiting.isEmpty || x.cancelPending || inFlight s h | none => false
    checkSpill (if wanted then startFetch s h else s)

/-- SPILL_COMPLETE (R98): the spill of a descriptor. -/
def execSpillComplete (handle : Nat) (s : State) : Host.Outcome State Fault Refusal := run s (act fun s => spillDone s handle)

/-- FETCH_COMPLETE (R100): the descriptor is on a shelf again, unless none is free yet. -/
def fetchDone (s : State) (h : Nat) : State :=
  if placeOf s h ≠ some .fetching then s
  else if shelves s ≤ shelvesUsed s then checkSpill s
  else
    let s := setPlace s h .shelf
    checkSpill (runWaiting (tryCancel s h) h)

/-- FETCH_COMPLETE (R100): the fetch of a descriptor. -/
def execFetchComplete (handle : Nat) (s : State) : Host.Outcome State Fault Refusal := run s (act fun s => fetchDone s handle)

/-- A Ladder move of a session's own objects is queued or running (R110). -/
def sessMoving (s : State) (x : Session) : Bool :=
  s.tier.running.any fun m => match objOf s m.obj with
    | some o => o.doomed && o.creator = hSerial x.handle && o.ctx = hCtx x.handle
    | none => false

/-- A RETIRING session enters FREE: its chunks are out, no command waits for it, no move of its crates remains (R110); the serial is free (R89), and so is
its tracking entry (R309). -/
def freeSession (s : State) (h : Nat) : State :=
  match sessOf s h with
  | none => s
  | some x =>
    if x.guest || x.state ≠ .retiring || sessMoving s x || s.mir.pinned.contains h || !x.heldChunks.isEmpty || !x.waiting.isEmpty then s
    else
      let z := s.sess.serials
      let z := if hDev h = s.device then { z with freed := z.freed ++ [hSerial h] } else z
      let s := { s with sess := { s.sess with table := tdel s.sess.table (hKey h), serials := z },
                        atn := { s.atn with selected := tfilter (fun k _ => k / 256 ≠ hKey h) s.atn.selected } }
      giveShelf (freeTrack s x)

/-- SESSION_FREE (R110). -/
def execSessionFree (handle : Nat) (s : State) : Host.Outcome State Fault Refusal := run s (act fun s => freeSession s handle)

/-! ### Regulators and tallies -/

/-- Refill one bucket (R259). -/
def refillBucket (s : State) (i : Nat) : State :=
  let r := s.lay.active.regulators.getD i {}
  if r.rate = 0 then s
  else
    let v := bucketLevel s (i / 3) (i % 3) + (r.rate : Int)
    setBucket s (i / 3) (i % 3) (if (r.burstKib * 1024 : Nat) < v then ((r.burstKib * 1024 : Nat) : Int) else v)

/-- Fetches that waited for the store-room regulator start. -/
def retryFetches (s : State) : State :=
  ((countedSess s).filter fun x => x.place = .spilled && (!x.waiting.isEmpty || x.cancelPending || inFlight s x.handle)).foldl
    (fun s x => startFetch s x.handle) s

/-- REGULATOR_REFILL (R259): every enabled bucket is refilled; transfers that waited start. -/
def execRegulatorRefill (s : State) : Host.Outcome State Fault Refusal :=
  run s (act fun s => retryFetches (checkSpill (nbuKick ((List.range s.lay.active.regulators.length).foldl refillBucket s))))

/-- One millisecond of replenishment of a tally (R312): rate / 1,000 tokens, the fraction carried over, up to the cap. -/
def replenish (s : State) (i : Nat) : State :=
  if !tallyMetered s i then s
  else
    let f := tget 0 s.hatch.fraction i + fldAt s Reg.HAT_TALLY.rate [i]
    let cap := fldAt s Reg.HAT_TALLY.cap [i]
    let b := tallyBalance s i
    let s := { s with hatch := { s.hatch with fraction := if f % 1000 = 0 then tdel s.hatch.fraction i else tset s.hatch.fraction i (f % 1000) } }
    if f / 1000 = 0 || cap ≤ b then s else tallyRaised (tallyAdd s i (Nat.min (f / 1000) (cap - b))) i

/-- Tallies that may be replenished: those with a rate, and those with a fraction. -/
def ratedTallies (s : State) : List Nat := (List.range 4096).filter fun i => fldAt s Reg.HAT_TALLY.rate [i] ≠ 0

/-- TALLY_REPLENISH (R312): a 1 ms boundary. -/
def execTallyReplenish (s : State) : Host.Outcome State Fault Refusal := run s (act fun s => (ratedTallies s).foldl replenish s)

/-- A write of a tally's add word (R314): add tokens, or subtract them down to 0. -/
def tallyAddWrite (s : State) (i n : Nat) (sub : Bool) : State :=
  if 4096 ≤ i then s
  else if sub then setFldAt s Reg.HAT_TALLY.balance [i] (tallyBalance s i - n)
  else if n = 0 then s
  else tallyRaised (tallyAdd s i n) i

/-- HAT_TALLY_ADD (R314): tally, tokens, subtract. -/
def execHatTallyAdd (tally tokens : Nat) (subtract : Bool) (s : State) : Host.Outcome State Fault Refusal :=
  run s (hostAct fun s => tallyAddWrite s tally (tokens % 2 ^ 48) subtract)

end Sys2Proof.Machine
end

