-- ==== Sys2Proof/Machine/MirCmds.lean ====
section
/-! DEFINITION. The commands of mirrors, promotion and trunks. -/
namespace Sys2Proof.Machine

/-! ### Mirror messages (R484) -/

/-- MIRROR_OPEN (R101): the descriptor and, from the home, the input tokens. -/
def execMirrorOpen (q : MirrorHdr) (d : SessDesc) (toks : List Nat) (s : State) : Host.Outcome State Fault Refusal :=
  run s (act fun s => takeOpen s q d toks)

/-- MIRROR_STATE (R104): the new state is in aux; with RESUMING, the resume tokens. -/
def execMirrorState (q : MirrorHdr) (toks : List Nat) (s : State) : Host.Outcome State Fault Refusal :=
  run s (act fun s => toShadow s q (.state toks))

/-- MIRROR_NOTE (R107). -/
def execMirrorNote (q : MirrorHdr) (token index : Nat) (hold : List Nat) (s : State) : Host.Outcome State Fault Refusal :=
  run s (act fun s => toShadow s q (.note token index hold))

/-- MIRROR_PREP (R487). -/
def execMirrorPrep (q : MirrorHdr) (c : PrepCopy) (s : State) : Host.Outcome State Fault Refusal :=
  run s (act fun s => toShadow s q (.prep c))

/-- MIRROR_ACK (R104). -/
def execMirrorAck (q : MirrorHdr) (s : State) : Host.Outcome State Fault Refusal :=
  run s (act fun s => takeAck s q)

/-- MIRROR_RETIRE (R110). -/
def execMirrorRetire (q : MirrorHdr) (s : State) : Host.Outcome State Fault Refusal :=
  run s (act fun s => toShadow s q .retire)

/-- MIRROR_SYNC (R494): an object toward a new mirror, or one that this controller pulled back. -/
def execMirrorSync (q : MirrorHdr) (valid : Nat) (bytes : List Nat) (s : State) : Host.Outcome State Fault Refusal :=
  run s (act fun s => anySync s q valid bytes)

/-- MIRROR_PULL (R487). -/
def execMirrorPull (q : MirrorHdr) (count : Nat) (s : State) : Host.Outcome State Fault Refusal :=
  run s (act fun s => toShadow s q (.pull count))

/-- MIRROR_HANDOVER (R495). -/
def execMirrorHandover (q : MirrorHdr) (s : State) : Host.Outcome State Fault Refusal :=
  run s (act fun s => toShadow s q .handover)

/-- PREP_RESEND_EXPIRY (R488): the resend of the copies that a session's mirror of the home role (`home`) or the participant
role refused is due. -/
def execPrepResendExpiry (handle : Nat) (home : Bool) (s : State) : Host.Outcome State Fault Refusal :=
  run s (act fun s => prepResend s handle home)

/-! ### Loss and promotion -/

/-- LOST_REPORT (R490): an observer reports a device lost over one of the lost device's links. -/
def execLostReport (lost observer link : Nat) (s : State) : Host.Outcome State Fault Refusal :=
  run s (act fun s => lostReport s lost observer link)

/-- ROLE_CLAIM (R492): a claimer serves a lost device's layers for the serials congruent to `i` modulo `m`. -/
def execRoleClaim (src lost epoch first last m idx : Nat) (s : State) : Host.Outcome State Fault Refusal :=
  run s (act fun s => takeClaim s src lost epoch first last m idx)

/-- SHADOW_PROMOTE (R106): the shadow whose turn it is among those of lost homes. -/
def execShadowPromote (s : State) : Host.Outcome State Fault Refusal :=
  run s (act fun s => match nextPromotion s with | some h => promoteIfLost s h | none => s)

/-- SESSION_DEMOTED (R493): this controller has learned of a newer home of a session. -/
def execSessionDemoted (handle epoch : Nat) (s : State) : Host.Outcome State Fault Refusal :=
  run s (act fun s => demote s handle (some epoch))

/-- MIRROR_DROPPED (R494): a session's mirror of the home role (`home`) or the participant role is dropped for a cause. -/
def execMirrorDropped (handle : Nat) (home : Bool) (cause : Nat) (s : State) : Host.Outcome State Fault Refusal :=
  run s (act fun s => dropMirror s handle home cause)

/-! ### Trunks -/

/-- TRUNK_CUT (R496): the handles at list_addr, the store, the entry's reserved bits. -/
def execTrunkCut (sub : Sub) (handles : List Nat) (store rsv : Nat) (s : State) : Host.Outcome State Fault Refusal :=
  run s (act (verb 2 sub fun s => namingAll handles (fun s => doCut s sub handles store rsv) s))

/-- TRUNK_RESTORE (R503): what the store holds at the manifest offset, of the home's own shard, and of the token log; `none`
where the store cannot be read. -/
def execTrunkRestore (sub : Sub) (store resultAddr rsv : Nat) (manifest : Option Manifest) (shard : Option (List ShardSess)) (shardOk : Bool)
    (log : Option (List LogRecord)) (s : State) : Host.Outcome State Fault Refusal :=
  run s (act (verb 2 sub fun s => doRestore s sub store resultAddr rsv manifest shard shardOk log))

/-- TRUNK_REQ_CUT (R497). -/
def execTrunkReqCut (r : TrunkReq) (s : State) : Host.Outcome State Fault Refusal :=
  run s (act fun s => takeReqCut s r)

/-- TRUNK_REQ_ABORT (R496). -/
def execTrunkReqAbort (r : TrunkReq) (s : State) : Host.Outcome State Fault Refusal :=
  run s (act fun s => takeReqAbort s r)

/-- TRUNK_REQ_RESTORE (R503): with the shard as read from the store, and whether its digest verifies. -/
def execTrunkReqRestore (r : TrunkReq) (shard : Option (List ShardSess)) (shardOk : Bool) (s : State) : Host.Outcome State Fault Refusal :=
  run s (act fun s => takeReqRestore s r shard shardOk)

/-- TRUNK_RSP_RESERVED (R496). -/
def execTrunkRspReserved (q : TrunkRsp) (s : State) : Host.Outcome State Fault Refusal :=
  run s (act fun s => cutAnswer s { q with op := 1 })

/-- TRUNK_RSP_RESTORED (R503). -/
def execTrunkRspRestored (q : TrunkRsp) (s : State) : Host.Outcome State Fault Refusal :=
  run s (act fun s => restAnswer s { q with op := 3 })

/-- TRUNK_RSP_TAKEN (R497). -/
def execTrunkRspTaken (q : TrunkRsp) (s : State) : Host.Outcome State Fault Refusal :=
  run s (act fun s => cutAnswer s { q with op := 4 })

/-- TRUNK_RSP_DRAINED (R498). -/
def execTrunkRspDrained (q : TrunkRsp) (s : State) : Host.Outcome State Fault Refusal :=
  run s (act fun s => cutAnswer s { q with op := 5 })

/-- FAST_COPY_COMPLETE (R497): the fast copy of a session of a home's request is complete here. -/
def execFastCopyComplete (home request handle : Nat) (s : State) : Host.Outcome State Fault Refusal :=
  run s (act fun s => fastCopied s home request handle)

/-- TRUNK_DRAIN_COMPLETE (R498): this controller's shard is written, with its SHA-384, or the write failed. -/
def execTrunkDrainComplete (home request digest : Nat) (ok : Bool) (s : State) : Host.Outcome State Fault Refusal :=
  run s (act fun s => drained s home request digest ok)

/-- TOKEN_LOG_FLUSH (R501). -/
def execTokenLogFlush (s : State) : Host.Outcome State Fault Refusal :=
  run s (whenUp flushLogs)

/-- CKP_HANDOVER_GO (R495): a write of CKP_HANDOVER with go 1 and the device. -/
def execCkpHandoverGo (device : Nat) (s : State) : Host.Outcome State Fault Refusal :=
  run s (hostAct fun s => startHandover (setFld s Reg.CKP_HANDOVER.device device))

/-- CKP_TRUNK_DEL (R514). -/
def execCkpTrunkDel (serial context : Nat) (s : State) : Host.Outcome State Fault Refusal :=
  run s (hostAccess fun s => delTrunk (dropShadow s) serial context)

end Sys2Proof.Machine
end

