-- ==== Sys2Proof/Machine/Search.lean ====
section
/-! DEFINITION. The CAM and the vector search walker (chapter "Associative and vector search"). -/
namespace Sys2Proof.Machine

/-! ### Lookups (R376 to R378, R385, R386) -/

/-- The client of a bank (R378). -/
def camClient (s : State) (b : Nat) : Nat := tget (if b < 16 then 1 else if b < 32 then 2 else 3) s.cam.clients b

/-- The entries of a bank as lookups see them. -/
def camBank (s : State) (b : Nat) : List CamEntry := tget [] s.cam.banks b

/-- Replace the entries of a bank. -/
def setCamBank (s : State) (b : Nat) (l : List CamEntry) : State :=
  { s with cam := { s.cam with banks := if l.isEmpty then tdel s.cam.banks b else tset s.cam.banks b l } }

/-- An entry matches a key (R376). -/
def camMatch (e : CamEntry) (x : Nat) : Bool := Nat.land (Nat.xor x e.key) e.mask = 0

/-- Entries a bank holds. -/
def camSize (width : Nat) : Nat := 4096 / width

/-- A lookup (R377): the winning bank, entry position and entry. -/
def camLookup (s : State) (client banks width key : Nat) : Option (Nat × Nat × CamEntry) :=
  let hits := (List.range 64).filterMap fun b =>
    if bitOf banks b && fldAt s Reg.CAM_BANK.width [b] = width && camClient s b = client then
      ((camBank s b).zipIdx.find? fun e => camMatch e.1 key).map fun e => (b, e.2, e.1)
    else none
  hits.foldl (fun best h => match best with
    | some w => if w.2.2.priority < h.2.2.priority then some h else some w
    | none => some h) none

/-- Count a lookup. -/
def camCount (s : State) : State := bump s Reg.CAM_COUNT.lookups

/-- A client holds an item with the stamp of its lookup (R386): its number. -/
def camHold (s : State) : State × Nat :=
  ({ s with cam := { s.cam with held := s.cam.held ++ [(s.cam.nextItem, s.cam.gen)], nextItem := s.cam.nextItem + 1 } }, s.cam.nextItem)

/-- A client retires an item. -/
def camRetire (s : State) (item : Nat) : State := { s with cam := { s.cam with held := s.cam.held.filter (·.1 ≠ item) } }

/-- The lowest stamp of a held item, the counter where none is held (CAM_GEN.oldest_held). -/
def camOldest (s : State) : Nat := s.cam.held.foldl (fun m h => if serialLt 32 h.2 m then h.2 else m) s.cam.gen

/-! ### Writes (R380 to R385) -/

/-- Why a CAM_WRITE is refused (R381). -/
def camWriteBad (s : State) (w : CamWrite) : Option (Status × Nat) :=
  let b := camBank s w.bank
  let same (e : CamEntry) : Bool := e.key = w.key && e.mask = w.mask && e.priority = w.priority
  if w.rsv ≠ 0 || w.op = 0 || 4 < w.op || 64 ≤ w.bank || !List.contains [1, 2, 4] w.width then some (.versionMismatch, 0x7)
  else if w.op ≠ 4 && fldAt s Reg.CAM_BANK.width [w.bank] ≠ w.width then some (.versionMismatch, 0x11)
  else if (w.op = 2 || w.op = 3) && !b.any same then some (.badHandle, 0xC)
  else if fldAt s Reg.CAM_BANK.writable [w.bank] = 0 || fldAt s Reg.CAM_BANK.owner [w.bank] ≠ w.sub.context then some (.protection, 0x6)
  else if w.op = 1 && camSize w.width ≤ b.length then some (.noCapacity, 0x8)
  else none

/-- Where an INSERT places its entry: after the last of equal or greater priority (R382). -/
def camPlace (b : List CamEntry) (priority : Nat) : Nat := (b.takeWhile fun e => priority ≤ e.priority).length

/-- The position that a write acts on, and the entries it moves. -/
def camMoves (s : State) (w : CamWrite) : Nat × Nat :=
  let b := camBank s w.bank
  match w.op with
  | 1 => let i := camPlace b w.priority; (i, b.length - i)
  | 2 => let i := (b.takeWhile fun e => !(e.key = w.key && e.mask = w.mask && e.priority = w.priority)).length; (i, b.length - i - 1)
  | 3 => ((b.takeWhile fun e => !(e.key = w.key && e.mask = w.mask && e.priority = w.priority)).length, 0)
  | _ => (0, 0)

/-- The bank after a write of a generation. -/
def camApply (b : List CamEntry) (w : CamWrite) (i gen : Nat) : List CamEntry :=
  match w.op with
  | 1 => b.take i ++ [{ key := w.key, mask := w.mask, priority := w.priority, action := w.action, gen := gen }] ++ b.drop i
  | 2 => b.take i ++ b.drop (i + 1)
  | 3 => modAt (fun e => { e with action := w.action, gen := gen }) i b
  | _ => []

/-- A write that is refused; a full bank is reported once per second. -/
def camRefuse (s : State) (w : CamWrite) (st : Status) (d : Nat) : State :=
  let s :=
    if st = .noCapacity && duePerSecond (tget? s.cam.fullAt w.bank) s.timebase then
      report { s with cam := { s.cam with fullAt := tset s.cam.fullAt w.bank s.timebase } } 0x0C01 w.bank 0 [w.bank]
    else s
  refuse s w.sub st d

/-- The write in progress of a bank. -/
def camBusy (s : State) (b : Nat) : Bool := (tget? s.cam.writes b).isSome

/-- Queue of writes of a bank replaced. -/
def setCamWrites (s : State) (b : Nat) (l : List CamWrite) : State :=
  { s with cam := { s.cam with writes := if l.isEmpty then tdel s.cam.writes b else tset s.cam.writes b l } }

/-- Start the next write of a bank: one that a check refuses completes, the next is tried (R384). -/
def camNext : List CamWrite → Nat → State → State
  | [], b, s => setCamWrites s b []
  | w :: t, b, s =>
    match camWriteBad s w with
    | some (st, d) => camNext t b (camRefuse s w st d)
    | none => setCamWrites s b (w :: t)

/-- A CAM_WRITE: it waits behind those of its bank. -/
def camWrite (s : State) (w : CamWrite) : State :=
  if camBusy s w.bank then setCamWrites s w.bank (tget [] s.cam.writes w.bank ++ [w])
  else camNext [w] w.bank s

/-- The key blocks of an entry: 10 bytes of key, 10 of mask, 4 reserved, by unit: (key, mask, reserved). -/
def camKey (width : Nat) (b : List Nat) : Nat × Nat × Nat :=
  (List.range width).foldl (fun acc u =>
    (acc.1 + leAt b (24 * u) 10 * 2 ^ (80 * u), acc.2.1 + leAt b (24 * u + 10) 10 * 2 ^ (80 * u), acc.2.2 + leAt b (24 * u + 20) 4)) (0, 0, 0)

/-- CAM_SHIFT_COMPLETE: the write in progress of a bank becomes visible in one act and completes (R383, R385). -/
def camComplete (s : State) (b : Nat) : State :=
  match tget [] s.cam.writes b with
  | [] => s
  | w :: t =>
    let (i, moved) := camMoves s w
    let gen := wrapAdd 32 s.cam.gen 1
    let s := setCamBank { s with cam := { s.cam with gen := gen } } b (camApply (camBank s b) w i gen)
    let s := if w.op = 4 then setFldAt s Reg.CAM_BANK.width [b] w.width else s
    let s := bump s Reg.CAM_COUNT.writes
    camNext t b (complete s w.sub .ok 0 [gen, i, moved])

/-- A CAM_RULES load (R73, R384, R385): the banks it names are cleared, its records inserted in order, in one generation. -/
def camLoad (s : State) (rs : List CamRule) : State :=
  let gen := wrapAdd 32 s.cam.gen 1
  let banks := (rs.map (·.bank)).eraseDups
  let s := banks.foldl (fun s b => setCamBank s b []) { s with cam := { s.cam with gen := gen } }
  rs.foldl (fun s r =>
    let s := setFldAt s Reg.CAM_BANK.width [r.bank] r.width
    let b := camBank s r.bank
    let i := camPlace b r.priority
    setCamBank s r.bank (b.take i ++ [{ key := r.key, mask := r.mask, priority := r.priority, action := r.action, gen := gen }] ++ b.drop i)) s

/-- One of the CAM_WRITE rows. -/
def camVerb (op : Nat) (sub : Sub) (bank width priority action : Nat) (blocks : List Nat) (rsv : Nat) : State → State :=
  verb 3 sub fun s =>
    match ctxBad s sub.context with
    | some (st, d) => refuse s sub st d
    | none =>
      let k := if op = 4 then (0, 0, 0) else camKey width blocks
      camWrite s { sub := sub, op := op, bank := bank, width := width, priority := priority, action := action, key := k.1, mask := k.2.1,
                   rsv := rsv + k.2.2 }

/-- CAM_WRITE_INSERT (R382): `blocks` are the key blocks at key_addr. -/
def execCamWriteInsert (sub : Sub) (bank width priority action : Nat) (blocks : List Nat) (rsv : Nat) (s : State) : Host.Outcome State Fault Refusal :=
  run s (whenUp (camVerb 1 sub bank width priority action blocks rsv))

/-- CAM_WRITE_DELETE (R382). -/
def execCamWriteDelete (sub : Sub) (bank width priority : Nat) (blocks : List Nat) (rsv : Nat) (s : State) : Host.Outcome State Fault Refusal :=
  run s (whenUp (camVerb 2 sub bank width priority 0 blocks rsv))

/-- CAM_WRITE_MODIFY (R382). -/
def execCamWriteModify (sub : Sub) (bank width priority action : Nat) (blocks : List Nat) (rsv : Nat) (s : State) : Host.Outcome State Fault Refusal :=
  run s (whenUp (camVerb 3 sub bank width priority action blocks rsv))

/-- CAM_WRITE_CLEAR (R382). -/
def execCamWriteClear (sub : Sub) (bank width rsv : Nat) (s : State) : Host.Outcome State Fault Refusal :=
  run s (whenUp (camVerb 4 sub bank width 0 0 [] rsv))

/-- CAM_SHIFT_COMPLETE (R385). -/
def execCamShiftComplete (bank : Nat) (s : State) : Host.Outcome State Fault Refusal :=
  run s (whenUp fun s => camComplete s bank)

/-- A drain's target has no older item. -/
def camDrained (s : State) (g : Nat) : Bool := !s.cam.held.any fun h => serialLt 32 h.2 g

/-- CAM_DRAIN (R387). -/
def doCamDrain (s : State) (sub : Sub) (g rsv : Nat) : State :=
  if rsv ≠ 0 then refuse s sub .versionMismatch 0x2
  else match ctxBad s sub.context with
  | some (st, d) => refuse s sub st d
  | none =>
    if g ≠ 0 && serialLt 32 s.cam.gen g then refuse s sub .versionMismatch 0x7
    else
      let g := if g = 0 then s.cam.gen else g
      if camDrained s g then complete s sub .ok 0 [g] else { s with cam := { s.cam with drains := s.cam.drains ++ [(sub, g)] } }

/-- CAM_DRAIN (R387). -/
def execCamDrain (sub : Sub) (g rsv : Nat) (s : State) : Host.Outcome State Fault Refusal :=
  run s (whenUp (verb 3 sub fun s => doCamDrain s sub g rsv))

/-- CAM_DRAIN_DONE (R387): the drains whose last older item has retired complete. -/
def execCamDrainDone (s : State) : Host.Outcome State Fault Refusal :=
  run s (whenUp fun s =>
    let done := s.cam.drains.filter fun d => camDrained s d.2
    let s := { s with cam := { s.cam with drains := s.cam.drains.filter fun d => !camDrained s d.2 } }
    done.foldl (fun s d => complete s d.1 .ok 0 [d.2]) s)

/-- The lookup key of CAM_LOOKUP_KEY, cut to the width. -/
def hostKey (s : State) (width : Nat) : Nat :=
  ((List.range 5).foldl (fun n w => n + fldAt s Reg.CAM_LOOKUP_KEY.key [w] * 2 ^ (64 * w)) 0) % 2 ^ (80 * width)

/-- CAM_LOOKUP_CTL.go (R388): the lookup of client 3 and its result registers. -/
def hostLookup (s : State) (width : Nat) : State :=
  let s := setFld s Reg.CAM_LOOKUP_CTL.width width
  if !List.contains [1, 2, 4] width then s
  else
    let r := camLookup s 3 (fld s Reg.CAM_LOOKUP_MASK.banks) width (hostKey s width)
    let s := camCount s
    let (b, i, e) : Nat × Nat × CamEntry := r.getD (0, 0, ⟨0, 0, 0, 0, 0⟩)
    let s := setFld (setFld s Reg.CAM_LOOKUP_RES0.action e.action) Reg.CAM_LOOKUP_RES0.generation e.gen
    let s := setFld (setFld s Reg.CAM_LOOKUP_RES1.hit (b2n r.isSome)) Reg.CAM_LOOKUP_RES1.bank b
    setFld (setFld s Reg.CAM_LOOKUP_RES1.index i) Reg.CAM_LOOKUP_RES1.priority e.priority

/-- CAM_LOOKUP_CTL_GO (R388): a write of CAM_LOOKUP_CTL with go 1 and the width. -/
def execCamLookupCtlGo (width : Nat) (s : State) : Host.Outcome State Fault Refusal :=
  run s (hostAccess fun s => hostLookup (dropShadow s) width)

/-! ### Index images (R389 to R393) -/

/-- Node record size Sn of an index (R390). -/
def vsrNodeSize (dim elem degree : Nat) : Nat := ceilDiv (32 + dim * (if elem = 0 then 1 else 2) + 4 * degree) 64 * 64

/-- Pages of a bank pair's vector graph region. -/
def vsrPages (s : State) : Nat := s.lay.active.attic.vsrKib / 4

/-- Byte offset of the vector graph region in a bank pair: the regions lie in the order of the ATTIC section (DEDUCED). -/
def vsrBase (s : State) : Nat := 1024 * (s.lay.active.attic.crateKib + s.lay.active.attic.slabKib + s.lay.active.attic.invKib)

/-- The NBU of enabled bank pair `i`. -/
def vsrPair (s : State) (i : Nat) : Nat := (liveStacks s).getD (i / 1024) 0 * 1024 + i % 1024

/-- The attic address of a node record (R391). -/
def vsrAddr (s : State) (x : VsrIndex) (n : Nat) : Nat :=
  vsrPair s ((x.b0 + n) % x.pairs) * bankPair + vsrBase s + 4096 * x.page + n / x.pairs * vsrNodeSize x.dim x.elem x.degree

/-- The header of an image breaks R389. -/
def vsrHeaderBad (b : List Nat) : Bool :=
  let dim := leAt b 8 2
  let first := leAt b 12 2
  let count := leAt b 14 2
  let shard := leAt b 16 2
  let nodes := leAt b 20 4
  !(leAt b 0 4 = 0x58565953 && leAt b 4 1 = 1 && leAt b 5 1 ≤ 2 && leAt b 6 1 ≤ 1 && 1 ≤ leAt b 7 1 && leAt b 7 1 ≤ 64 &&
    dim % 16 = 0 && 16 ≤ dim && dim ≤ 4096 && 1 ≤ leAt b 10 2 && 1 ≤ count && count ≤ 64 && first ≤ shard && shard < first + count &&
    leAt b 18 2 = 0 && 1 ≤ nodes && nodes ≤ 16777216 && leAt b 24 4 < nodes && leAt b 28 4 = 0 && leNat (slice b 80 48) = 0)

/-- An element pattern is finite. -/
def vsrFinite (elem bits : Nat) : Bool :=
  elem = 0 || (match decode16 (elem = 2) bits with | .fin _ => true | _ => false)

/-- A node record breaks R390. -/
def vsrNodeBad (dim elem degree nodes i : Nat) (r : List Nat) : Bool :=
  let eb := if elem = 0 then 1 else 2
  let nb := (List.range degree).map fun j => leAt r (32 + dim * eb + 4 * j) 4
  let used := nb.takeWhile (· ≠ 0xFFFFFFFF)
  let scaleOk : Bool := if elem = 0 then (match decode32 (leAt r 16 4) with | .fin d => decide (0 < d.m) | _ => false) else leAt r 16 4 = 0
  !(scaleOk && leNat (slice r 20 12) = 0 && (List.range dim).all (fun j => vsrFinite elem (leAt r (32 + eb * j) eb)) &&
    used.all (fun n => n < nodes && n ≠ i) && (nb.drop used.length).all (· = 0xFFFFFFFF) &&
    (r.drop (32 + dim * eb + 4 * degree)).all (· = 0))

/-- The body of an image breaks R390. -/
def vsrBodyBad (b : List Nat) : Bool :=
  let n := vsrNodeSize (leAt b 8 2) (leAt b 5 1) (leAt b 7 1)
  (List.range (leAt b 20 4)).any fun i => vsrNodeBad (leAt b 8 2) (leAt b 5 1) (leAt b 7 1) (leAt b 20 4) i (slice b (128 + i * n) n)

/-- Page runs taken in the vector graph regions: (first, pages). -/
def vsrRuns (s : State) : List (Nat × Nat) :=
  (tvals s.vsr.slots).map (fun v => (v.index.page, v.index.pages)) ++ s.vsr.old.map fun o => (o.2.page, o.2.pages)

/-- The outcome of a load in VSR_LOAD_STATUS and VSR_LOADED. -/
def vsrStatus (s : State) (slot : Nat) (st : Status) (d id : Nat) : State :=
  let s := setFld (setFld s Reg.VSR_LOAD_STATUS.code st.code) Reg.VSR_LOAD_STATUS.detail d
  report s 0x0D01 slot 0 [slot, st.code, id]

/-- VSR_LOAD_CTL op 1 (R391, R392). -/
def vsrLoad (s : State) (slot ctx : Nat) (shared : Bool) (length : Nat) (img : List Nat) : State :=
  let id := leAt img 10 2
  let n := vsrNodeSize (leAt img 8 2) (leAt img 5 1) (leAt img 7 1)
  let nodes := leAt img 20 4
  if !hasCap s 4 then vsrStatus s slot .unitAbsent 0x1 id
  else if vsrHeaderBad img || length ≠ 128 + nodes * n || vsrBodyBad img then vsrStatus s slot .versionMismatch 0x7 id
  else if sha384 (slice img 128 (nodes * n)) ≠ slice img 32 48 then vsrStatus s slot .digestMismatch 0x1 id
  else if s.vsr.slots.any fun v => v.1 ≠ slot && v.2.index.id = id && v.2.index.shard = leAt img 16 2 then vsrStatus s slot .versionMismatch 0x10 id
  else if (tget? s.vsr.slots slot).elim false (·.owner ≠ ctx) then vsrStatus s slot .protection 0x7 id
  else match conflictWith s { no := 6, scope := [scIndex slot] } with
  | some a => vsrStatus (report s 0x160E 6 0 [6, a]) slot .busyMaint 0x1 id
  | none =>
    let e := 1024 * (liveStacks s).length
    let pages := ceilDiv (ceilDiv nodes e * n) 4096
    match lowestRun (vsrRuns s) (vsrPages s) pages with
    | none => vsrStatus s slot .noCapacity 0x5 id
    | some page =>
      let x : VsrIndex := { id := id, elem := leAt img 5 1, metric := leAt img 6 1, degree := leAt img 7 1, dim := leAt img 8 2, first := leAt img 12 2,
                            count := leAt img 14 2, shard := leAt img 16 2, nodes := nodes, entry := leAt img 24 4, page := page, pages := pages,
                            pairs := e, b0 := slot * 97 % e }
      let s := vsrRetireSlot s slot
      let s := (List.range nodes).foldl (fun s i =>
        { s with nbu := { s.nbu with attic := writeBytes s.nbu.attic (vsrAddr s x i) (slice img (128 + i * n) n) } }) s
      vsrStatus { s with vsr := { s.vsr with slots := tset s.vsr.slots slot { index := x, shared := shared, owner := ctx } } } slot .ok 0 id

/-- VSR_LOAD_CTL op 2 (R393). -/
def vsrFree (s : State) (slot : Nat) : State :=
  let id := (tget? s.vsr.slots slot).elim 0 (·.index.id)
  vsrStatus (vsrRetireSlot s slot) slot .ok 0 id

/-- Store the fields of VSR_LOAD_CTL. -/
def vsrCtl (s : State) (op slot ctx : Nat) (shared : Bool) (length : Nat) : State :=
  let s := setFld (setFld s Reg.VSR_LOAD_CTL.op op) Reg.VSR_LOAD_CTL.shared (b2n shared)
  setFld (setFld (setFld s Reg.VSR_LOAD_CTL.slot slot) Reg.VSR_LOAD_CTL.context ctx) Reg.VSR_LOAD_CTL.length length

/-- VSR_LOAD (R392): op 1, with what VSR_LOAD_SRC points at. -/
def execVsrLoad (slot ctx : Nat) (shared : Bool) (length : Nat) (img : List Nat) (s : State) : Host.Outcome State Fault Refusal :=
  run s (hostAccess fun s =>
    let s := dropShadow s
    if partWalker s.part then vsrLoad (vsrCtl s 1 (slot % 64) (ctx % 1024) shared length) (slot % 64) (ctx % 1024) shared length img else s)

/-- VSR_FREE (R393): op 2. -/
def execVsrFree (slot ctx : Nat) (shared : Bool) (length : Nat) (s : State) : Host.Outcome State Fault Refusal :=
  run s (hostAccess fun s =>
    let s := dropShadow s
    if partWalker s.part then vsrFree (vsrCtl s 2 (slot % 64) (ctx % 1024) shared length) (slot % 64) else s)

/-! ### Distances and the walk (R394, R395) -/

/-- A node's record as the banks hold it. -/
def vsrRecord (s : State) (x : VsrIndex) (n : Nat) : List Nat :=
  readBytes s.nbu.attic (vsrAddr s x n) (vsrNodeSize x.dim x.elem x.degree)

/-- The finite value of a pattern. -/
def finOf (e : Elem) : Dyadic := match e with | .fin d => d | _ => dZero

/-- The vector of a node record. -/
def vsrVector (x : VsrIndex) (r : List Nat) : List Dyadic :=
  let scale := finOf (decode32 (leAt r 16 4))
  (List.range x.dim).map fun j =>
    if x.elem = 0 then dMul scale (dInt (toSigned 8 (leAt r (32 + j) 1))) else finOf (decode16 (x.elem = 2) (leAt r (32 + 2 * j) 2))

/-- The distance of a query to a node in binary32 (R394): the exact sum rounded once; a sum outside the format is a free value. -/
def vsrDist (x : VsrIndex) (q : List Nat) (r : List Nat) : Nat :=
  let qs := q.map fun b => finOf (decode32 b)
  let sum := (qs.zip (vsrVector x r)).foldl (fun a p =>
    if x.metric = 0 then (let d := dSub p.1 p.2; dAdd a (dMul d d)) else dSub a (dMul p.1 p.2)) dZero
  match rnd32 sum with
  | .fin d => encodeFloat 8 23 (.fin d)
  | .over _ => Config.overflow32 sum % 2 ^ 32

/-- A binary32 pattern as an ordered number. -/
def f32Key (b : Nat) : Int := if bitOf b 31 then -((b % 2 ^ 31 : Nat) : Int) else ((b % 2 ^ 31 : Nat) : Int)

/-- Order by distance, then label. -/
def candLt (a b : VsrCand) : Bool := decide (f32Key a.dist < f32Key b.dist) || (f32Key a.dist = f32Key b.dist && decide (a.label < b.label))

/-- Insert by order and keep the first `n`. -/
def candInsert (n : Nat) (l : List VsrCand) (c : VsrCand) : List VsrCand := (insertBy candLt c l).take n

/-- A node passes the filter. -/
def vsrPasses (p : VsrParams) (attr : Nat) : Bool :=
  !p.filter || (Nat.land attr p.all = p.all && (p.any = 0 || Nat.land attr p.any ≠ 0))

/-- Replace a walk. -/
def setWalk (s : State) (w : VsrWalk) : State :=
  { s with vsr := { s.vsr with walks := modFirst (fun v => v.id = w.id) (fun _ => w) s.vsr.walks } }

/-- Enter a node's distance into a walk: candidates, results. -/
def walkInsert (s : State) (w : VsrWalk) (n : Nat) : VsrWalk :=
  let r := vsrRecord s w.index n
  let d := if w.bad.contains n then 0x7F800000 else vsrDist w.index w.par.vec r
  let c : VsrCand := { dist := d, label := leAt r 0 8, node := n }
  { w with cands := candInsert w.par.beam w.cands c,
           res := if vsrPasses w.par (leAt r 8 8) then candInsert w.par.k w.res c else w.res }

/-- The unmarked neighbours of a node in list order, up to the visit limit: nodes, and whether the limit was met. -/
def walkNeighbours (s : State) (w : VsrWalk) (n : Nat) : List Nat × Bool :=
  let r := vsrRecord s w.index n
  let eb := if w.index.elem = 0 then 1 else 2
  let nb := ((List.range w.index.degree).map fun j => leAt r (32 + w.index.dim * eb + 4 * j) 4).takeWhile (· ≠ 0xFFFFFFFF)
  let fresh := nb.foldl (fun acc m => if w.marked.contains m || acc.contains m then acc else acc ++ [m]) ([] : List Nat)
  let room := w.par.maxVisits - w.visits
  (fresh.take room, decide (room < fresh.length))

/-- The first candidate not yet expanded. -/
def firstUnexpanded (w : VsrWalk) : Option VsrCand := w.cands.find? (!·.expanded)

/-- What a walk does next: distances to compute, or none where it is over; `fuel` bounds the candidates expanded. -/
def walkOn (s : State) : Nat → VsrWalk → VsrWalk
  | 0, w => w
  | f + 1, w =>
    if w.limit then w
    else match firstUnexpanded w with
      | none => w
      | some c =>
        let w := { w with cands := modFirst (fun x => x = c) (fun x => { x with expanded := true }) w.cands }
        let (ns, lim) := walkNeighbours s w c.node
        let w := { w with marked := w.marked ++ ns, visits := w.visits + ns.length, limit := lim }
        if ns.isEmpty then walkOn s f w else { w with cur := ns, left := ns.length }

/-- Queue the DISTANCE jobs of the nodes a walk waits for (R398). -/
def walkJobs (s : State) (w : VsrWalk) : State :=
  let bytes := w.index.dim * (if w.index.elem = 0 then 1 else 2)
  queueJobs s (w.cur.map fun n =>
    { nbu := vsrPair s ((w.index.b0 + n) % w.index.pairs), entry := 5, ctx := w.ctx, issuer := Issuer.walker w.id n, bytes := bytes })

/-- Begin a walk: the entry node. -/
def walkStart (s : State) (w : VsrWalk) : State :=
  let w := { w with started := true, marked := [w.index.entry], visits := 1, cur := [w.index.entry], left := 1 }
  walkJobs (setWalk s w) w

/-- Start a waiting walk where fewer than 256 are in flight (R396). -/
def walkNext (s : State) : State :=
  if 256 ≤ (s.vsr.walks.filter (·.started)).length then s
  else match s.vsr.walks.find? (!·.started) with
    | some w => walkStart s w
    | none => s

/-- Accept a walk: NO_CAPACITY beyond the waiting places (R396). -/
def walkAccept (s : State) (slot : Nat) (x : VsrIndex) (ctx : Nat) (origin : VsrOrigin) (p : VsrParams) : Option State :=
  if 256 + 4096 ≤ s.vsr.walks.length then none
  else
    let w : VsrWalk := { id := s.vsr.next, slot := slot, index := x, ctx := ctx, origin := origin, par := p }
    some (walkNext { s with vsr := { s.vsr with next := s.vsr.next + 1, walks := s.vsr.walks ++ [w] } })

/-! ### Coordinated queries (R399 to R403) -/

/-- Replace a query. -/
def setQuery (s : State) (q : VsrQuery) : State :=
  { s with vsr := { s.vsr with queries := modFirst (fun v => v.id = q.id) (fun _ => q) s.vsr.queries } }

/-- Order of results: distance, then label. -/
def foundLt (a b : Nat × Nat × Nat) : Bool := decide (f32Key a.1 < f32Key b.1) || (f32Key a.1 = f32Key b.1 && decide (a.2.1 < b.2.1))

/-- Complete a query and forget it. -/
def endQuery (s : State) (q : VsrQuery) (st : Status) (d : Nat) (results : List Nat) : State :=
  let s := { s with vsr := { s.vsr with queries := s.vsr.queries.filter (·.id ≠ q.id) } }
  complete (bump s Reg.VSR_COUNT.queries) q.sub st d results

/-- Every shard has answered or is missing: the merge, the results, the completion (R402, R403). -/
def checkQuery (s : State) (q : VsrQuery) : State :=
  if !q.waits.isEmpty then s
  else if !q.missing.isEmpty && !q.partial_ then endQuery s q .linkDown 0x5 []
  else
    let l := (sortBy foundLt q.found).take q.par.k
    let bytes := (l.map fun r => leBytes 8 r.2.1 ++ leBytes 4 r.1 ++ leBytes 2 r.2.2 ++ [0, 0]).flatten
    let s := if l.isEmpty then s else emit s (.hostWrite q.resultAddr bytes)
    endQuery s q .ok 0 [l.length, q.visited, q.flags, maskOf (q.missing.map fun m => m - q.first)]

/-- A shard is missing (R402). -/
def shardMissing (s : State) (q : VsrQuery) (shard : Nat) : State :=
  let s :=
    if duePerSecond (tget? s.vsr.missingAt shard) s.timebase then
      report { s with vsr := { s.vsr with missingAt := tset s.vsr.missingAt shard s.timebase } } 0x0D02 shard 0 [q.indexId, shard]
    else s
  let q := { q with waits := q.waits.filter (·.1 ≠ shard), missing := q.missing ++ [shard] }
  checkQuery (setQuery s q) q

/-- A shard's answer joins its query. -/
def shardAnswer (s : State) (q : VsrQuery) (shard : Nat) (es : List (Nat × Nat)) (visited flags : Nat) : State :=
  let q := { q with waits := q.waits.filter (·.1 ≠ shard), found := q.found ++ es.map fun e => (e.1, e.2, shard), visited := q.visited + visited,
                    flags := Nat.lor q.flags flags }
  checkQuery (setQuery s q) q

/-- Send VSR_REQ for a shard. -/
def sendVsrReq (s : State) (q : VsrQuery) (shard : Nat) (r : Role) : State :=
  sendMsg s r.device (.vsrReq { filter := q.par.filter, epoch := r.epoch, src := s.device, context := q.sub.context, indexId := q.indexId, shard := shard,
                                k := q.par.k, beam := q.par.beam, request := q.id, maxVisits := q.par.maxVisits, all := q.par.all, any := q.par.any,
                                dim := q.par.vec.length, vec := q.par.vec })

/-- The kind-3 role of a shard. -/
def shardRole (s : State) (shard : Nat) : Option Role := (rolesOf s 3).find? fun r => bitsOf r.key 0 16 = shard

/-- The slot here that holds a shard of an index. -/
def shardSlot (s : State) (id shard : Nat) : Option (Nat × VsrSlot) := s.vsr.slots.find? fun v => v.2.index.id = id && v.2.index.shard = shard

/-- Ask for one shard of a query: walked here, or sent for. -/
def askShard (s : State) (qid shard : Nat) : State :=
  match s.vsr.queries.find? (·.id = qid) with
  | none => s
  | some q =>
    match shardRole s shard with
    | none => shardMissing s q shard
    | some r =>
      if r.device = s.device then
        match shardSlot s q.indexId shard with
        | none => shardMissing s q shard
        | some (i, v) =>
          match walkAccept s i v.index q.sub.context (.here qid) q.par with
          | some s => s
          | none => endQuery s q .noCapacity 0x9 []
      else sendVsrReq s q shard r

/-- Arguments of VSR_QUERY out of range (R399). -/
def vsrArgsBad (k beam maxVisits flags rsv : Nat) : Bool :=
  rsv ≠ 0 || k = 0 || 256 < k || (beam ≠ 0 && (beam < k || 256 < beam)) || 65536 < maxVisits || 4 ≤ flags

/-- The detail of such a refusal: a reserved bit is 0x2 (R38). -/
def vsrArgsDetail (flags rsv : Nat) : Nat := if rsv ≠ 0 ∨ 4 ≤ flags then 0x2 else 0x7

/-- VSR_QUERY (R399): `vec` is what query_addr holds. -/
def doVsrQuery (s : State) (sub : Sub) (id k beam flags : Nat) (vec : List Nat) (resultAddr all any maxVisits rsv : Nat) : State :=
  if vsrArgsBad k beam maxVisits flags rsv then refuse s sub .versionMismatch (vsrArgsDetail flags rsv)
  else match ctxBad s sub.context with
  | some (.badHandle, d) => refuse s sub .badHandle d
  | c =>
    if !hasCap s 4 then refuse s sub .unitAbsent 0x1
    else match c with
    | some (st, d) => refuse s sub st d
    | none =>
      match s.vsr.slots.find? fun v => v.2.index.id = id with
      | none => refuse s sub .badHandle 0xD
      | some (_, v) =>
        let q := (List.range v.index.dim).map fun i => vec.getD i 0
        if !v.shared && v.owner ≠ sub.context then refuse s sub .protection 0x7
        else if q.any fun b => (match decode32 b with | .fin _ => false | _ => true) then refuse s sub .versionMismatch 0x12
        else
          let p : VsrParams := { k := k, beam := if beam = 0 then Nat.max k 64 else beam,
                                 maxVisits := if maxVisits = 0 then fld s Reg.VSR_CFG.max_visits else maxVisits,
                                 filter := bitOf flags 0, all := all, any := any, vec := q }
          let shards := (List.range v.index.count).map (v.index.first + ·)
          let r : VsrQuery := { id := s.vsr.next, sub := sub, indexId := id, first := v.index.first, par := p, partial_ := bitOf flags 1,
                                resultAddr := resultAddr, waits := shards.map fun h => (h, (shardRole s h).elim 0x7FF (·.device), false) }
          let s := { s with vsr := { s.vsr with next := s.vsr.next + 1, queries := s.vsr.queries ++ [r] } }
          shards.foldl (fun s h => askShard s r.id h) s

/-- The results of a walk go to its coordinator; the next waiting walk starts. -/
def walkDone (s : State) (w : VsrWalk) : State :=
  let s := { s with vsr := { s.vsr with walks := s.vsr.walks.filter (·.id ≠ w.id) } }
  let v := s.vsr.visits + w.visits
  let s := bump { s with vsr := { s.vsr with visits := v % 1024 } } Reg.VSR_COUNT.visits (v / 1024)
  let es := w.res.map fun c => (c.dist, c.label)
  let fl := b2n w.limit + 2 * b2n (!w.bad.isEmpty)
  let s := match w.origin with
    | .here qid => match s.vsr.queries.find? (·.id = qid) with
      | some q => shardAnswer s q w.index.shard es w.visits fl
      | none => s
    | .remote src req => sendMsg s src (.vsrRsp { status := .ok, detail := 0, flags := fl, shard := w.index.shard, request := req,
                                                  visited := w.visits, entries := es })
  walkNext (vsrSweep s)

/-- One DISTANCE job of a walk is over: with the last, the nodes are entered in order and the walk goes on. -/
def walkJobDone (s : State) (id : Nat) : State :=
  match s.vsr.walks.find? (·.id = id) with
  | none => s
  | some w =>
    if 1 < w.left then setWalk s { w with left := w.left - 1 }
    else
      let w := w.cur.foldl (fun w n => walkInsert s w n) { w with left := 0 }
      let w := walkOn s (w.cands.length + 1) { w with cur := [] }
      if w.cur.isEmpty then walkDone (setWalk s w) w else walkJobs (setWalk s w) w

/-- A DISTANCE job met an uncorrectable bank error: the node's distance is +∞, the slot is damaged (R398). -/
def walkEcc (s : State) (id node : Nat) : State :=
  match s.vsr.walks.find? (·.id = id) with
  | none => s
  | some w =>
    let s := setWalk s { w with bad := if w.bad.contains node then w.bad else w.bad ++ [node] }
    let s := { s with vsr := { s.vsr with slots := s.vsr.slots.map fun v => if v.1 = w.slot && v.2.index = w.index then (v.1, { v.2 with damaged := true }) else v } }
    report s 0x0D03 w.slot 0 [w.slot, node]

/-- VSR_REQ at a shard holder (R401). -/
def takeVsrReq (s : State) (r : VsrReq) : State :=
  let answer (s : State) (st : Status) (d : Nat) : State :=
    sendMsg s r.src (.vsrRsp { status := st, detail := d, flags := 0, shard := r.shard, request := r.request, visited := 0, entries := [] })
  if !hasCap s 4 then answer s .unitAbsent 0x1
  else match shardSlot s r.indexId r.shard with
  | none => answer s .unitAbsent 0x2
  | some (i, v) =>
    if !v.shared && v.owner ≠ r.context then answer s .protection 0x7
    else if r.dim ≠ v.index.dim then answer s .versionMismatch 0x7
    else
      let p : VsrParams := { k := r.k, beam := r.beam, maxVisits := r.maxVisits, filter := r.filter, all := r.all, any := r.any, vec := r.vec }
      match walkAccept s i v.index r.context (.remote r.src r.request) p with
      | some s => s
      | none => answer s .noCapacity 0x9

/-- A shard's request was refused as stale: sent again once to the role's present device (R402). -/
def shardStale (s : State) (qid shard epoch : Nat) : State :=
  match s.vsr.queries.find? (·.id = qid) with
  | none => s
  | some q =>
    match q.waits.find? (·.1 = shard) with
    | none => s
    | some (_, _, again) =>
      if again then endQuery s q .staleRole epoch []
      else match shardRole s shard with
        | none => shardMissing s q shard
        | some r =>
          let q := { q with waits := q.waits.map fun w => if w.1 = shard then (shard, r.device, true) else w }
          sendVsrReq (setQuery s q) q shard r

/-- VSR_RSP at the coordinator (R402). -/
def takeVsrRsp (s : State) (r : VsrRsp) : State :=
  match s.vsr.queries.find? (·.id = r.request) with
  | none => s
  | some q =>
    if !q.waits.any (·.1 = r.shard) then s
    else match r.status with
      | .ok => shardAnswer s q r.shard r.entries r.visited r.flags
      | .unitAbsent => shardMissing s q r.shard
      | .staleRole => shardStale s q.id r.shard r.detail
      | st => endQuery s q st r.detail []

/-- VSR_QUERY (R399). -/
def execVsrQuery (sub : Sub) (indexId k beam flags : Nat) (vec : List Nat) (resultAddr all any maxVisits rsv : Nat) (s : State) :
    Host.Outcome State Fault Refusal :=
  run s (whenUp (verb 3 sub fun s => doVsrQuery s sub indexId k beam flags vec resultAddr all any maxVisits rsv))

/-- VSR_REQ (R401). -/
def execVsrReq (r : VsrReq) (s : State) : Host.Outcome State Fault Refusal :=
  run s (whenUp fun s => takeVsrReq s r)

/-- VSR_RSP (R402). -/
def execVsrRsp (r : VsrRsp) (s : State) : Host.Outcome State Fault Refusal :=
  run s (whenUp fun s => takeVsrRsp s r)

/-- VSR_SHARD_TIMEOUT (R402): a shard of a request has not answered in shard_timeout_us. -/
def execVsrShardTimeout (request shard : Nat) (s : State) : Host.Outcome State Fault Refusal :=
  run s (whenUp fun s =>
    match s.vsr.queries.find? (·.id = request) with
    | some q => if q.waits.any (·.1 = shard) then shardMissing s q shard else s
    | none => s)

/-! ### Job ends, by issuer (R209, R223, R224) -/

/-- A walker's job ends. -/
def endWalkJob (s : State) (nbu t w node cycles : Nat) (why : HostEnd) : State :=
  match why with
  | .program => walkJobDone (nbuStartAll 4 (endThread s nbu t 0 0 0 cycles false false) nbu) w
  | .ecc page => walkJobDone (walkEcc (nbuStartAll 4 (endThread s nbu t 0x06 0 page cycles false false) nbu) w node) w
  | .abort => nbuStartAll 4 (endThread s nbu t 0x0B 0 0 cycles false false) nbu
  | .limit =>
    let s := nbuStartAll 4 (endThread s nbu t 0x0A 0 0 cycles false false) nbu
    match s.vsr.walks.find? (·.id = w) with
    | some x => teardown s x.ctx { trigger := 1, unit := nbu, code := 0x0A } none
    | none => s

/-- A job of a thread ends, whoever issued it. -/
def endJob (s : State) (nbu t ran cycles : Nat) (why : HostEnd) : State :=
  let x := threadOf s nbu t
  if !x.busy then s
  else match x.issuer with
    | .host => endHost s nbu t ran cycles why
    | .frontEnd w => endFrontEnd s nbu t w cycles why
    | .walker w n => endWalkJob s nbu t w n cycles why

/-- NBU_JOB_END (R209): a job ends by its program, or with an uncorrectable bank error on page `ecc`; `ran` instructions and
`cycles` are measured. -/
def execNbuJobEnd (nbu thread ran cycles : Nat) (ecc : Option Nat) (s : State) : Host.Outcome State Fault Refusal :=
  run s (act fun s => endJob s nbu thread ran cycles (match ecc with | some p => .ecc p | none => .program))

/-- CMD_ENTRY_WRITE (R207): a 64-bit write of CMD_ENTRY starts a host job on an idle thread. -/
def execCmdEntryWrite (nbu thread value : Nat) (s : State) : Host.Outcome State Fault Refusal :=
  run s (hostAccess fun s => writeArea (dropShadow s) nbu thread 0 value true)

/-- CMD_STATUS_ABORT (R209): a write of abort ends the running job at the next instruction boundary, after `ran`
instructions. -/
def execCmdStatusAbort (nbu thread ran cycles : Nat) (s : State) : Host.Outcome State Fault Refusal :=
  run s (hostAct fun s => if flag s Reg.NBU_CTL.host_jobs && nbuPresent s nbu then endJob s nbu thread ran cycles .abort else s)

/-- CYCLE_LIMIT (R223): a job ran beyond its cycle_limit. -/
def execCycleLimit (nbu thread ran cycles : Nat) (s : State) : Host.Outcome State Fault Refusal :=
  run s (act fun s => endJob s nbu thread ran cycles .limit)

end Sys2Proof.Machine
end

