-- ==== Sys2Proof/Machine/Rdma.lean ====
section
/-! DEFINITION. The RDMA engines (chapter "Remote memory access"): connections and their cache, requester and responder on
both transports, protection domains, congestion. -/
namespace Sys2Proof.Machine

/-! ### Requester (R453, R458, R460) -/

/-- Bytes of a connection's path MTU (R456). -/
def mtuBytes (c : Conn) : Nat := 128 * 2 ^ c.mtu

/-- Transaction IDs that a request takes: a RoCEv2 READ takes one for each packet of its answer. -/
def idsOf (c : Conn) (r : RmReq) : Nat := if !c.native && r.op = 0x0C then Nat.max 1 (ceilDiv r.length (mtuBytes c)) else 1

/-- Whether a request is a READ. -/
def isRead (r : RmReq) : Bool := r.op = 0x82 || r.op = 0x0C

/-- The pool of a running move's copy (R478), and its partition. -/
def movePool (s : State) (id : Nat) : Option (Nat × Nat) :=
  (runningMove s id).bind fun m => match m.kind with
    | .age => if 256 ≤ m.target then some (m.target % 256, m.partition) else none
    | _ => (objOf s m.obj).bind fun o => o.lower.bind fun l => if l.tier = 3 then some (l.target, m.partition) else none

/-- The Ethernet port of a device's route, for RoCEv2 (R418, R453). -/
def rocePort (s : State) (dest flow : Nat) : Option Nat :=
  let ps := (routePorts s dest).2.filter fun p => usable s p none
  match tget? s.lay.active.routes dest with
  | some r => if r.policy = 1 then ps.head? else ps[crc32c (leBytes 4 flow ++ leBytes 2 dest ++ [5, 0]) % ps.length]?
  | none => none

/-- Put a RoCEv2 packet on its port; without one it is not sent, and the timer finds it. -/
def sendRoce (s : State) (c : Conn) (partition : Option Nat) (p : RocePkt) : State :=
  match rocePort s c.device c.num with
  | some port => enqueueEth s (port - 48) 5 { body := .roce c.device p, partition := partition }
  | none => s

/-- The UDP source port of a connection (R453). -/
def roceSrc (n : Nat) : Nat := 0xC000 + crc32c (leBytes 4 n) % 0x4000

/-- A packet of a connection without extended headers. -/
def rocePkt (c : Conn) (op id : Nat) (data : List Nat) : RocePkt :=
  { op := op, qp := c.remote, psn := id % 2 ^ 24, ackReq := false, ect := c.cc, ce := false, dscp := c.dscp, srcPort := roceSrc c.num,
    offset := 0, key := 0, length := 0, imm := 0, syndrome := 0, data := data }

/-- Send a request, or send it again (R454, R458). -/
def sendReq (s : State) (c : Conn) (retry : Bool) (r : RmReq) : State :=
  let pp := movePool s r.move
  let pool := (pp.map (·.1)).getD 0xFFFF
  if c.native then
    let e := ((rolesOf s 4).find? (·.key = pool)).elim 0 (·.epoch)
    sendAs s c.device (.rm { type := r.op, retry := retry, epoch := e, src := s.device, pool := pool, conn := c.remote, id := r.id,
                             key := r.key, imm := 0, offset := r.offset, length := r.length, rsv := 0, data := r.data })
      none (pp.map (·.2))
  else
    let last := [0x04, 0x08, 0x0A, 0x0C].contains r.op
    sendRoce s c (pp.map (·.2)) { rocePkt c r.op r.id r.data with ackReq := last, offset := r.offset, key := r.key, length := r.length }

/-- Send waiting requests while at most 4,096 transactions and max_rd READs stand open; `fuel` bounds them. -/
def pumpConn : Nat → State → Nat → State
  | 0, s, _ => s
  | n + 1, s, num =>
    match connOf s num with
    | none => s
    | some c =>
      match c.waiting with
      | [] => s
      | r :: rest =>
        let open_ := sumOf (c.reqs.map (idsOf c))
        let reads := (c.reqs.filter isRead).length
        if c.state = .error || c.rnrWait || c.place ≠ .cached || decide (4096 < open_ + idsOf c r) || (isRead r && decide (c.maxRd ≤ reads)) then s
        else
          let r := { r with id := c.sendId }
          let s := setConn s { c with waiting := rest, reqs := c.reqs ++ [r], sendId := wrapAdd 32 c.sendId (idsOf c r), tTouch := s.timebase }
          pumpConn n (sendReq s c false r) num

/-- Send what waits on a connection. -/
def pump (s : State) (num : Nat) : State := pumpConn ((connOf s num).elim 0 (·.waiting.length)) s num

/-- Send every unacknowledged transaction again from the oldest (R460). -/
def resend (s : State) (num : Nat) : State :=
  match connOf s num with
  | some c => if c.state = .error then s else c.reqs.foldl (fun s r => sendReq s c true r) s
  | none => s

/-- A resend that the timer or LINK_DOWN causes: counted, ERROR once retry_cnt is used up (R460). -/
def retryConn (s : State) (num : Nat) : State :=
  match connOf s num with
  | none => s
  | some c =>
    if c.state = .error || c.reqs.isEmpty || c.rnrWait then s
    else if c.retry ≤ c.retries then errConn s num .linkDown ((c.reqs.head?).elim 0 (·.id)) 7
    else resend (setConn s { c with retries := c.retries + 1 }) num

/-- RDMA_RETRY_TIMER (R460). -/
def execRdmaRetryTimer (conn : Nat) (s : State) : Host.Outcome State Fault Refusal := run s (act fun s => retryConn s conn)

/-- RNR_WAIT_EXPIRY (R460). -/
def execRnrWaitExpiry (conn : Nat) (s : State) : Host.Outcome State Fault Refusal :=
  run s (act fun s =>
    match connOf s conn with
    | some c => if c.rnrWait then pump (resend (setConn s { c with rnrWait := false }) conn) conn else s
    | none => s)

/-- A Ladder move none of whose requests is left has ended (R478). -/
def moveEnded (s : State) (num move : Nat) : State :=
  match connOf s num with
  | some c => if (c.reqs ++ c.waiting).any (·.move = move) then s else { s with rma := { s.rma with ended := s.rma.ended ++ [(move, true)] } }
  | none => s

/-- Requests that an answer ends leave the connection; both counts are restored. -/
def reqsDone (s : State) (num : Nat) (p : RmReq → Bool) : State :=
  match connOf s num with
  | none => s
  | some c =>
    let done := c.reqs.filter p
    if done.isEmpty then s
    else
      let s := setConn s { c with reqs := c.reqs.filter fun r => !p r, retries := 0, rnrs := 0, tTouch := s.timebase }
      let s := (done.filter isRead).foldl (fun s r => { s with rma := { s.rma with reads := s.rma.reads ++ [(r.move, r.offset, r.got)] } }) s
      pump ((done.map (·.move)).eraseDups.foldl (fun s m => moveEnded s num m) s) num

/-- An ACK of a transaction: it and every earlier one that is no READ (R460). -/
def ackReqs (s : State) (num id : Nat) : State :=
  reqsDone s num fun r => !isRead r && (r.id = id || serialLt 32 r.id id)

/-- An RNR answer (R460). -/
def rnrConn (s : State) (num : Nat) : State :=
  match connOf s num with
  | none => s
  | some c =>
    if c.reqs.isEmpty || c.rnrWait then s
    else if c.rnrRetry ≤ c.rnrs then errConn s num .linkDown ((c.reqs.head?).elim 0 (·.id)) 7
    else setConn s { c with rnrWait := true, rnrs := c.rnrs + 1 }

/-- A NAK other than sequence or RNR (R457). -/
def nakConn (s : State) (num id : Nat) (st : Status) (detail : Nat) : State := errConn s num st id detail

/-- The status of a code (R59). -/
def statusOf (n : Nat) : Status :=
  (([.unitAbsent, .noCapacity, .budgetExhausted, .tierFault, .contextTorn, .staleRole, .preempted, .cancelled, .badHandle, .protection,
     .busyMaint, .abandoned, .tablePaused, .truncated, .versionMismatch, .linkDown, .digestMismatch, .warmFallback, .windowMiss] : List Status).find?
    fun x => x.code = n).getD .ok

/-! ### The connection cache (R471 to R473) -/

/-- Cache slots in use. -/
def cacheUsed (s : State) : Nat :=
  (s.rma.conns.filter fun x => match x.2.place with | .cached => true | .spilling _ => true | _ => false).length

/-- Slots of the spill area in use. -/
def spillSlots (s : State) : List Nat :=
  s.rma.conns.filterMap fun x => match x.2.place with | .spilling n => some n | .spilled n => some n | .fetching n => some n | .cached => none

/-- Spill slots that the area has. -/
def spillCount (s : State) : Nat := if flag s Reg.RMA_SPILL.enable then fld s Reg.RMA_SPILL.count else 0

/-- A connection may be spilled (R472). -/
def canSpill (c : Conn) : Bool :=
  c.place = .cached && c.reqs.isEmpty && c.waiting.isEmpty && c.write.isNone && c.held.isEmpty && !c.rnrWait

/-- Start the next background spill, of the qualifying connection touched longest ago. -/
def startSpill (s : State) : State :=
  match minBy (·.tTouch) ((tvals s.rma.conns).filter canSpill), (List.range (spillCount s)).find? fun n => !(spillSlots s).contains n with
  | some c, some n => setConn s { c with place := .spilling n }
  | _, _ => s

/-- A spill is under way. -/
def spilling (s : State) : Bool := (tvals s.rma.conns).any fun c => match c.place with | .spilling _ => true | _ => false

/-- Keep spill_low cache slots free. -/
def keepFree (s : State) : State :=
  if spilling s || decide (fld s Reg.RMA_CFG.spill_low + cacheUsed s ≤ 16384) then s else startSpill s

/-- The 256 bytes of a connection context (R456); its opaque engine bytes are open values. -/
def connBytes (s : State) (c : Conn) : List Nat :=
  leBytes 4 c.num ++ [(if c.state = .ready then 1 else 2), b2n !c.native, c.pd, b2n c.cc + 2 * b2n c.notify] ++ leBytes 4 c.remote ++
    leBytes 2 c.device ++ [c.mtu, c.dscp] ++ leBytes 4 c.sendId ++ leBytes 4 c.recvH ++
    [c.timeout, c.retry + 16 * c.rnrRetry, c.maxRd, c.errStatus] ++ leBytes 4 c.errId ++ leBytes 2 c.notifyRing ++ List.replicate 6 0 ++
    leBytes 8 c.recvBase ++ leBytes 4 c.recvSlots ++ leBytes 4 c.recvHead ++ leBytes 4 c.rate ++ leBytes 4 c.target ++ leBytes 8 c.tTouch ++
    ((List.range 184).map fun i => Config.fresh (s.link.entropy + i) % 256)

/-- Finish a CREATE: the connection is READY. -/
def createDone (s : State) (c : Conn) : State :=
  let s := setConn s { c with tTouch := s.timebase }
  let s := { s with rma := { s.rma with createWait := none } }
  keepFree (setFld (setFld (setFld s Reg.RMA_CONN_CTL.busy 0) Reg.RMA_CONN_CTL.code 0) Reg.RMA_CONN_CTL.detail 0)

/-- A CREATE that waits takes a free slot. -/
def tryCreate (s : State) : State :=
  match s.rma.createWait with
  | some c => if cacheUsed s < 16384 then createDone s c else s
  | none => s

/-- Fail the operation of RMA_CONN_CTL. -/
def connCtlFails (s : State) (st : Status) (detail : Nat) : State :=
  setFld (setFld (setFld s Reg.RMA_CONN_CTL.busy 0) Reg.RMA_CONN_CTL.code st.code) Reg.RMA_CONN_CTL.detail detail

/-- The connection that RMA_CONN_DATA describes; none where a field breaks R456. -/
def connFrom (s : State) : Option Conn :=
  let b := ((List.range 32).map fun w => leBytes 8 (fldAt s Reg.RMA_CONN_DATA.word [w])).flatten
  let at_ (o n : Nat) := leAt b o n
  let num := at_ 0 4
  let engine := at_ 4 1 + at_ 0x1B 1 + at_ 0x1C 4 + at_ 0x34 4 + at_ 0x38 4 + at_ 0x3C 4 + at_ 0x40 8 + leAt b 0x48 184
  let ok := decide (2 ≤ num) && decide (num < 2 ^ 24) && decide (at_ 5 1 ≤ 1) && decide (at_ 7 1 ≤ 3) && decide (at_ 8 4 < 2 ^ 24) &&
    decide (at_ 12 2 < 2 ^ 11) && decide (3 ≤ at_ 14 1) && decide (at_ 14 1 ≤ 5) && decide (at_ 15 1 < 64) && decide (1 ≤ at_ 0x18 1) &&
    decide (at_ 0x18 1 ≤ 20) && !bitOf (at_ 0x19 1) 3 && !bitOf (at_ 0x19 1) 7 && decide (1 ≤ at_ 0x1A 1) && decide (at_ 0x1A 1 ≤ 64) &&
    decide (at_ 0x20 2 < 1024) && at_ 0x22 6 = 0 && at_ 0x28 8 % 4096 = 0 && decide (at_ 0x30 4 ≤ 65536) && engine = 0
  if ok then
    some { num := num, native := at_ 5 1 = 1, pd := at_ 6 1, cc := bitOf (at_ 7 1) 0, notify := bitOf (at_ 7 1) 1, remote := at_ 8 4,
           device := at_ 12 2, mtu := at_ 14 1, dscp := at_ 15 1, sendId := at_ 16 4, recvH := at_ 20 4, timeout := at_ 0x18 1,
           retry := at_ 0x19 1 % 8, rnrRetry := at_ 0x19 1 / 16, maxRd := at_ 0x1A 1, notifyRing := at_ 0x20 2, recvBase := at_ 0x28 8,
           recvSlots := at_ 0x30 4 }
  else none

/-- CREATE (R457, R471, R472). -/
def connCreate (s : State) : State :=
  if fld s Reg.RMA_CONN_CTL.busy = 1 then s
  else
    let s := setFld s Reg.RMA_CONN_CTL.op 1
    match connFrom s with
    | none => connCtlFails s .versionMismatch 7
    | some c =>
      if !pdValid s c.pd then connCtlFails s .versionMismatch 7
      else if (connOf s c.num).isSome then connCtlFails s .badHandle 0xF
      else if 16384 + spillCount s ≤ s.rma.conns.length then connCtlFails s .noCapacity 0xB
      else if cacheUsed s < 16384 then createDone s c
      else
        let s := if spilling s then s else startSpill s
        if spilling s then setFld { s with rma := { s.rma with createWait := some c } } Reg.RMA_CONN_CTL.busy 1
        else
          let s := connCtlFails s .noCapacity 0xB
          if duePerSecond s.rma.spillFullAt s.timebase then
            report { s with rma := { s.rma with spillFullAt := some s.timebase } } 0x1503 0 0 [c.num]
          else s

/-- The cellar targets that pools are (R478): those eligible are listed, those no longer configured go. -/
def refreshPools (s : State) : State :=
  let good (p : Nat) : Bool := fldAt s Reg.RMA_POOL.valid [p] = 1 && (rolesOf s 4).any (·.key = p) &&
    (match connOf s (fldAt s Reg.RMA_POOL.conn [p]) with | some c => c.pd = 0 && c.state = .ready | none => false)
  let ps := (List.range 256).filter good
  let keep := s.tier.targets.filter fun t => !t.remote || ps.contains t.number || s.rma.lostPools.contains t.number
  let new := ps.filter fun p => !keep.any fun t => t.remote && t.number = p
  let s := { s with tier := { s.tier with targets := keep ++ new.map fun p => { remote := true, number := p } } }
  noteCap s

/-- CONN_CREATE (R471): RMA_CONN_CTL with go and op 1. -/
def execConnCreate (s : State) : Host.Outcome State Fault Refusal := run s (hostAct fun s => refreshPools (connCreate s))

/-- A pool has stopped answering (R479). -/
def poolLost (s : State) (p : Nat) : State :=
  if s.rma.lostPools.contains p then s
  else targetLost { s with rma := { s.rma with lostPools := s.rma.lostPools ++ [p] } } true p

/-- DESTROY (R457, R466, R471). -/
def connDestroy (s : State) (num : Nat) : State :=
  if fld s Reg.RMA_CONN_CTL.busy = 1 then s
  else
    let s := setFld (setFld s Reg.RMA_CONN_CTL.op 2) Reg.RMA_CONN_CTL.conn num
    match connOf s num with
    | none => connCtlFails s .badHandle 0xE
    | some c =>
      let s := endAccess s c
      let moves := ((c.reqs ++ c.waiting).map (·.move)).eraseDups
      let s := { s with rma := { s.rma with conns := tdel s.rma.conns num, ended := s.rma.ended ++ moves.map fun m => (m, false) } }
      connCtlFails (tryCreate (raiseGen s c.pd)) .ok 0

/-- CONN_DESTROY (R457): RMA_CONN_CTL with go and op 2. -/
def execConnDestroy (conn : Nat) (s : State) : Host.Outcome State Fault Refusal :=
  run s (hostAct fun s => refreshPools (connDestroy s (conn % 2 ^ 24)))

/-- READ into RMA_CONN_DATA (R456). -/
def connRead (s : State) (num : Nat) : State :=
  if fld s Reg.RMA_CONN_CTL.busy = 1 then s
  else
    let s := setFld (setFld s Reg.RMA_CONN_CTL.op 3) Reg.RMA_CONN_CTL.conn num
    match connOf s num with
    | none => connCtlFails s .badHandle 0xE
    | some c =>
      let b := connBytes s c
      let s := { s with link := { s.link with entropy := s.link.entropy + 184 } }
      connCtlFails ((List.range 32).foldl (fun s w => setFldAt s Reg.RMA_CONN_DATA.word [w] (leAt b (8 * w) 8)) s) .ok 0

/-- CONN_READ (R456): RMA_CONN_CTL with go and op 3. -/
def execConnRead (conn : Nat) (s : State) : Host.Outcome State Fault Refusal :=
  run s (hostAccess fun s => connRead (dropShadow s) (conn % 2 ^ 24))

/-- CONN_SPILL_COMPLETE (R473). -/
def spillConn (s : State) (num : Nat) : State :=
  match connOf s num with
  | some c =>
    match c.place with
    | .spilling n =>
      let s := emit (setConn s { c with place := .spilled n }) (.hostWrite (fld s Reg.RMA_SPILL_BASE.addr + 256 * n) (connBytes s c))
      let s := { s with link := { s.link with entropy := s.link.entropy + 184 } }
      keepFree (tryCreate s)
    | _ => s
  | none => s

/-- CONN_SPILL_COMPLETE (R473): the spill of a connection. -/
def execConnSpillComplete (conn : Nat) (s : State) : Host.Outcome State Fault Refusal := run s (act fun s => spillConn s conn)

/-- Packets held across all fetches. -/
def heldPkts (s : State) : Nat := sumOf ((tvals s.rma.conns).map (·.held.length))

/-- A packet that a full hold drops (R473). -/
def fetchDrop (s : State) : State :=
  let s := bump s Reg.RMA_COUNT.fetch_drops
  let s := { s with rma := { s.rma with dropCount := s.rma.dropCount + 1 } }
  if duePerSecond s.rma.dropAt s.timebase then
    let n := s.rma.dropCount
    report { s with rma := { s.rma with dropAt := some s.timebase, dropCount := 0 } } 0x1504 0 0 [n]
  else s

/-- A packet, message or request for a connection: at once where it is cached, else held while a fetch runs (R473). -/
def throughCache (s : State) (c : Conn) (p : HeldPkt) (f : State → State) : State :=
  match c.place with
  | .cached => f s
  | .spilling _ => f (setConn s { c with place := .cached })
  | .spilled n =>
    let s := if cacheUsed s < 16384 || spilling s then s else startSpill s
    if heldPkts s < 512 then setConn s { c with place := .fetching n, held := [p] } else fetchDrop (setConn s { c with place := .fetching n })
  | .fetching _ => if heldPkts s < 512 then setConn s { c with held := c.held ++ [p] } else fetchDrop s

/-! ### Protection (R462 to R467) -/

/-- The region that a key names, if it is valid (R463). -/
def regionOf (s : State) (key : Nat) : Option Region :=
  (tget? s.rma.regions (key / 2 ^ 16)).bind fun r => if r.tag = key % 2 ^ 16 then some r else none

/-- The classification of a request (R465): refused, and the CAM item that it holds. -/
def classify (s : State) (c : Conn) (op key src : Nat) : State × Bool × Nat :=
  let k := c.num + op * 2 ^ 24 + c.pd * 2 ^ 32 + key / 2 ^ 16 * 2 ^ 40 + src * 2 ^ 56 + b2n c.native * 2 ^ 67
  let hit := camLookup s 2 (2 ^ 64 - 1) 1 k
  let (s, item) := camHold (camCount s)
  match hit with
  | none => (s, false, item)
  | some h =>
    let a := h.2.2.action
    let n := bitsOf a 7 9
    let s := if a % 4 = 2 then { s with cam := { s.cam with counters := tset s.cam.counters n (tget 0 s.cam.counters n + 1) } } else s
    (s, a % 4 = 1, item)

/-- The order at which a request's key, rights and bounds fail (R464, orders 4 to 6). -/
def regionBad (s : State) (c : Conn) (key offset length : Nat) (write : Bool) : Option Nat :=
  match regionOf s key with
  | none => some 4
  | some r =>
    if r.pd ≠ c.pd then some 4
    else if (if write then !r.write else !r.read) then some 5
    else if r.length * 4096 < offset + length then some 6
    else none

/-- Receive slots of a connection that host software has not freed (R461). -/
def slotsBusy (s : State) (c : Conn) : List Nat :=
  let e := oringOf s c.notifyRing
  let gone := e.posted - ringUsed (orSize s c.notifyRing) e.head e.tail
  c.slotsOut.filter fun p => decide (gone ≤ p)

/-- Whether a SEND or a notification finds no room (R461, order 7). -/
def noRoom (s : State) (c : Conn) (send imm : Bool) : Bool :=
  (c.notify && (send || imm) && !orRoom s c.notifyRing 1) || (send && decide (c.recvSlots ≤ (slotsBusy s c).length))

/-- Count a refusal of orders 2 to 6 and post RMA_PROT_VIOLATION at most once per second per PD. -/
def protRefusal (s : State) (c : Conn) : State :=
  let s := bump s Reg.RMA_COUNT.prot_refusals
  let n := tget 0 s.rma.protCount c.pd + 1
  let s := { s with rma := { s.rma with protCount := tset s.rma.protCount c.pd n } }
  if flag s Reg.RMA_CFG.prot_evt && duePerSecond (tget? s.rma.protAt c.pd) s.timebase then
    report { s with rma := { s.rma with protAt := tset s.rma.protAt c.pd s.timebase, protCount := tdel s.rma.protCount c.pd } } 0x1502 c.pd 0 [c.num, c.pd, n]
  else s

/-- The native status and detail of a failed order (R464). -/
def orderStatus : Nat → Status × Nat
  | 1 => (.versionMismatch, 0x7)
  | 7 => (.noCapacity, 0xA)
  | 8 => (.tierFault, 0x3)
  | n => (.protection, n + 6)

/-- The NAK syndrome of a failed order (R451, R464). -/
def orderSyndrome : Nat → Nat
  | 1 => 0x61
  | 8 => 0x63
  | _ => 0x62

/-- Write bytes of a region's space. -/
def areaWrite (s : State) (key offset : Nat) (data : List Nat) : State :=
  match regionOf s key with
  | some r => { s with rma := { s.rma with area := writeBytes s.rma.area (r.offset * 4096 + offset) data } }
  | none => s

/-- Read bytes of a region's space. -/
def areaRead (s : State) (key offset n : Nat) : List Nat :=
  match regionOf s key with
  | some r => readBytes s.rma.area (r.offset * 4096 + offset) n
  | none => []

/-- Post a notification (R461). -/
def notifyPost (s : State) (c : Conn) (kind imm key where_ length : Nat) : State :=
  if !c.notify then s
  else
    let e := oringOf s c.notifyRing
    advanceORing (emit s (.notify c.notifyRing { kind := kind, phase := e.phase, conn := c.num, imm := imm, key := key, where_ := where_,
                                                 length := length, time := s.timebase })) c.notifyRing

/-- A SEND in the receive ring, with its notification. -/
def takeSend (s : State) (c : Conn) (data : List Nat) : State :=
  let pos := (oringOf s c.notifyRing).posted
  let s := emit s (.hostWrite (c.recvBase + 4096 * c.recvHead) data)
  let s := setConn s { c with recvHead := (c.recvHead + 1) % Nat.max 1 c.recvSlots, slotsOut := slotsBusy s c ++ [pos] }
  notifyPost s c 2 0 0 c.recvHead data.length

/-! ### Native responder (R454, R459, R464) -/

/-- Answer with RM_ACK. -/
def sendRmAck (s : State) (c : Conn) (kind id : Nat) (st : Status) (detail expected : Nat) : State :=
  sendAs s c.device (.rmAck { kind := kind, status := st.code, detail := detail, src := s.device, conn := c.remote, id := id, expected := expected }) none none

/-- The first order of R464 that a native request fails, with the classification made. -/
def rmChecks (s : State) (c : Conn) (m : RmMsg) (ecc : Bool) : State × Option Nat :=
  let send := m.type = 0x84
  let read := m.type = 0x82
  let bad := m.rsv ≠ 0 || (if read then !m.data.isEmpty else decide (m.data.length ≠ m.length)) ||
    decide ((if send then 4096 else 2 ^ 20) < m.length) || (send && (m.key ≠ 0 || m.offset ≠ 0)) || (m.type ≠ 0x81 && m.imm ≠ 0)
  if bad then (s, some 1)
  else
    let (s, no, item) := classify s c m.type m.key m.src
    let s := camRetire s item
    if no then (s, some 2)
    else if !send && (regionBad s c m.key m.offset m.length (!read)).isSome then (s, regionBad s c m.key m.offset m.length (!read))
    else if noRoom s c send (m.type = 0x81) then (s, some 7)
    else if ecc then (s, some 8)
    else (s, none)

/-- Carry out a native request that passed every check. -/
def rmApply (s : State) (c : Conn) (m : RmMsg) : State :=
  match m.type with
  | 0x82 => sendAs s c.device (.rm { m with type := 0x83, retry := false, epoch := 0, src := s.device, pool := 0xFFFF, conn := c.remote, key := 0, imm := 0,
                                            offset := 0, data := areaRead s m.key m.offset m.length }) none none
  | 0x84 => takeSend s c m.data
  | 0x81 => notifyPost (areaWrite s m.key m.offset m.data) c 1 m.imm m.key m.offset m.length
  | _ => areaWrite s m.key m.offset m.data

/-- Check and carry out a native request; a new one moves H (R459). -/
def rmServe (s : State) (c : Conn) (m : RmMsg) (ecc new : Bool) : State :=
  let (s, bad) := rmChecks s c m ecc
  match bad with
  | some 7 => sendRmAck s c 3 m.id .noCapacity 0xA (wrapAdd 32 c.recvH 1)
  | some n =>
    let (st, d) := orderStatus n
    let s := if 2 ≤ n && n ≤ 6 then protRefusal s c else s
    errConn (sendRmAck s c 2 m.id st d 0) c.num st m.id d
  | none =>
    let c := if new then { c with recvH := m.id, tTouch := s.timebase } else c
    let s := rmApply (setConn s c) c m
    if m.type = 0x82 then s else sendRmAck s c 0 m.id .ok 0 0

/-- A native request on a cached connection (R459). -/
def rmDecide (s : State) (m : RmMsg) (ecc : Bool) : State :=
  match connOf s m.conn with
  | none => bump s Reg.RMA_COUNT.dropped
  | some c =>
    if c.state = .error then bump s Reg.RMA_COUNT.dropped
    else
      let next := wrapAdd 32 c.recvH 1
      let back := (c.recvH + 2 ^ 32 - m.id) % 2 ^ 32
      if m.id = next then rmServe s c m ecc true
      else if back < 4096 then
        let s := bump s Reg.RMA_COUNT.dup_acks
        if m.type = 0x82 then rmServe s c m ecc false else sendRmAck s c 0 m.id .ok 0 0
      else sendRmAck s c 1 m.id .ok 0 next

/-- Read data for an outstanding READ (R454). -/
def rmReadRsp (s : State) (m : RmMsg) : State :=
  match connOf s m.conn with
  | none => bump s Reg.RMA_COUNT.dropped
  | some c =>
    if c.state = .error then bump s Reg.RMA_COUNT.dropped
    else
      let hit (r : RmReq) : Bool := r.op = 0x82 && r.id = m.id && r.length = m.data.length
      let s := setConn s { c with reqs := c.reqs.map fun r => if hit r then { r with got := m.data } else r }
      reqsDone s m.conn hit

/-- RM_ACK on a cached connection (R460). -/
def rmAcked (s : State) (a : RmAck) : State :=
  match connOf s a.conn with
  | none => bump s Reg.RMA_COUNT.dropped
  | some c =>
    if c.state = .error then bump s Reg.RMA_COUNT.dropped
    else match a.kind with
      | 0 => ackReqs s a.conn a.id
      | 1 => resend s a.conn
      | 2 => nakConn s a.conn a.id (statusOf a.status) a.detail
      | _ => rnrConn s a.conn

/-- A native remote memory message for the engine. -/
def takeRm (s : State) (m : RmMsg) (ecc : Bool) : State :=
  match connOf s m.conn with
  | none => bump s Reg.RMA_COUNT.dropped
  | some c =>
    if c.state = .error then bump s Reg.RMA_COUNT.dropped
    else throughCache s c (.rm m ecc) fun s => if m.type = 0x83 then rmReadRsp s m else rmDecide s m ecc

/-- An RM_ACK for the engine. -/
def takeRmAck (s : State) (a : RmAck) : State :=
  match connOf s a.conn with
  | none => bump s Reg.RMA_COUNT.dropped
  | some c => if c.state = .error then bump s Reg.RMA_COUNT.dropped else throughCache s c (.ack a) fun s => rmAcked s a

/-! ### RoCEv2 (R451 to R453, R464) -/

/-- The transaction ID of a PSN near a reference (R458). -/
def extendPsn (psn near : Nat) : Nat :=
  let d := (psn + 2 ^ 24 - near % 2 ^ 24) % 2 ^ 24
  if d < 2 ^ 23 then (near + d) % 2 ^ 32 else (near + 2 ^ 32 + d - 2 ^ 24) % 2 ^ 32

/-- Send an Acknowledge packet of a syndrome. -/
def sendAeth (s : State) (c : Conn) (id syndrome : Nat) : State :=
  sendRoce s c none { rocePkt c 0x11 id [] with syndrome := syndrome }

/-- A CNP for a CE mark, at most one per connection per cnp_interval_us (R476). -/
def sendCnp (s : State) (c : Conn) : State :=
  let due := match c.cnpAt with | some t => decide (t + 1000 * fld s Reg.RMA_CFG.cnp_interval_us ≤ s.timebase) | none => true
  if due then sendRoce (setConn s { c with cnpAt := some s.timebase }) c none (rocePkt c 0x81 0 []) else s

/-- Request opcodes of the subset (R451). -/
def roceRequest (op : Nat) : Bool := [0x04, 0x06, 0x07, 0x08, 0x09, 0x0A, 0x0B, 0x0C].contains op

/-- A request packet that starts a request. -/
def roceFirst (op : Nat) : Bool := [0x04, 0x06, 0x0A, 0x0B, 0x0C].contains op

/-- A packet breaks its opcode, length or MTU (order 1). -/
def roceBad (c : Conn) (p : RocePkt) : Bool :=
  let m := mtuBytes c
  match p.op with
  | 0x04 => decide (4096 < p.data.length) || decide (m < p.data.length)
  | 0x06 => decide (p.data.length ≠ m) || decide (p.length ≤ m) || decide (2 ^ 31 < p.length)
  | 0x0C => !p.data.isEmpty || decide (2 ^ 31 < p.length)
  | 0x07 => (match c.write with | some w => decide (p.data.length ≠ m) || decide (w.left ≤ m) | none => true)
  | 0x08 => (match c.write with | some w => decide (p.data.length ≠ w.left) || decide (m < w.left) | none => true)
  | 0x09 => (match c.write with | some w => decide (p.data.length ≠ w.left) || decide (m < w.left) | none => true)
  | _ => decide (p.data.length ≠ p.length) || decide (m < p.length)

/-- The first order of R464 that a packet fails, and for the first packet of a request the CAM item it holds. -/
def roceChecks (s : State) (c : Conn) (named : Option Nat) (p : RocePkt) (ecc : Bool) : State × Option Nat × Option Nat :=
  let imm := p.op = 0x09 || p.op = 0x0B
  if roceBad c p || (roceFirst p.op && c.write.isSome) then (s, some 1, none)
  else if !roceFirst p.op then (s, if imm && noRoom s c false true then some 7 else if ecc then some 8 else none, none)
  else
    let send := p.op = 0x04
    let key := if send then 0 else p.key
    let (s, no, item) := classify s c p.op key 0x7FF
    let other := match named with | some x => !(c.pd ≠ 0 && fldAt s Reg.RMA_PD.owner [c.pd] = x) | none => false
    let bad : Option Nat :=
      if no then some 2
      else if other then some 3
      else if !send && (regionBad s c key p.offset p.length (p.op ≠ 0x0C)).isSome then regionBad s c key p.offset p.length (p.op ≠ 0x0C)
      else if noRoom s c send imm then some 7
      else if ecc then some 8
      else none
    if bad.isSome || p.op ≠ 0x06 then (camRetire s item, bad, none) else (s, none, some item)

/-- The answer packets of a READ (R451). -/
def readAnswer (s : State) (c : Conn) (id : Nat) (data : List Nat) : State :=
  let parts := chunksOf (mtuBytes c) data
  let n := parts.length
  if n ≤ 1 then sendRoce s c none { rocePkt c 0x10 id data with syndrome := Config.aethCredit % 32 }
  else
    (parts.zipIdx).foldl (fun s x =>
      let op := if x.2 = 0 then 0x0D else if x.2 + 1 = n then 0x0F else 0x0E
      let d := if x.2 + 1 = n then x.1.take (data.length - x.2 * mtuBytes c) else x.1
      sendRoce s c none { rocePkt c op (wrapAdd 32 id x.2) d with syndrome := Config.aethCredit % 32 }) s

/-- Carry out a request packet that passed its checks. -/
def roceApply (s : State) (c : Conn) (id : Nat) (p : RocePkt) (item : Option Nat) : State :=
  match p.op with
  | 0x04 => takeSend s c p.data
  | 0x06 =>
    let s := areaWrite s p.key p.offset p.data
    setConn s { c with write := some { base := (regionOf s p.key).elim 0 (·.offset * 4096) + p.offset, key := p.key, start := p.offset, done := p.data.length,
                                       left := p.length - p.data.length, pd := c.pd, gen := pdGen s c.pd, item := item.getD 0 } }
  | 0x0C => readAnswer s c id (areaRead s p.key p.offset p.length)
  | 0x0A => areaWrite s p.key p.offset p.data
  | 0x0B => notifyPost (areaWrite s p.key p.offset p.data) c 1 p.imm p.key p.offset p.length
  | _ =>
    match c.write with
    | none => s
    | some w =>
      -- later packets proceed under the result of the first one (R464), in the bounds it was checked under (R467)
      let s := { s with rma := { s.rma with area := writeBytes s.rma.area (w.base + w.done) p.data } }
      let w := { w with done := w.done + p.data.length, left := w.left - p.data.length }
      if p.op = 0x07 then setConn s { c with write := some w }
      else
        let s := setConn (camRetire s w.item) { c with write := none }
        if p.op = 0x09 then notifyPost s c 1 p.imm w.key w.start w.done else s

/-- Check and carry out a request packet. -/
def roceServe (s : State) (c : Conn) (id : Nat) (named : Option Nat) (p : RocePkt) (ecc new : Bool) : State :=
  let (s, bad, item) := roceChecks s c named p ecc
  match bad with
  | some 7 => sendAeth s c id (0x20 + Config.rnrTimer % 32)
  | some n =>
    let s := if 2 ≤ n && n ≤ 6 then protRefusal s c else s
    let (st, d) := orderStatus n
    errConn (sendAeth s c id (orderSyndrome n)) c.num st id d
  | none =>
    let last := if p.op = 0x0C then wrapAdd 32 id (Nat.max 1 (ceilDiv p.length (mtuBytes c)) - 1) else id
    let c := if new then { c with recvH := last, tTouch := s.timebase } else c
    let s := roceApply (setConn s c) c id p item
    if p.op = 0x0C || !(p.ackReq || [0x04, 0x08, 0x09, 0x0A, 0x0B].contains p.op) then s else sendAeth s c id (Config.aethCredit % 32)

/-- A request packet on a cached connection (R459). -/
def roceDecide (s : State) (named : Option Nat) (p : RocePkt) (ecc : Bool) : State :=
  match connOf s p.qp with
  | none => bump s Reg.RMA_COUNT.dropped
  | some c =>
    if c.state = .error then bump s Reg.RMA_COUNT.dropped
    else
      let s := if p.ce then sendCnp s c else s
      let c := (connOf s p.qp).getD c
      let next := wrapAdd 32 c.recvH 1
      let id := extendPsn p.psn next
      let back := (c.recvH + 2 ^ 32 - id) % 2 ^ 32
      if !roceRequest p.op then errConn (sendAeth s c id 0x61) c.num .versionMismatch id 7
      else if id = next then roceServe s c id named p ecc true
      else if back < 4096 then
        let s := bump s Reg.RMA_COUNT.dup_acks
        if p.op = 0x0C then roceServe s c id named p ecc false else sendAeth s c id (Config.aethCredit % 32)
      else sendAeth s c next 0x60

/-- A packet for the engine that is dropped (R452). -/
def roceDropped (s : State) (p : RocePkt) : Bool :=
  !p.icrcOk || decide (p.qp < 2) || (match connOf s p.qp with | some c => c.state = .error || c.native | none => true)

/-- A RoCEv2 request packet of an Ethernet port; `named` is the context that its classification names. -/
def takeRoceReq (s : State) (port : Nat) (named : Option Nat) (p : RocePkt) (ecc : Bool) : State :=
  if roceDropped s p then bump s Reg.RMA_COUNT.dropped
  else match connOf s p.qp with
    | some c => throughCache s c (.request port (named.getD 0) named.isSome p ecc) fun s => roceDecide s named p ecc
    | none => s

/-- A response packet on a cached connection (R460). -/
def roceResponse (s : State) (p : RocePkt) : State :=
  match connOf s p.qp with
  | none => s
  | some c =>
    let near := (c.reqs.head?).elim c.sendId (·.id)
    let id := extendPsn p.psn near
    let syn := if p.op = 0x11 then p.syndrome / 32 else 0
    if p.op = 0x11 && syn = 1 then rnrConn s p.qp
    else if p.op = 0x11 && p.syndrome = 0x60 then resend (ackReqs s p.qp ((id + 2 ^ 32 - 1) % 2 ^ 32)) p.qp
    else if p.op = 0x11 && syn = 3 then
      nakConn s p.qp id (if p.syndrome = 0x61 then .versionMismatch else if p.syndrome = 0x63 then .tierFault else .protection) (if p.syndrome = 0x61 then 7 else 0xA)
    else if p.op = 0x11 then ackReqs s p.qp id
    else
      -- READ response: the next packet of its request
      let hit (r : RmReq) : Bool := r.op = 0x0C && wrapAdd 32 r.id (r.got.length / mtuBytes c) = id && decide (r.got.length + p.data.length ≤ r.length)
      let s := setConn s { c with reqs := c.reqs.map fun r => if hit r then { r with got := r.got ++ p.data } else r }
      reqsDone s p.qp fun r => r.op = 0x0C && r.got.length = r.length

/-- A RoCEv2 response packet. -/
def takeRoceRsp (s : State) (p : RocePkt) : State :=
  if roceDropped s p then bump s Reg.RMA_COUNT.dropped
  else match connOf s p.qp with
    | some c => throughCache s c (.response p) fun s => roceResponse s p
    | none => s

/-- A CNP cuts the rate (R477). -/
def takeCnp (s : State) (num : Nat) : State :=
  match connOf s num with
  | some c =>
    if !c.cc || c.state = .error then s
    else setConn s { c with target := c.rate, rate := Nat.max (fld s Reg.RMA_CC.min_mbps) (c.rate * (256 - fld s Reg.RMA_CC.cut) / 256), stage := 0 }
  | none => s

/-- What a fetch held is processed (R473). -/
def releasePkt (s : State) : HeldPkt → State
  | .rm m ecc => takeRm s m ecc
  | .ack a => takeRmAck s a
  | .request port ctx named p ecc => takeRoceReq s port (if named then some ctx else none) p ecc
  | .response p => takeRoceRsp s p

/-- CONN_FETCH_COMPLETE (R473). -/
def fetchConn (s : State) (num : Nat) : State :=
  match connOf s num with
  | some c =>
    match c.place with
    | .fetching _ =>
      if 16384 ≤ cacheUsed s then s
      else
        let s := setConn s { c with place := .cached, held := [] }
        keepFree (pump (c.held.foldl releasePkt s) num)
    | _ => s
  | none => s

/-- CONN_FETCH_COMPLETE (R473): the fetch of a connection. -/
def execConnFetchComplete (conn : Nat) (s : State) : Host.Outcome State Fault Refusal := run s (act fun s => fetchConn s conn)

/-! ### Remote pools (R478, R479) -/

/-- The tweak of a unit of a pool's region (R527). -/
def poolTweak (pool unit : Nat) : Nat := unit + pool * 2 ^ 48 + 2 * 2 ^ 56

/-- The bytes of a copy as it travels: a slab is preceded by its header page, whose layout R133 leaves open. -/
def wireCopy (s : State) (o : Obj) : List Nat :=
  (if o.kind = .slab then (List.range 4096).map fun i => Config.slabHeader o.index i % 256 else []) ++ copyBytes s o

/-- Transactions of a WRITE or a READ of a copy at a region offset (R451, R454). -/
def copyReqs (c : Conn) (key offset move : Nat) (write : Bool) (data : List Nat) (n : Nat) : List RmReq :=
  let req (op off len : Nat) (d : List Nat) : RmReq := { id := 0, op := op, key := key, offset := off, length := len, data := d, move := move }
  if c.native then
    (List.range (ceilDiv n (2 ^ 20))).map fun i =>
      let len := Nat.min (2 ^ 20) (n - i * 2 ^ 20)
      req (if write then 0x80 else 0x82) (offset + i * 2 ^ 20) len (if write then slice data (i * 2 ^ 20) len else [])
  else if !write then [req 0x0C offset n []]
  else
    let m := mtuBytes c
    let k := ceilDiv n m
    (List.range k).map fun i =>
      let op := if k = 1 then 0x0A else if i = 0 then 0x06 else if i + 1 = k then 0x08 else 0x07
      req op offset n (slice data (i * m) (Nat.min m (n - i * m)))

/-- The remote memory requests of one running move that has made none (R478). -/
def askMove (s : State) (m : Move) : State :=
  match movePool s m.id, objOf s m.obj with
  | some (p, _), some o =>
    if m.asked then s
    else
      let unit := match m.kind with | .age => m.unit | _ => o.lower.elim 0 (·.unit)
      let num := fldAt s Reg.RMA_POOL.conn [p]
      match connOf s num with
      | none => s
      | some c =>
        let off := fldAt s Reg.RMA_POOL.first_extent [p] * 2 ^ 26 + unit * 4096
        let key := (tget? s.contexts o.ctx).elim [] (·.key)
        let write := match m.kind with | .raise => false | .tail _ _ => false | _ => true
        let data := if write then xtsRun true key (poolTweak p (off / 4096)) (wireCopy s o) else []
        let rs := copyReqs c (fldAt s Reg.RMA_POOL.key [p]) off m.id write data (movedBytes o)
        let s := { s with tier := { s.tier with running := s.tier.running.map fun x => if x.id = m.id then { x with asked := true } else x } }
        if c.state = .error then { s with rma := { s.rma with ended := s.rma.ended ++ [(m.id, false)] } }
        else
          let s := setConn s { c with waiting := c.waiting ++ rs }
          pump (match c.place with | .cached => s | _ => throughCache s { c with waiting := c.waiting ++ rs } (.ack { kind := 9, status := 0, detail := 0, src := 0, conn := num, id := 0, expected := 0 }) fun s => s) num
  | _, _ => s

/-- A move whose requests have all been answered completes (R153, R478). -/
def moveAnswered (s : State) (id : Nat) (ok : Bool) : State :=
  match runningMove s id with
  | none => s
  | some m =>
    let got := ((sortBy (fun a b => decide (a.2.1 < b.2.1)) (s.rma.reads.filter (·.1 = id))).map (·.2.2)).flatten
    let at_ := minBy (fun x => x) ((s.rma.reads.filter (·.1 = id)).map (·.2.1))
    let s := { s with rma := { s.rma with reads := s.rma.reads.filter (·.1 ≠ id) } }
    if !ok then moveFails s id
    else match m.kind with
      | .age => sinkComplete s id
      | .sink => sinkComplete s id
      | .writeback => writebackComplete s id
      | _ =>
        match objOf s m.obj with
        | none => s
        | some o =>
          let pool := o.lower.elim 0 (·.target)
          let key := (tget? s.contexts o.ctx).elim [] (·.key)
          let plain := xtsRun false key (poolTweak pool (at_.getD 0 / 4096)) got
          let body := if o.kind = .slab then plain.drop 4096 else plain
          let crcOk := match o.kind with
            | .crate => crc32c (slice body 4096 (bodyLen o.bx16 o.heads o.dim)) = o.crc
            | _ => crc32c (body.take (if o.kind = .slab then o.size / 2 else o.size)) = crc32c (copyBytes s { o with attic := false })
          let s := if crcOk then setObj s m.obj { o with lower := o.lower.map fun l => { l with bytes := writeBytes [] 0 body } } else s
          raiseComplete s id crcOk

/-- What the engines do after any command: moves make their requests, answers complete them, pools whose connection fell out
are lost. -/
def settleRma (s : State) : State :=
  let s := s.tier.running.foldl askMove s
  let es := s.rma.ended
  let s := { s with rma := { s.rma with ended := [] } }
  let s := es.foldl (fun s e => moveAnswered s e.1 e.2) s
  let bad := s.tier.targets.filter fun t => t.remote && !t.lost &&
    (match connOf s (fldAt s Reg.RMA_POOL.conn [t.number]) with | some c => c.state = .error | none => true)
  bad.foldl (fun s t => poolLost s t.number) s

/-- A command of the links or the engines: at full service, then what follows from it. -/
def actR (f : State → State) : State → State := whenUp fun s => settleAll (settleRma (f s))

/-- RM_WRITE (R459): `ecc` says that the store room has an uncorrectable error during the access. -/
def execRmWrite (m : RmMsg) (ecc : Bool) (s : State) : Host.Outcome State Fault Refusal := run s (actR fun s => takeRm s { m with type := 0x80 } ecc)
/-- RM_WRITE_IMM (R461). -/
def execRmWriteImm (m : RmMsg) (ecc : Bool) (s : State) : Host.Outcome State Fault Refusal := run s (actR fun s => takeRm s { m with type := 0x81 } ecc)
/-- RM_READ (R459). -/
def execRmRead (m : RmMsg) (ecc : Bool) (s : State) : Host.Outcome State Fault Refusal := run s (actR fun s => takeRm s { m with type := 0x82 } ecc)
/-- RM_READ_RSP (R454). -/
def execRmReadRsp (m : RmMsg) (s : State) : Host.Outcome State Fault Refusal := run s (actR fun s => takeRm s { m with type := 0x83 } false)
/-- RM_SEND (R461). -/
def execRmSend (m : RmMsg) (ecc : Bool) (s : State) : Host.Outcome State Fault Refusal := run s (actR fun s => takeRm s { m with type := 0x84 } ecc)
/-- RM_ACK (R460). -/
def execRmAck (a : RmAck) (s : State) : Host.Outcome State Fault Refusal := run s (actR fun s => takeRmAck s a)

/-- ROCE_REQUEST_PACKET (R464): at the RDMA engine, with the context that the classification names. -/
def execRoceRequestPacket (port : Nat) (named : Option Nat) (p : RocePkt) (ecc : Bool) (s : State) : Host.Outcome State Fault Refusal :=
  run s (actR fun s => takeRoceReq s port named p ecc)

/-- ROCE_RESPONSE_PACKET (R460). -/
def execRoceResponsePacket (p : RocePkt) (s : State) : Host.Outcome State Fault Refusal := run s (actR fun s => takeRoceRsp s p)

/-- CNP (R477) for a connection. -/
def execCnp (conn : Nat) (s : State) : Host.Outcome State Fault Refusal := run s (whenUp fun s => takeCnp s conn)

/-- CC_RATE_PERIOD (R477): inc_us have passed without a CNP. -/
def execCcRatePeriod (conn : Nat) (s : State) : Host.Outcome State Fault Refusal :=
  run s (whenUp fun s =>
    match connOf s conn with
    | some c =>
      if !c.cc || c.state = .error then s
      else
        let t := if c.stage < 5 then c.target else Nat.min 50000 (c.target + fld s Reg.RMA_CC.step_mbps)
        setConn s { c with target := t, rate := (c.rate + t) / 2, stage := c.stage + 1 }
    | none => s)

/-! ### Regions and fences -/

/-- A region write (R463, R466, R467). -/
def regionWrite (s : State) (index : Nat) : State :=
  let s := setFld s Reg.RMA_MR_CTL.index index
  let valid := flag s Reg.RMA_MR_DATA.valid
  let pd := fld s Reg.RMA_MR_DATA.pd
  let off := fld s Reg.RMA_MR_DATA.offset
  let len := fld s Reg.RMA_MR_DATA.length
  if valid && (len = 0 || decide (fld s Reg.RMA_AREA.units * 16384 < off + len) || !pdValid s pd) then
    setFld s Reg.RMA_MR_CTL.code Status.versionMismatch.code
  else
    let old := tget? s.rma.regions index
    let r : Region := { read := flag s Reg.RMA_MR_DATA.read, write := flag s Reg.RMA_MR_DATA.write, pd := pd, tag := fld s Reg.RMA_MR_DATA.tag,
                        offset := off, length := len }
    let s := { s with rma := { s.rma with regions := if valid then tset s.rma.regions index r else tdel s.rma.regions index } }
    let pds := ((if valid then [pd] else []) ++ (match old with | some o => [o.pd] | none => [pd])).eraseDups
    let s := pds.foldl raiseGen s
    setFld (setFld s Reg.RMA_MR_CTL.code 0) Reg.RMA_MR_CTL.gen (pdGen s (pds.headD pd))

/-- RMA_MR_CTL_GO (R467): RMA_MR_CTL with go and the region. -/
def execRmaMrCtlGo (index : Nat) (s : State) : Host.Outcome State Fault Refusal := run s (hostAccess fun s => regionWrite (dropShadow s) (index % 2 ^ 16))

/-- Fences with no older access left complete (R468). -/
def fencesDone (s : State) : State :=
  let done := s.rma.fences.filter fun f => (olderAccesses s f.pd f.gen).isEmpty
  let s := { s with rma := { s.rma with fences := s.rma.fences.filter fun f => !(olderAccesses s f.pd f.gen).isEmpty } }
  done.foldl (fun s f => match f.sub with | some x => complete s x .ok 0 [f.gen, f.aborted] | none => s) s

/-- PROT_FENCE (R468). -/
def doFence (s : State) (sub : Sub) (pd g rsv : Nat) : State :=
  if rsv ≠ 0 then refuse s sub .versionMismatch 0x2
  else match ctxBad s sub.context with
    | some (st, d) => refuse s sub st d
    | none =>
      if 256 ≤ pd || !pdValid s pd || (g ≠ 0 && serialLt 32 (pdGen s pd) g) then refuse s sub .versionMismatch 0x7
      else if pd = 0 || fldAt s Reg.RMA_PD.owner [pd] ≠ sub.context then refuse s sub .protection 0xD
      else
        let g := if g = 0 then pdGen s pd else g
        if (olderAccesses s pd g).isEmpty then complete s sub .ok 0 [g, 0]
        else { s with rma := { s.rma with fences := s.rma.fences ++ [{ sub := some sub, pd := pd, gen := g }] } }

/-- PROT_FENCE (R468). -/
def execProtFence (sub : Sub) (pd g rsv : Nat) (s : State) : Host.Outcome State Fault Refusal :=
  run s (whenUp (verb 2 sub fun s => doFence s sub pd g rsv))

/-- PROT_FENCE_DONE (R468). -/
def execProtFenceDone (s : State) : Host.Outcome State Fault Refusal := run s (whenUp fencesDone)

/-- FENCE_LIMIT_EXPIRY (R468): the accesses that a fence of a domain and generation still waits for are aborted. -/
def fenceLimit (s : State) (pd g : Nat) : State :=
  if !s.rma.fences.any fun f => f.pd = pd && f.gen = g then s
  else
    let old := olderAccesses s pd g
    let s := old.foldl (fun s n => errConn s n .protection ((connOf s n).elim 0 (·.recvH)) 0xE) s
    let s := { s with rma := { s.rma with fences := s.rma.fences.map fun f => if f.pd = pd && f.gen = g then { f with aborted := f.aborted + old.length } else f } }
    fencesDone (if old.isEmpty then s else report s 0x1507 pd 0 [pd, old.length])

/-- FENCE_LIMIT_EXPIRY (R468). -/
def execFenceLimitExpiry (pd gen : Nat) (s : State) : Host.Outcome State Fault Refusal := run s (actR fun s => fenceLimit s pd gen)

/-! ### Priority flow control (R474, R475) and engine faults (R481) -/

/-- A priority of a port. -/
def prioOf (s : State) (p k : Nat) : PfcPrio := tget {} (ethOf s p).pfc k

/-- Replace a priority of a port. -/
def setPrio (s : State) (p k : Nat) (x : PfcPrio) : State :=
  let e := ethOf s p
  setEth s p { e with pfc := tset e.pfc k x }

/-- Whether PFC is enabled on a priority of a port. -/
def pfcOn (s : State) (p k : Nat) : Bool := bitOf (fldAt s Reg.RMA_PFC.enable [p]) k

/-- A received pause: it holds its priority, or releases it; a storm ignores it. -/
def takePause (s : State) (p k quanta : Nat) : State :=
  let x := prioOf s p k
  if !pfcOn s p k || x.storm then s else setPrio s p k { x with paused := quanta ≠ 0 }

/-- PFC_PAUSE (R474): a received pause frame for a priority of a port. -/
def execPfcPause (port priority quanta : Nat) (s : State) : Host.Outcome State Fault Refusal :=
  run s (whenUp fun s => takePause s (port % 12) (priority % 8) quanta)

/-- The receive occupancy of a priority, in bytes: a pause at xoff_kib, its end at xon_kib (R474). -/
def pfcLevel (s : State) (p k bytes : Nat) : State :=
  let x := prioOf s p k
  if !pfcOn s p k then s
  else if !x.pausing && decide (1024 * fldAt s Reg.RMA_PFC.xoff_kib [p] ≤ bytes) then emit (setPrio s p k { x with pausing := true }) (.pfc p k 0xFFFF)
  else if x.pausing && decide (bytes ≤ 1024 * fldAt s Reg.RMA_PFC.xon_kib [p]) then emit (setPrio s p k { x with pausing := false }) (.pfc p k 0)
  else s

/-- PFC_RENEWAL (R474): the occupancy of a priority whose pause is 100 µs old. -/
def execPfcRenewal (port priority bytes : Nat) (s : State) : Host.Outcome State Fault Refusal :=
  run s (whenUp fun s =>
    let s := pfcLevel s (port % 12) (priority % 8) bytes
    if (prioOf s (port % 12) (priority % 8)).pausing then emit s (.pfc (port % 12) (priority % 8) 0xFFFF) else s)

/-- Egress queues of a port that carry a priority. -/
def queuesOf (s : State) (p k : Nat) : List Nat := (List.range 8).filter fun q => bitsOf (fldAt s Reg.ETH_CTL.pcp_map [p]) (3 * q) 3 = k

/-- A priority held for storm_ms: its queued frames go, its pauses are ignored (R475). -/
def pfcStorm (s : State) (p k : Nat) : State :=
  let x := prioOf s p k
  if !x.paused || x.storm || fldAt s Reg.RMA_PFC.storm_ms [p] = 0 then s
  else
    let e := ethOf s p
    let qs := queuesOf s p k
    let n := sumOf (qs.map fun q => (tget [] e.queues q).length)
    let s := setEth s p { e with queues := tfilter (fun q _ => !qs.contains q) e.queues }
    let s := setPrio s p k { x with paused := false, storm := true }
    report (bumpAt s Reg.ETH_STATUS.discard [p] n) 0x1505 p 0 [p, k]

/-- PFC_STORM (R475). -/
def execPfcStorm (port priority : Nat) (s : State) : Host.Outcome State Fault Refusal := run s (whenUp fun s => pfcStorm s (port % 12) (priority % 8))

/-- PFC_STORM_END (R475). -/
def execPfcStormEnd (port priority : Nat) (s : State) : Host.Outcome State Fault Refusal :=
  run s (whenUp fun s => setPrio s (port % 12) (priority % 8) { prioOf s (port % 12) (priority % 8) with storm := false })

/-- The half whose engine serves a connection (R450). -/
def connHalf (s : State) (c : Conn) : Nat :=
  if c.native then match (choosePort s c.device 5 c.num none).2 with | some p => if p < 48 then p / 24 else (p - 48) / 6 | none => 0
  else match rocePort s c.device c.num with | some p => (p - 48) / 6 | none => 0

/-- RMA_ENGINE_FATAL (R481) of the engine of a half. -/
def execRmaEngineFatal (half : Nat) (s : State) : Host.Outcome State Fault Refusal :=
  run s (actR fun s =>
    let mine := (s.rma.conns.filter fun x => connHalf s x.2 = half).map (·.1)
    report (mine.foldl (fun s n => errConn s n .tierFault 0 0) s) 0x1508 half 0 [half])

end Sys2Proof.Machine
end

