-- ==== Sys2Proof/Machine/Frames.lean ====
section
/-! DEFINITION. Received frames: tag check, duplicates, role check, TACK, delivery to the units; the ends of transactions
(R417, R421 to R425, R433). -/
namespace Sys2Proof.Machine

/-! ### Role checks (R424, R455, R485) -/

/-- What the link layer decides of a new frame. -/
inductive FrameVerdict where
  | pass
  | stale (epoch : Nat)
  | hold (epoch : Nat)
  | version
  deriving DecidableEq, Repr

/-- Compare an epoch with the role's: equal, newer by 1 to 255, or a mismatch. -/
def cmpEpoch (own e : Nat) : FrameVerdict :=
  let d := (e + 2 ^ 16 - own % 2 ^ 16) % 2 ^ 16
  if d = 0 then .pass else if d < 256 then .hold own else .stale own

/-- Epochs of this controller's layer-group-host role: its kind-1 roles and its claims (R492). -/
def ownHostEpochs (s : State) : List Nat :=
  ((rolesOf s 1).filter (·.device = s.device)).map (·.epoch) ++ ((s.mir.claims.filter (·.claimer = s.device)).map (·.epoch))

/-- The check against any epoch of the layer-group-host role. -/
def cmpHost (s : State) (e : Nat) : FrameVerdict :=
  let l := ownHostEpochs s
  if l.contains e then .pass else match l.head? with | some own => cmpEpoch own e | none => .stale 0

/-- The check of a mirror message (R485): where no shadow of the sender's is held any more, STALE_ROLE, with the home_epoch of the
session where this controller is its home now (R424, R493). -/
def cmpMirror (s : State) (src : Nat) (h : MirrorHdr) (b : MirrorBody) : FrameVerdict :=
  match b with
  | .open_ _ _ => .pass
  | .ack =>
    if h.layers then cmpHost s h.epoch else match mirLink s h.handle true with | some l => cmpEpoch l.epoch h.epoch | none => .pass
  | _ =>
    let shadow : Option Nat := (shadowOf s h.handle).bind fun d => (d.roles.find? fun r => r.home = !h.layers && r.sender = src).map (·.epoch)
    let gone : FrameVerdict := .stale (if h.layers then 0 else match sessOf s h.handle with | some x => if x.guest then 0 else x.homeEpoch | none => 0)
    match shadow, mirLink s h.handle (!h.layers) with
    | some e, _ => cmpEpoch e h.epoch
    | none, some l => if l.dev = src then (if h.layers then cmpHost s h.epoch else cmpEpoch l.epoch h.epoch) else gone
    | none, none => gone

/-- The role check of a message (R424). -/
def roleCheck (s : State) (src : Nat) (m : Msg) : FrameVerdict :=
  if !typeDefined (msgType m) then .version
  else match m with
  | .undefined _ _ => .version
  | .atnQkv q =>
    match layerHost s (hSerial q.handle) q.layer with
    | some (d, e) => if d = s.device then cmpEpoch e q.epoch else .stale ((ownHostEpochs s).headD 0)
    | none => .stale ((ownHostEpochs s).headD 0)
  | .invReq r => cmpHost s r.epoch
  | .trunkReq r => cmpHost s r.epoch
  | .logits m _ =>
    match sessOf s m.handle with
    | some x => if x.guest then .stale x.homeEpoch else cmpEpoch x.homeEpoch m.epoch
    | none => .stale 0
  | .vsrReq r =>
    match shardRole s r.shard with
    | some o => if o.device = s.device then cmpEpoch o.epoch r.epoch else .stale 0
    | none => .stale 0
  | .rm r =>
    if r.type = 0x83 || r.pool = 0xFFFF then .pass
    else match (rolesOf s 4).find? fun o => o.key = r.pool && o.device = s.device with
      | some o => cmpEpoch o.epoch r.epoch
      | none => .stale 0
  | .mirror h b => cmpMirror s src h b
  | _ => .pass

/-! ### Delivery -/

/-- A message goes to its unit; during a save only an STP_SEAL does (R543). -/
def deliver (s : State) (port src : Nat) (m : Msg) : State :=
  if s.clk.phase = .saving && !(match m with | .stpSeal _ => true | _ => false) then s else
  match m with
  | .stpDesc d => namingAll (d.entries.map (·.handle)) (fun s => takeDesc s d) s
  | .stpPrepared m => takePrepared s m
  | .stpSeal m => if m.mirror then sealMirror s m else sealParticipant s m
  | .stpSealAck m => sealAck s m
  | .stpKilled m => takeKilled s m
  | .stpAbort m => takeAbort s m
  | .stpDone m => takeDone s m
  | .semReq op sub sem cls => takeSemReq s src op sub sem cls
  | .atnQkv q => naming q.handle (fun s => takeQkv s (portHalf port) q) s
  | .dlgBlock m => takeDlgBlock s (portHalf port) m
  | .dlgOut m => takeDlgOut s m
  | .mirror h b =>
    match b with
    | .open_ d toks => takeOpen s h d toks
    | .ack => takeAck s h
    | .sync v bytes => anySync s h v bytes
    | b => toShadow s h b
  | .lostReport lost link => lostReport s lost src link
  | .roleClaim lost epoch first last m i => takeClaim s src lost epoch first last m i
  | .trunkReq r => if r.op = 1 then takeReqCut s r else if r.op = 2 then takeReqAbort s r else emit s (.handed src m)
  | .trunkRsp q => if q.op = 3 then restAnswer s q else cutAnswer s q
  | .vsrReq r => takeVsrReq s r
  | .vsrRsp r => takeVsrRsp s r
  | .invReq r => if r.op = 1 then takeProbe s r else if r.op = 2 then takeCommit s r else if r.op = 3 then takePublish s r else takeWithdraw s r
  | .invRsp r => takeInvRsp s src r
  | .logits m rsv => naming m.handle (fun s => takeLogits s m rsv) s
  | .rm m => takeRm s m false
  | .rmAck a => takeRmAck s a
  | _ => s

/-- The session whose shadow a message may promote before its role check. -/
def nameFirst (s : State) (m : Msg) : State :=
  match m with
  | .atnQkv q => promoteIfLost s q.handle
  | .logits m _ => promoteIfLost s m.handle
  | _ => s

/-! ### TACK (R423) -/

/-- Length of a TACK message. -/
def tackLen (l : List TackEntry) : Nat := 8 * l.length

/-- An unsent TACK to a device with room. -/
def tackRoom (src : Nat) (i : EgItem) : Bool :=
  match i.body with
  | .frame f => i.sent = 0 && f.dst = src && (match f.body with | .tack l => decide (l.length < 32) | _ => false)
  | _ => false

/-- A queue entry with one more TACK entry. -/
def addTack (e : TackEntry) (i : EgItem) : EgItem :=
  match i.body with
  | .frame f =>
    match f.body with
    | .tack l =>
      let f := { f with body := .tack (l ++ [e]), length := tackLen (l ++ [e]) }
      { i with body := .frame f, flits := if i.flits = 1 then frameFlits f else i.flits }
    | _ => i
  | _ => i

/-- Queue 0 of a port. -/
def queueZero (s : State) (port : Nat) : List EgItem := if port < 48 then tget [] (lnkOf s port).queues 0 else tget [] (ethOf s (port - 48)).queues 0

/-- Replace queue 0 of a port. -/
def setQueueZero (s : State) (port : Nat) (q : List EgItem) : State :=
  if port < 48 then modLnk s port fun l => { l with queues := tset l.queues 0 q }
  else modEth s (port - 48) fun e => { e with queues := tset e.queues 0 q }

/-- Answer a transaction: entry of an unsent TACK to the device, or a new TACK. -/
def sendTack (s : State) (src txid : Nat) (st : Status) (detail : Nat) : State :=
  let e : TackEntry := ⟨txid, st, detail % 2 ^ 16⟩
  let (s, p) := choosePort s src 0 0 none
  match p with
  | none => s
  | some port =>
    if (queueZero s port).any (tackRoom src) then setQueueZero s port (modFirst (tackRoom src) (addTack e) (queueZero s port))
    else
      let f : Frame := { dst := src, src := s.device, vc := 0, demoted := false, phase := false, retx := false, startEpoch := s.startCount % 2 ^ 16,
                         length := 8, txid := 0, body := .tack [e] }
      enqueueFrame s port f none none none

/-! ### Windows (R422) -/

/-- Record a decision, keeping the 4,096 highest transactions. -/
def markTx (w : Window) (txid : Nat) (v : Option (Status × Nat)) : Window :=
  let high := if serialLt 32 w.high txid then txid else w.high
  let marks := w.marks.filter fun m => m.1 ≠ txid && decide ((high + 2 ^ 32 - m.1) % 2 ^ 32 < 4096)
  { w with high := high, marks := marks ++ [(txid, v)] }

/-- Set what is recorded of a transaction of a source. -/
def recordTx (s : State) (src start txid : Nat) (v : Option (Status × Nat)) : State :=
  let w : Window := match tget? s.link.windows src with
    | some w => if w.startEpoch = start then w else { startEpoch := start, high := txid }
    | none => { startEpoch := start, high := txid }
  { s with link := { s.link with windows := tset s.link.windows src (markTx w txid v) } }

/-- End the decision of a frame: status recorded, TACK, and delivery when it is OK. -/
def finishFrame (s : State) (port : Nat) (f : Frame) (m : Msg) (st : Status) (detail : Nat) : State :=
  let s := sendTack (recordTx s f.src f.startEpoch f.txid (some (st, detail))) f.src f.txid st detail
  if st = .ok then deliver s port f.src m else s

/-- Decide a frame by its role check; `last` when a hold is over. -/
def decideFrame (s : State) (port : Nat) (f : Frame) (m : Msg) (last : Bool) : State :=
  let s := nameFirst s m
  match roleCheck s f.src m with
  | .pass => finishFrame s port f m .ok 0
  | .version => finishFrame s port f m .versionMismatch 0x7
  | .stale e => finishFrame s port f m .staleRole e
  | .hold e =>
    if last then finishFrame s port f m .staleRole e
    else { recordTx s f.src f.startEpoch f.txid none with
             link := { (recordTx s f.src f.startEpoch f.txid none).link with held := s.link.held ++ [{ frame := f, port := port }] } }

/-- A frame whose tag has passed: duplicate, stale or new (R422). -/
def takeMsg (s : State) (port : Nat) (f : Frame) (m : Msg) : State :=
  match tget? s.link.windows f.src with
  | none => decideFrame s port f m false
  | some w =>
    if w.startEpoch ≠ f.startEpoch then
      decideFrame { s with link := { s.link with held := s.link.held.filter fun h => h.frame.src ≠ f.src } } port f m false
    else match w.marks.find? (·.1 = f.txid) with
      | some (_, some (st, d)) => sendTack (bump s Reg.LNK_DUP.dups) f.src f.txid st d
      | some (_, none) => s
      | none =>
        let d := (w.high + 2 ^ 32 - f.txid) % 2 ^ 32
        if 4096 ≤ d && d < 2 ^ 31 then bump s Reg.LNK_DUP.stale
        else decideFrame s port f m false

/-! ### Transactions that end at the sender (R421) -/

/-- Messages that waited because 2,048 transactions to a device stood open go (R421). -/
def pumpBacklog : Nat → State → State
  | 0, s => s
  | n + 1, s =>
    let open_ (d : Nat) : Bool := decide ((s.link.txns.filter fun t => t.dest = d).length < 2048)
    match s.link.backlog.find? fun b => open_ b.1 with
    | none => s
    | some b => pumpBacklog n (openTxn { s with link := { s.link with backlog := s.link.backlog.erase b } } b.1 b.2.1 b.2.2.1 b.2.2.2)

/-- A TACK from a device ends the transactions that it names; unsent copies go. -/
def takeTack (s : State) (src : Nat) (l : List TackEntry) : State :=
  let s := l.foldl (fun s e => match txnOf s src e.txid with
    | some t => endTxn (dropQueued s (unsentOf t)) t e.status e.detail
    | none => s) s
  pumpBacklog s.link.backlog.length s

/-- Tag failures: counted, the link goes down at 16 within 1 ms (R433). -/
def authFailed (s : State) (port : Nat) : State :=
  if 48 ≤ port then s
  else
    let s := bumpAt s Reg.LNK_ERR.auth_fail [port] 1
    let l := lnkOf s port
    let fails := (l.authFails ++ [s.timebase]).filter fun t => decide (s.timebase < t + 1000000)
    if fails.length < 16 then setLnk s port { l with authFails := fails }
    else report (lnkHeld (setLnk s port { l with authFails := [] }) port true) 0x1004 port l.epoch [port]

/-- A whole frame received on a port (R417, R421 to R424, R432, R433). -/
def takeFrame (s : State) (port : Nat) (f : Frame) : State :=
  if portState s port ≠ .up then s
  else if f.dst ≠ s.device then bump s Reg.LNK_ROUTE_ERR.misroute
  else
    let (s, ok) := tagOk s port f
    if !ok then authFailed s port
    else match f.body with
      | .tack l => takeTack s f.src l
      | .msg m => takeMsg s port f m

/-- A transaction's frame still waits in a queue or in a replay buffer, so that no timer runs. -/
def stillSending (s : State) (t : Txn) : Bool :=
  let same (f : Frame) : Bool := f.dst = t.dest && f.txid = t.txid && (match f.body with | .msg _ => true | _ => false)
  (s.link.links.any fun l => (framesIn (queued l.2)).any same || (framesOf l.2.replay).any same) ||
    (s.link.ports.any fun e => (framesIn (tvals e.2.queues).flatten).any same)

/-- No TACK in retx_us (R421). -/
def retxTimer (s : State) (dest txid : Nat) : State :=
  match txnOf s dest txid with
  | none => s
  | some t =>
    if t.port.isNone || stillSending s t then s
    else if fld s Reg.LNK_XCFG.retx_max ≤ t.sends then endTxn s t .linkDown 2
    else
      let (s, p) := choosePort s t.dest t.vc t.flow t.cls
      match p with
      | some p => launchOn s t p
      | none =>
        if isIsolated s dest then endTxn s t .linkDown 6 else modTxn s dest txid fun x => { x with port := none }

/-- The hold of a frame is over: its epoch is compared again (R424). -/
def epochHoldOver (s : State) (src txid : Nat) : State :=
  match s.link.held.find? fun h => h.frame.src = src && h.frame.txid = txid with
  | none => s
  | some h =>
    let s := { s with link := { s.link with held := s.link.held.erase h } }
    match h.frame.body with
    | .msg m => decideFrame s h.port h.frame m true
    | .tack _ => s

/-- Held frames whose epoch the receiver's record has reached are decided (R424). -/
def recheckHeld (s : State) : State :=
  s.link.held.foldl (fun s h => match h.frame.body with
    | .msg m => match roleCheck s h.frame.src m with
      | .hold _ => s
      | _ => epochHoldOver s h.frame.src h.frame.txid
    | .tack _ => s) s

/-! ### What units do of transactions that ended (R425) -/

/-- The results of a step's submission that a lost descriptor ends. -/
def descEnds (d : StepDesc) (st : Status) (detail : Nat) : List StepEntry :=
  d.entries.zipIdx.map fun e => { index := e.2, status := st, detail := detail, homeEpoch := e.1.homeEpoch, step := 0, token := 0 }

/-- A message of a unit ended otherwise than with OK. -/
def txnEnded (s : State) (e : Ended) : State :=
  match e.msg with
  | .atnOut m => killPart s m.q.stepRef e.status e.detail
  | .stpDesc d =>
    if d.home = s.device then homeAbort s d.stepRef e.status e.detail true
    else if e.dest = d.home then submitterDone s d.stepRef 0 (descEnds d e.status e.detail)
    else s
  | .mirror h b =>
    let home := !h.layers
    if b = .handover && rejoining s h.handle && home then rejoinAnswer s h.handle e.status
    else if !(mirLink s h.handle home).elim false (fun l => l.dev = e.dest && l.epoch = h.epoch && l.waits.any (·.1 = h.seq)) then s
    else if b = .retire then dropLink s h.handle home
    else if e.status = .linkDown then dropMirror s h.handle home e.status.code
    else if e.status = .staleRole then
      (if home && serialLt 16 ((sessOf s h.handle).elim 0 (·.homeEpoch)) e.detail then demote s h.handle (some e.detail)
       else dropMirror s h.handle home e.status.code)
    else s
  | .invReq r =>
    takeInvRsp s e.dest { op := r.op, status := e.status, detail := e.detail, request := r.request, value := 0, points := none, slabPoint := false, handle := r.handle }
  | .vsrReq r =>
    if e.status = .staleRole then shardStale s r.request r.shard e.detail
    else match s.vsr.queries.find? (·.id = r.request) with
      | some q => if q.waits.any (·.1 = r.shard) then shardMissing s q r.shard else s
      | none => s
  | .trunkReq r =>
    let a : TrunkRsp := { op := r.op, src := e.dest, request := r.request, status := e.status, detail := e.detail, handle := 0, extent := 0, length := 0, digest := 0 }
    if r.op = 1 then cutAnswer s a else if r.op = 3 then restAnswer s a else s
  | .semRsp _ => if e.status = .linkDown then abandonAll s 3 fun h => h.dev = e.dest else s
  | .rm m =>
    match s.rma.conns.find? fun c => c.2.native && c.2.device = e.dest && c.2.remote = m.conn with
    | some c => retryConn s c.1
    | none => s
  | _ => s

/-- Transactions that ended reach their units; `n` bounds them. -/
def runEnded : Nat → State → State
  | 0, s => s
  | n + 1, s =>
    match s.link.ended with
    | e :: es => runEnded n (txnEnded { s with link := { s.link with ended := es } } e)
    | [] => s

/-- Devices whose last port went down beyond its hold time: their semaphores and pools (R286, R479). -/
def runIsolated (s : State) : State :=
  let ds := s.link.isolated.eraseDups
  let s := { s with link := { s.link with isolated := [] } }
  ds.foldl (fun s d =>
    if !isIsolated s d then s
    else
      let s := abandonAll s 3 fun h => h.dev = d
      let pools := ((rolesOf s 4).filter fun r => r.device = d && fldAt s Reg.RMA_POOL.valid [r.key] = 1).map (·.key)
      pools.foldl poolLost s) s

/-- Held ATN_QKV messages that have been taken give their receive credits back (R629). -/
def keptBack (s : State) : State :=
  let held (k : HeldCredit) : Bool := s.atn.work.any fun w => w.hold ≠ .no && w.msg.stepRef = k.stepRef && w.msg.handle = k.handle &&
    w.msg.layer = k.layer && w.msg.kvFirst = k.kvFirst && w.msg.gFirst = k.gFirst
  let links := tmap (fun _ l =>
    if l.kept.isEmpty then l
    else
      let gone := l.kept.filter fun k => !held k
      owe { l with kept := l.kept.filter held } 1 (sumOf (gone.map (·.credits)))) s.link.links
  { s with link := { s.link with links := links } }

/-- What follows every command of the link layer. -/
def settleLinks (s : State) : State :=
  let s := recheckHeld s
  let s := runIsolated (runEnded (s.link.ended.length + 64) s)
  keptBack (pumpBacklog s.link.backlog.length s)

/-- A command of the link layer. -/
def actL (f : State → State) : State → State := whenLive fun s => settleAll (settleRma (settleLinks (f s)))

/-- A register write of the host whose effect reaches the links or the engines. -/
def hostActL (f : State → State) : State → State := hostAccess fun s => settleAll (settleRma (settleLinks (f (dropShadow s))))

/-- The effect of a command that does not run during a save, then what the unit state goes on to. -/
def actU (f : State → State) : State → State := whenUp fun s => settleAll (settleRma (settleLinks (f s)))

/-- A frame that a link has received whole: its credits come back now, or with the ATN_QKV that is held (R416, R629). -/
def frameDone (s : State) (n vc : Nat) (r : RxFrame) : State :=
  let s := takeFrame s n r.frame
  if r.credits = 0 then s
  else
    let hold : Option HeldCredit := match r.frame.body with
      | .msg (.atnQkv q) =>
        if s.atn.work.any fun w => w.hold ≠ .no && w.msg = q then
          some { stepRef := q.stepRef, handle := q.handle, layer := q.layer, kvFirst := q.kvFirst, gFirst := q.gFirst, credits := r.credits }
        else none
      | _ => none
    match hold with
    | some k => modLnk s n fun l => { l with kept := l.kept ++ [k] }
    | none => modLnk s n fun l => owe l (poolOf vc) r.credits

/-- A data flit (R420): accepted in order, discarded as a copy, or one RETRY for the gap. -/
def takeFlit (s : State) (n : Nat) (fl : Flit) : State :=
  let l := lnkOf s n
  if l.st ≠ .up then s
  else if !fl.crcOk then askRetry (bumpAt s Reg.LNK_ERR.crc [n] 1) n
  else
    let s := takeHead s n ⟨fl.ack, fl.pool, fl.returned⟩
    match fl.body with
    | .data f index =>
      let l := lnkOf s n
      let want := (l.lastIn + 1) % 2 ^ 16
      if fl.seq = want then
        let (s, done) := takeData (setLnk s n { l with lastIn := want, retrySent := false }) n fl f index
        match done with
        | some r => frameDone s n fl.vc r
        | none => s
      else if serialLt 16 fl.seq want then setLnk s n { l with dupFlits := (l.dupFlits + 1) % 2 ^ 32 }
      else askRetry s n
    | _ => s

end Sys2Proof.Machine
end

