-- ==== Sys2Proof/Machine/Ether.lean ====
section
/-! DEFINITION. Ethernet ports: the tunnel, classification, egress, PTP (R442 to R448); disciplining TIMEBASE (R435). -/
namespace Sys2Proof.Machine

/-! ### TIMEBASE (R435) -/

/-- Discipline TIMEBASE by an offset, positive where the master is ahead: a step at the first lock or when more than 1,000 ns
behind, else a slew. -/
def discipline (s : State) (offset : Int) : State :=
  if tbCoasts s then s else
  let first := !s.link.everLocked
  let s := { s with link := { s.link with locked := true, everLocked := true, slew := 0 } }
  if 1000 < offset then { s with timebase := (s.timebase + offset.toNat) % 2 ^ 64 }
  else if offset < 0 && first then
    let step := (-offset).toNat
    report { s with timebase := s.timebase - step } 0x1008 0 0 [step]
  else { s with link := { s.link with slew := offset } }

/-- One nanosecond of TIMEBASE, slewed by at most 200 ppm: one nanosecond more or less in 5,000 (R435); 2 per cycle while the
timebase PLL coasts (R557). -/
def tickTime (s : State) : State :=
  if tbCoasts s then { s with timebase := (s.timebase + 2) % 2 ^ 64 }
  else if s.link.slew = 0 then { s with timebase := (s.timebase + 1) % 2 ^ 64 }
  else if s.link.slewPhase + 1 < 5000 then
    { s with timebase := (s.timebase + 1) % 2 ^ 64, link := { s.link with slewPhase := s.link.slewPhase + 1 } }
  else if 0 < s.link.slew then
    { s with timebase := (s.timebase + 2) % 2 ^ 64, link := { s.link with slewPhase := 0, slew := s.link.slew - 1 } }
  else { s with link := { s.link with slewPhase := 0, slew := s.link.slew + 1 } }

/-- Links whose partner can be a parent: UP, a rank below 15, by rank then number. -/
def parents (s : State) : List (Nat × Nat) :=
  let l := s.link.links.filterMap fun x => if x.2.st = .up && x.2.rank < 15 && x.2.synced.isSome then some (x.2.rank, x.1) else none
  sortBy (fun a b => decide (a.1 < b.1) || (a.1 = b.1 && decide (a.2 < b.2))) l

/-- A root at the other end of an UP link whose device ID is lower. -/
def lowerRoot (s : State) : Bool := s.link.links.any fun x => x.2.st = .up && x.2.synced.isSome && x.2.rank = 0 && decide (x.2.partner < s.device)

/-- Whether this controller is a root. -/
def isRoot (s : State) : Bool := fld s Reg.LNK_TSYNC.source ≠ 0 && !lowerRoot s

/-- Rank, parent and lock by what the partners advertise (R435). -/
def chooseParent (s : State) : State :=
  let none_ : State := { s with link := { s.link with rank := 15, parent := 0, locked := false, err := 0xFFFF, slew := 0 } }
  if tbCoasts s then none_
  else if isRoot s then
    let ptp := decide (fld s Reg.LNK_TSYNC.source = 2)
    { s with link := { s.link with rank := 0, parent := 0, locked := ptp && s.link.locked, err := if ptp then s.link.err else 0 } }
  else match parents s with
    | (r, n) :: _ => { s with link := { s.link with rank := r + 1, parent := n } }
    | [] => none_

/-- A TSYNC of the partner (R434, R435). -/
def takeTsync (s : State) (n : Nat) (t : Tsync) : State :=
  let l := lnkOf s n
  let t4 := s.timebase
  let low : Option Nat := if t.err < 20 then (match l.errLow with | some x => some x | none => some t4) else none
  let s := setLnk s n { l with rank := t.rank, err := t.err, synced := some (t4, t.t1), errLow := low }
  let meet := t.rank = 0 && fld s Reg.LNK_TSYNC.source ≠ 0
  let s := if meet && !l.rootsPosted then
      report (modLnk s n fun l => { l with rootsPosted := true }) 0x1009 n 0 [s.device, l.partner]
    else s
  let s := chooseParent s
  match l.sentT1 with
  | none => s
  | some t1 =>
    if t.t2 = 0 && t.t3 = 0 then s
    else
      let a : Int := (t.t2 : Int) - (t1 : Int)
      let b : Int := (t4 : Int) - (t.t3 : Int)
      let asym := toSigned 16 (fldAt s Reg.LNK_TIME.asym_ps [n])
      let offset := (a - b) / 2 - asym / 1000
      let delay := ((a + b) / 2).toNat
      let s := modLnk s n fun l => { l with delay := delay }
      let s := setFldAt (setFldAt s Reg.LNK_TIME.offset_ns [n] (ofSigned 32 offset)) Reg.LNK_TIME.delay_ns [n] (delay % 2 ^ 16)
      if isRoot s || s.link.parent ≠ n || s.link.rank = 15 then s
      else
        let s := discipline s offset
        { s with link := { s.link with err := Nat.min 0xFFFF (Config.timeErr offset delay) } }

/-! ### The tunnel (R444) -/

/-- Ranges cover the bytes from `pos` to `total`; `n` bounds the steps. -/
def rangesCover : Nat → List (Nat × Nat) → Nat → Nat → Bool
  | 0, _, pos, total => decide (total ≤ pos)
  | n + 1, l, pos, total =>
    decide (total ≤ pos) || (match l.find? fun r => decide (r.1 ≤ pos) && decide (pos < r.1 + r.2) with
      | some r => rangesCover n l (r.1 + r.2) total
      | none => false)

/-- A tunnel segment from a device: control flit handling, or reassembly. -/
def takeSegment (s : State) (p src : Nat) (g : TunnelSeg) : State :=
  match g.control with
  | some (.key k) => if (ethOf s p).st = .up then takeKey s (48 + p) src k else s
  | some _ => s
  | none =>
    let e := ethOf s p
    if e.st ≠ .up then s
    else
      let mine (r : Reasm) : Bool := r.src = src && r.frameNo = g.frameNo
      let r := (e.reasm.find? mine).getD { src := src, frameNo := g.frameNo }
      let r := { r with frame := match r.frame with | some f => some f | none => g.frame,
                        total := if g.last then some (g.offset + g.length) else r.total, ranges := r.ranges ++ [(g.offset, g.length)] }
      let rest := e.reasm.filter fun x => !mine x
      let whole := match r.total with | some n => rangesCover r.ranges.length r.ranges 0 n | none => false
      match whole, r.frame with
      | true, some f => takeFrame (setEth s p { e with reasm := rest }) (48 + p) f
      | _, _ => setEth s p { e with reasm := rest ++ [r] }

/-- A frame is not complete within reasm_us. -/
def reasmTimeout (s : State) (p src frameNo : Nat) : State :=
  modEth s p fun e => { e with reasm := e.reasm.filter fun r => !(r.src = src && r.frameNo = frameNo) }

/-! ### PTP (R447) -/

/-- ETH_PTP.state changes. -/
def setPtpState (s : State) (st : Nat) : State :=
  if s.link.ptp.state = st then s else report { s with link := { s.link with ptp := { s.link.ptp with state := st } } } 0x1402 0 0 [st]

/-- Update the PTP unit. -/
def modPtp (s : State) (f : Ptp → Ptp) : State := { s with link := { s.link with ptp := f s.link.ptp } }

/-- What the best master clock algorithm compares. -/
def clockKey (c : PtpClock) : List Nat := [c.priority1, c.class_, c.accuracy, c.variance, c.priority2, c.identity, c.steps]

/-- The PTP unit serves a port: the ordinary clock's, or any under a boundary clock. -/
def ptpPort (s : State) (p : Nat) : Bool := (ethOf s p).st = .up && (flag s Reg.ETH_PTP.boundary || fld s Reg.ETH_PTP.port = p)

/-- The identity that this controller's requests carry: its port's MAC address. -/
def ptpIdentity (s : State) (p : Nat) : Nat := fldAt s Reg.ETH_MAC.mac [p]

/-- The forward time of a Sync is known: Delay_Req goes out. -/
def ptpRequest (s : State) (p arrival origin : Nat) : State :=
  let x := s.link.ptp
  let m : PtpMsg := { type := 1, domain := fld s Reg.ETH_PTP.domain, seq := x.nextSeq, twoStep := false, time := 0, correction := 0,
                      source := ptpIdentity s p, requester := 0, clock := none }
  let s := modPtp s fun x => { x with forward := some ((arrival : Int) - (origin : Int)), sync := none, request := some (x.nextSeq, s.timebase),
                                      nextSeq := (x.nextSeq + 1) % 2 ^ 16 }
  emit s (.ptp p m)

/-- A PTP message received on a port. -/
def takePtp (s : State) (p : Nat) (m : PtpMsg) : State :=
  if !ptpPort s p || m.domain ≠ fld s Reg.ETH_PTP.domain then s
  else
    let x := s.link.ptp
    let s := if x.state = 0 then setPtpState s 1 else s
    let fromBest := x.port = p && (x.best.elim false fun b => b.identity = m.source) && s.link.ptp.state = 2
    match m.type with
    | 0xB =>
      match m.clock with
      | none => s
      | some c =>
        let known := x.best.elim false fun b => b.identity = c.identity
        if !Config.betterClock (some (clockKey c)) none then (if known then setPtpState (modPtp s fun x => { x with best := none }) 3 else if x.best.isNone then setPtpState s 3 else s)
        else if known || Config.betterClock (some (clockKey c)) (x.best.map clockKey) then
          setPtpState (modPtp s fun x => { x with best := some c, port := p }) 2
        else s
    | 0 =>
      if !fromBest then s
      else if m.twoStep then modPtp s fun x => { x with sync := some (m.seq, s.timebase) }
      else ptpRequest s p s.timebase (m.time + m.correction)
    | 8 =>
      match fromBest, x.sync with
      | true, some (q, at_) => if q = m.seq then ptpRequest s p at_ (m.time + m.correction) else s
      | _, _ => s
    | 9 =>
      match fromBest, x.request, x.forward with
      | true, some (q, t3), some fwd =>
        if q ≠ m.seq || m.requester ≠ ptpIdentity s p then s
        else
          let back : Int := (m.time : Int) - (m.correction : Int) - (t3 : Int)
          let s := modPtp s fun x => { x with request := none, forward := none }
          if fld s Reg.LNK_TSYNC.source ≠ 2 || !isRoot s then s
          else
            let offset := -((fwd - back) / 2)
            let s := discipline s offset
            { s with link := { s.link with err := Nat.min 0xFFFF (Config.timeErr offset ((fwd + back) / 2).toNat) } }
      | _, _, _ => s
    | 1 =>
      if s.link.ptp.state = 3 then
        emit s (.ptp p { type := 9, domain := m.domain, seq := m.seq, twoStep := false, time := s.timebase, correction := m.correction,
                         source := ptpIdentity s p, requester := m.source, clock := none })
      else s
    | _ => s

/-! ### Classification (R445, R446) -/

/-- The key of R445. -/
def ethKeyWord (port : Nat) (k : EthKey) (body : EthBody) : Nat :=
  let (qp, op) : Nat × Nat := match body with | .roce p => (p.qp, p.op) | _ => (0, 0)
  ([(port, 4), (k.etherType, 16), (k.vlan, 12), (k.pcp, 3), (b2n k.tagged, 1), (k.proto, 8), (k.dscp, 6), (k.ecn, 2), (k.dport, 16), (k.sport, 16),
    (k.ipSrc, 32), (qp, 24), (op, 8)].foldl (fun (a : Nat × Nat) f => (a.1 + f.1 % 2 ^ f.2 * 2 ^ a.2, a.2 + f.2)) (0, 0)).1

/-- A UDP datagram over IPv4 or IPv6. -/
def isUdp (k : EthKey) : Bool := (k.etherType = 0x0800 || k.etherType = 0x86DD) && k.proto = 17

/-- The fixed rules: 1 RDMA engine, 2 tunnel, 3 PTP, 0 drop. -/
def fixedRule (s : State) (k : EthKey) : Nat :=
  if k.etherType = 0x88F7 || (isUdp k && (k.dport = 319 || k.dport = 320)) then 3
  else if isUdp k && k.dport = 4791 then 1
  else if isUdp k && k.dport = fld s Reg.ETH_CFG.rml_udp then 2
  else 0

/-- A received frame goes to its engine, or is dropped and counted. -/
def ethAction (s : State) (p action : Nat) (named : Option Nat) (body : EthBody) : State :=
  let drop (s : State) : State := modEth s p fun e => { e with dropped := (e.dropped + 1) % 2 ^ 32 }
  match action, body with
  | 1, .roce q => if q.op = 0x81 then takeCnp s q.qp else if roceRequest q.op then takeRoceReq s p named q false else takeRoceRsp s q
  | 2, .tunnel src g => takeSegment s p src g
  | 3, .ptp m => takePtp s p m
  | _, _ => drop s

/-- A received Ethernet frame (R445): `bytes` are what its receive queue then holds, for PFC (R474). -/
def takeEther (s : State) (p : Nat) (k : EthKey) (bytes : Nat) (body : EthBody) : State :=
  if (ethOf s p).st ≠ .up then s
  else
    let hit := (camLookup s 1 (2 ^ 64 - 1) 2 (ethKeyWord p k body)).map fun h => h.2.2.action
    let s := camCount s
    let word := hit.getD (fld s Reg.ETH_CFG.miss_action)
    let first := bitsOf word 0 3
    let action := if first = 7 then fixedRule s k else first
    let named := if hit.isSome && first ≠ 7 && bitOf word 26 then some (bitsOf word 16 10) else none
    let s := if hit.isSome && bitOf word 6 then { s with cam := { s.cam with counters := tmod 0 s.cam.counters (bitsOf word 7 9) (· + 1) } } else s
    let queue := if hit.isSome && bitsOf word 3 3 ≠ 7 then bitsOf word 3 3 else k.pcp % 8
    ethAction (pfcLevel s p queue bytes) p action named body

/-! ### Egress of an Ethernet port (R440, R441, R443, R444) -/

/-- Bytes of a frame that one tunnel segment carries. -/
def segBytes : Nat := 8192

/-- The neighbour entry of a device is in use. -/
def neighValid (s : State) (d : Nat) : Bool := fldAt s Reg.ETH_NEIGH.valid [d] = 1

/-- Bytes of Ethernet, VLAN, IP and UDP headers and FCS toward a device. -/
def wireHead (s : State) (d : Nat) : Nat :=
  let v4 := fldAt s Reg.ETH_NEIGH.ip0 [d] = 0 && fldAt s Reg.ETH_NEIGH.ip1 [d] % 2 ^ 32 = 0xFFFF0000
  14 + 4 + (if v4 then 20 else 40) + 8 + 4

/-- Bytes of a RoCEv2 packet on the wire. -/
def roceWire (s : State) (d : Nat) (p : RocePkt) : Nat :=
  let ext := (if [0x06, 0x0A, 0x0B, 0x0C].contains p.op then 16 else 0) + (if [0x0D, 0x0F, 0x10, 0x11].contains p.op then 4 else 0) +
    (if p.op = 0x09 || p.op = 0x0B then 4 else 0)
  wireHead s d + 12 + ext + ceilDiv p.data.length 4 * 4 + 4

/-- Priority of an egress queue of a port. -/
def queuePcp (s : State) (p q : Nat) : Nat := bitsOf (fldAt s Reg.ETH_CTL.pcp_map [p]) (3 * q) 3

/-- An entry may leave on an Ethernet port. -/
def ethReady (s : State) (p q : Nat) (i : EgItem) : Bool :=
  let keys := match i.body with
    | .frame f => neighValid s f.dst && (keySide s (48 + p) f.dst).tx.isSome && !keySpent s (48 + p) f.dst
    | .roce d _ => neighValid s d
  decide (0 < i.sent) || (keys && regulated s i.partition && shaperOpen s (48 + p) q)

/-- Send the next segment or the packet of entry `k` of queue `q`. -/
def ethSend (s : State) (p q k : Nat) (i : EgItem) : State :=
  let put (s : State) (i : EgItem) (done : Bool) : State := modEth s p fun e =>
    let items := tget [] e.queues q
    { e with queues := tset e.queues q (if done then items.eraseIdx k else modAt (fun _ => i) k items) }
  let ovh := fldAt s Reg.ETH_CTL.shp_ovh [p]
  match i.body with
  | .roce d pkt => put (emit (chargeFrame s (48 + p) q i.partition (roceWire s d pkt + ovh)) (.roce p d pkt)) i true
  | .frame f =>
    let start := i.sent = 0
    let (s, f) := if start then sealFrame s (48 + p) f else (s, f)
    let no := if start then tget 0 s.link.frameNos f.dst else i.frameNo
    let s := if start then { s with link := { s.link with frameNos := tset s.link.frameNos f.dst ((no + 1) % 2 ^ 16) } } else s
    let total := frameBytes f
    let off := i.sent * segBytes
    let len := Nat.min segBytes (total - off)
    let s := chargeFrame s (48 + p) q i.partition (wireHead s f.dst + 8 + len + ovh)
    let done := decide (total ≤ off + segBytes)
    let g : TunnelSeg := { first := start, last := done, frameNo := no, offset := off, length := len, frame := some f, control := none }
    put (emit s (.segment p f.dst g)) { i with body := .frame f, sent := i.sent + 1, frameNo := no } done

/-- Key setup starts toward devices whose frames wait for keys (R533). -/
def startTunnels (s : State) (p : Nat) : State :=
  let ds := ((framesIn (tvals (ethOf s p).queues).flatten).map (·.dst)).eraseDups
  ds.foldl (fun s d =>
    let k := keySide s (48 + p) d
    if k.tx.isNone && k.mine.isNone && neighValid s d then sendNonce s (48 + p) d else s) s

/-- The queues of an Ethernet port in their order; a priority that PFC holds waits (R474). -/
def ethSchedule (s : State) (p : Nat) : List Nat → State
  | [] => s
  | q :: qs =>
    if (prioOf s p (queuePcp s p q)).paused then ethSchedule s p qs
    else
      let items := (tget [] (ethOf s p).queues q).zipIdx
      match items.find? (fun i => 0 < i.1.sent) <|> items.find? (fun i => ethReady s p q i.1) with
      | some (i, k) => ethSend s p q k i
      | none => ethSchedule s p qs

/-- A boundary of an Ethernet port: a control segment, or the scheduler's choice. -/
def ethBoundary (s : State) (p : Nat) : State :=
  if (ethOf s p).st ≠ .up then s
  else
    let s := startTunnels s p
    match (ethOf s p).ctl with
    | (d, c) :: cs =>
      emit (modEth s p fun e => { e with ctl := cs }) (.segment p d { first := false, last := false, frameNo := 0, offset := 0, length := 244, frame := none, control := some c })
    | [] => ethSchedule s p (List.range 8)

end Sys2Proof.Machine
end

