-- ==== Sys2Proof/Machine/Image.lean ====
section
/-! DEFINITION. Layout images: their bytes, checks 1 to 4 of R77, refusal reasons (R62 to R76, R88). -/
namespace Sys2Proof.Machine

/-- Why an image is refused: the reason of R88 and the section concerned, 0 for the header. -/
structure ImgBad where
  reason : Nat
  sect : Nat
  deriving DecidableEq, Repr

/-- The status of a reason (R88). -/
def reasonStatus (r : Nat) : Status :=
  if r = 0x0B then .digestMismatch else if r = 0x0C then .unitAbsent else if 0x0D ≤ r && r ≤ 0x0F then .busyMaint
  else if r = 0x10 then .noCapacity else .versionMismatch

/-- A section of an image: type, place of its value, value. -/
structure RawSect where
  type : Nat
  at_ : Nat
  val : List Nat
  deriving DecidableEq, Repr

/-- The header of an image. -/
structure ImgHead where
  flags : Nat
  sections : Nat
  length : Nat
  serial : Nat
  base : Nat
  composition : Nat
  deriving DecidableEq, Repr

/-- Every byte is zero. -/
def allZero (l : List Nat) : Bool := l.all (· = 0)

/-- The bit of a part in part_mask (R62). -/
def partBit : Part → Nat
  | .rb4816 => 0 | .rb4812 => 1 | .rb4808 => 2

/-- The first rule of the header that an image of `n` bytes breaks, in the order of the table (R62). -/
def headBad (part : Part) (stepping n : Nat) (b : List Nat) : Option Nat :=
  let mask := leAt b 8 2
  let flags := leAt b 11 1
  let len := leAt b 16 4
  let partial_ := bitOf flags 0
  if n < 64 then some 0x05
  else if slice b 0 4 ≠ [0x53, 0x59, 0x4C, 0x49] then some 0x01
  else if leAt b 4 2 ≠ 1 || leAt b 6 2 ≠ 0x40 then some 0x02
  else if !bitOf mask (partBit part) || 8 ≤ mask then some 0x03
  else if stepping < leAt b 10 1 then some 0x04
  else if 4 ≤ flags || (bitOf flags 1 && !partial_) || leAt b 12 2 = 0 || 64 < leAt b 12 2 || leAt b 14 2 ≠ 0 then some 0x07
  else if len % 8 ≠ 0 || 8388608 < len || len ≠ n then some 0x05
  else if leAt b 20 4 = 0 || (!partial_ && leAt b 24 4 ≠ 0) || !allZero (slice b 32 32) then some 0x07
  else none

/-- The header's fields. -/
def headOf (b : List Nat) : ImgHead :=
  { flags := leAt b 11 1, sections := leAt b 12 2, length := leAt b 16 4, serial := leAt b 20 4, base := leAt b 24 4, composition := leAt b 28 4 }

/-- The sections from byte `pos` on, `left` of them, after a section of type `prev` (R63). -/
def readSects (b : List Nat) (len : Nat) : Nat → Nat → Nat → Nat → Except ImgBad (List RawSect)
  | 0, pos, k, _ => if pos = len then .ok [] else .error ⟨0x05, k⟩
  | left + 1, pos, k, prev =>
    if len < pos + 8 then .error ⟨0x05, k + 1⟩
    else
      let t := leAt b pos 2
      let n := leAt b (pos + 4) 4
      if leAt b (pos + 2) 2 ≠ 0 then .error ⟨0x07, k + 1⟩
      else if n % 8 ≠ 0 || len < pos + 8 + n then .error ⟨0x05, k + 1⟩
      else if t < prev || (t = prev && t ≠ 0x70 && t ≠ 0xA0) then .error ⟨0x06, k + 1⟩
      else match readSects b len left (pos + 8 + n) (k + 1) t with
        | .ok l => .ok ({ type := t, at_ := pos, val := slice b (pos + 8) n } :: l)
        | .error e => .error e

/-! ### Check 2: the signature -/

/-- The public key of an image key slot that may sign: enrolled and not revoked (R521, R524). -/
def slotKey (s : State) (k : Nat) : Option (Nat × Nat) :=
  if s.sec.revoked.contains k then none else if k = 0 then some Config.romKey else tget? s.sec.slots k

/-- Digest and signature of an image verify; the digest, and the slot that signed. -/
def checkSignature (s : State) (b : List Nat) (x : RawSect) (k : Nat) : Except ImgBad (Nat × Nat) :=
  let v := x.val
  if v.length ≠ 152 then .error ⟨0x05, k⟩
  else
    let d := beNat (slice v 8 48)
    let good := leAt v 0 1 < 4 && leAt v 1 1 = 1 && allZero (slice v 2 6) && d = sha384n (b.take x.at_)
    match good, slotKey s (leAt v 0 1) with
    | true, some key => if ecdsaVerify key d (beNat (slice v 56 48)) (beNat (slice v 104 48)) then .ok (d, leAt v 0 1) else .error ⟨0x0B, k⟩
    | _, _ => .error ⟨0x0B, k⟩

/-! ### Check 3: section values -/

/-- PARTITIONS (R65). -/
def parsePartitions (v : List Nat) : Option (List Partition) :=
  if v.length ≠ 256 then none
  else
    let one (p : Nat) : Partition :=
      let o := 16 * p
      { enable := leAt v o 1 = 1, classMask := leAt v (o + 1) 1, maxContexts := leAt v (o + 2) 2, atticShare := leAt v (o + 4) 2,
        stepShare := leAt v (o + 6) 2, affinity := leAt v (o + 8) 1 }
    let ok (p : Nat) : Bool := leAt v (16 * p) 1 ≤ 1 && leAt v (16 * p + 1) 1 < 16 && leAt v (16 * p + 8) 1 ≤ 2 && allZero (slice v (16 * p + 9) 7)
    if (List.range 16).all ok && (one 0).enable && bitOf (one 0).classMask 1 then some ((List.range 16).map one) else none

/-- ATTIC (R66). -/
def parseAttic (v : List Nat) : Option AtticSec :=
  let a : AtticSec := { stackMask := leAt v 0 1, crateKib := leAt v 8 2, slabKib := leAt v 10 2, invKib := leAt v 12 2, vsrKib := leAt v 14 2, spareKib := leAt v 16 2 }
  if v.length = 24 && a.stackMask < 64 && allZero (slice v 1 7) && allZero (slice v 18 6) &&
      [a.crateKib, a.slabKib, a.invKib, a.vsrKib, a.spareKib].all (· % 64 = 0) && 128 ≤ a.spareKib then some a
  else none

/-- SRAM (R68). -/
def parseSram (v : List Nat) : Option SramSec :=
  let m (i : Nat) : Nat := leAt v (2 * i) 2
  if v.length = 16 && (List.range 6).all (fun i => m i % 2 = 0 && 2 ≤ m i) && m 4 ≤ 16 && allZero (slice v 12 4) then
    some { step := m 0, embed := m 1, map := m 2, vocab := m 3, desc := m 4, queue := m 5 }
  else none

/-- STORE_ROOM. -/
def parseStore (v : List Nat) : Option StoreSec :=
  let x : StoreSec := { chanMask := leAt v 0 2, rate := leAt v 2 2, spillUnits := leAt v 4 2 }
  if v.length = 16 && [4800, 5600, 6400].contains x.rate && x.spillUnits ≤ 256 && leAt v 6 2 = 1 && allZero (slice v 8 8) then some x else none

/-- LINK_BAYS (R69). -/
def parseBays (v : List Nat) : Option (List Bay) :=
  let ok (b : Nat) : Bool :=
    let o := 8 * b
    leAt v o 1 ≤ 2 && leAt v (o + 2) 1 ≤ 1 && (leAt v o 1 ≠ 2 || leAt v (o + 2) 1 = 0) && leAt v (o + 3) 1 ≤ 100 && allZero (slice v (o + 4) 4)
  if v.length = 48 && (List.range 6).all ok then
    some ((List.range 6).map fun b =>
      { personality := leAt v (8 * b) 1, linkMask := leAt v (8 * b + 1) 1, integrityOnly := leAt v (8 * b + 2) 1 = 1, holdMs := leAt v (8 * b + 3) 1 })
  else none

/-- Nominal clock of an island in MHz, by CLOCKS index (R18). -/
def nominalMhz (i : Nat) : Nat :=
  if i < 6 then 800 else if i < 8 then 1600 else if i = 8 then 2000 else if i < 15 then 1250 else if i < 17 then 1600
  else if i = 17 then 1000 else if i = 18 then 1200 else if i = 19 then 1500 else if i < 22 then 800 else if i = 22 then 100 else 1000

/-- CLOCKS (R70). -/
def parseClocks (v : List Nat) : Option (List Nat) :=
  let l := (List.range 24).map fun i => leAt v (2 * i) 2
  if v.length = 48 && (List.range 24).all (fun i => l.getD i 0 ≤ nominalMhz i) && l.getD 22 0 = 0 && l.getD 23 0 = 0 then some l else none

/-- REGULATORS. -/
def parseRegulators (v : List Nat) : Option (List Regulator) :=
  let ok (i : Nat) : Bool := (leAt v (8 * i) 4 = 0 || 1 ≤ leAt v (8 * i + 4) 2) && leAt v (8 * i + 6) 2 = 0
  if v.length = 384 && (List.range 48).all ok then some ((List.range 48).map fun i => { rate := leAt v (8 * i) 4, burstKib := leAt v (8 * i + 4) 2 }) else none

/-- PLACEMENT under a stack mask (R631). -/
def parsePlacement (mask : Nat) (v : List Nat) : Option PlaceSec :=
  let x : PlaceSec := { crateStacks := leAt v 0 1, slabStacks := leAt v 1 1, spread := leAt v 2 1, seed := leAt v 8 8 }
  if v.length = 16 && Nat.land x.crateStacks mask = x.crateStacks && Nat.land x.slabStacks mask = x.slabStacks && x.spread ≤ 1 && allZero (slice v 3 5) then some x
  else none

/-- One MICROPROG section (R72, R213). -/
def parseMicro (v : List Nat) : Option MicroSec :=
  let n := leAt v 24 2
  let es := (List.range 8).map fun i => leAt v (8 + 2 * i) 2
  let code := (List.range n).map fun i => leAt v (32 + 8 * i) 8
  if leAt v 0 1 < 64 && allZero (slice v 1 7) && allZero (slice v 26 6) && 1 ≤ n && n ≤ 1024 && v.length = 32 + 8 * n &&
      es.all (fun e => e = 0xFFFF || e < n) && code.all (nbuLoadOk n) then
    some { stackMask := leAt v 0 1, entries := es, code := code }
  else none

/-- Every MICROPROG section, their stack masks disjoint. -/
def parseMicros : List (List Nat) → Nat → Option (List MicroSec)
  | [], _ => some []
  | v :: vs, used =>
    match parseMicro v with
    | some m => if Nat.land m.stackMask used ≠ 0 then none else (parseMicros vs (Nat.lor used m.stackMask)).map (m :: ·)
    | none => none

/-- CAM records, `n` of them (R73, R384). -/
def parseCam : Nat → List Nat → Option (List CamRule)
  | 0, v => if v.isEmpty then some [] else none
  | n + 1, v =>
    let w := leAt v 1 1
    let size := 8 + 24 * w
    let block (o k : Nat) : Nat := leAt v (8 + 24 * k + o) 10 * 2 ^ (80 * k)
    let key := sumOf ((List.range w).map (block 0))
    let mask := sumOf ((List.range w).map (block 10))
    if v.length < size || !List.contains [1, 2, 4] w || 64 ≤ leAt v 0 1 || !(List.range w).all (fun k => leAt v (8 + 24 * k + 20) 4 = 0) then none
    else (parseCam n (v.drop size)).map ({ bank := leAt v 0 1, width := w, priority := leAt v 2 2, action := leAt v 4 4, key := key, mask := mask } :: ·)

/-- Records of one bank share a width and fit the bank (R384). -/
def camRulesOk (l : List CamRule) : Bool :=
  l.all fun r => l.all (fun q => q.bank ≠ r.bank || q.width = r.width) && decide ((l.filter fun q => q.bank = r.bank).length ≤ 4096 / r.width)

/-- CAM_RULES. -/
def parseCamRules (v : List Nat) : Option (List CamRule) :=
  if v.length < 8 || leAt v 4 4 ≠ 0 then none
  else (parseCam (Nat.min (leAt v 0 4) v.length) (v.drop 8)).bind fun l => if camRulesOk l then some l else none

/-- The epoch rules of R74 for a new role against the table in force. -/
def roleEpochOk (old new : List Role) (r : Role) : Bool :=
  match old.find? fun o => o.kind = r.kind && o.key = r.key && o.device = r.device with
  | some o => o.epoch = r.epoch
  | none =>
    match old.find? fun o => o.kind = r.kind && o.key = r.key && !new.any fun n => n.kind = o.kind && n.key = o.key && n.device = o.device with
    | some o => let d := (r.epoch + 2 ^ 16 - o.epoch) % 2 ^ 16; 1 ≤ d && d ≤ 255
    | none => true

/-- ROLES (R74). -/
def parseRoles (old : List Role) (v : List Nat) : Option (List Role) :=
  let n := leAt v 0 2
  let one (i : Nat) : Role := let o := 8 + 16 * i; { kind := leAt v o 1, epoch := leAt v (o + 2) 2, device := leAt v (o + 4) 2, key := leAt v (o + 8) 8 }
  let ok (i : Nat) : Bool :=
    let r := one i
    1 ≤ r.kind && r.kind ≤ 5 && leAt v (8 + 16 * i + 1) 1 = 0 && r.device < 2048 && leAt v (8 + 16 * i + 6) 2 = 0 && (r.kind ≠ 5 || r.key = 0)
  if v.length ≠ 8 + 16 * n || !allZero (slice v 2 6) || !(List.range n).all ok then none
  else
    let l := (List.range n).map one
    if l.all (roleEpochOk old l) then some l else none

/-- One ROUTES section: its start and entries (R76). -/
def parseRoute (v : List Nat) : Option (Nat × List Route) :=
  let start := leAt v 0 2
  let n := leAt v 2 2
  let one (i : Nat) : Route := let e := leAt v (8 + 8 * i) 8; { links := bitsOf e 0 48, ethPorts := bitsOf e 48 12, policy := bitsOf e 60 3, valid := bitOf e 63 }
  if v.length ≠ 8 + 8 * n || leAt v 4 4 ≠ 0 || 2048 < start + n || !(List.range n).all (fun i => (one i).policy ≤ 1) then none
  else some (start, (List.range n).map one)

/-- Every ROUTES section; they do not overlap. -/
def parseRoutes : List (List Nat) → Option (List (Nat × List Route))
  | [] => some []
  | v :: vs =>
    match parseRoute v, parseRoutes vs with
    | some (a, l), some rest => if rest.any fun r => decide (r.1 < a + l.length) && decide (a < r.1 + r.2.length) then none else some ((a, l) :: rest)
    | _, _ => none

/-- Values of the sections of a type. -/
def sectVals (l : List RawSect) (t : Nat) : List (List Nat) := (l.filter (·.type = t)).map (·.val)

/-- The index of the first section of a type. -/
def sectIndex (l : List RawSect) (t : Nat) : Nat := (l.takeWhile (·.type ≠ t)).length + 1

/-- Parse an optional section; a failure names its index. -/
def need1 {α : Type} (l : List RawSect) (t : Nat) (f : List Nat → Option α) : Except ImgBad (Option α) :=
  match sectVals l t with
  | [] => .ok none
  | v :: _ => match f v with | some x => .ok (some x) | none => .error ⟨0x07, sectIndex l t⟩

/-- Parse a repeatable section. -/
def needAll {α : Type} (l : List RawSect) (t : Nat) (f : List (List Nat) → Option α) : Except ImgBad (Option α) :=
  match sectVals l t with
  | [] => .ok none
  | vs => match f vs with | some x => .ok (some x) | none => .error ⟨0x07, sectIndex l t⟩

/-- Section types (R64). -/
def sectTypes : List Nat := [0x10, 0x20, 0x21, 0x22, 0x30, 0x40, 0x50, 0x60, 0x70, 0x80, 0x90, 0xA0, 0xFFFF]

/-- Types that a full image must carry. -/
def neededTypes : List Nat := [0x10, 0x20, 0x21, 0x22, 0x30, 0x60]

/-- Types that a FAST image may carry (R85). -/
def fastTypes : List Nat := [0x10, 0x50, 0x90, 0xA0, 0xFFFF]

/-- Check 3: every section value (R64 to R76, R85), under the roles and the stack mask in force. -/
def parseSections (h : ImgHead) (l : List RawSect) (roles : List Role) (mask : Nat) : Except ImgBad Sections := do
  match l.zipIdx.find? fun x => !sectTypes.contains x.1.type with
  | some (_, k) => throw ⟨0x07, k + 1⟩
  | none => pure ()
  if bitOf h.flags 1 && 65536 < h.length then throw ⟨0x0A, 0⟩
  match (if bitOf h.flags 1 then l.zipIdx.find? fun x => !fastTypes.contains x.1.type else none) with
  | some (_, k) => throw ⟨0x0A, k + 1⟩
  | none => pure ()
  if !bitOf h.flags 0 && !neededTypes.all (fun t => l.any (·.type = t)) then throw ⟨0x08, 0⟩
  let partitions ← need1 l 0x10 parsePartitions
  let attic ← need1 l 0x20 parseAttic
  let sram ← need1 l 0x21 parseSram
  let store ← need1 l 0x22 parseStore
  let bays ← need1 l 0x30 parseBays
  let clocks ← need1 l 0x40 parseClocks
  let regulators ← need1 l 0x50 parseRegulators
  let placement ← need1 l 0x60 (parsePlacement (attic.elim mask (·.stackMask)))
  let micro ← needAll l 0x70 fun vs => parseMicros vs 0
  let cam ← need1 l 0x80 parseCamRules
  let roles ← need1 l 0x90 (parseRoles roles)
  let routes ← needAll l 0xA0 parseRoutes
  pure { partitions := partitions, attic := attic, sram := sram, store := store, bays := bays, clocks := clocks, regulators := regulators,
         placement := placement, micro := micro, cam := cam, roles := roles, routes := routes }

/-! ### Check 4: absent units -/

/-- Types of the sections that enable a unit the part lacks, ascending (R67, R69, R75). -/
def absentUnits (s : State) (x : Sections) : List Nat :=
  let mine := maskOf (partStacks s.part)
  let a := match x.attic with
    | some a => if Nat.land a.stackMask mine ≠ a.stackMask || (a.vsrKib ≠ 0 && !partWalker s.part) then [0x20] else []
    | none => []
  let c := match x.store with | some c => if 2 ^ partChannels s.part ≤ c.chanMask then [0x22] else [] | none => []
  let b := match x.bays with
    | some l => if (l.zipIdx.any fun e => partBays s.part ≤ e.2 && e.1.personality ≠ 0) ||
        (s.part = .rb4812 && 16 ≤ (l.getD 4 {}).linkMask) then [0x30] else []
    | none => []
  let r := match x.roles with | some l => if (l.any (·.kind = 5)) && !(partTiles s.part).isEmpty then [0x90] else [] | none => []
  a ++ c ++ b ++ r

/-- Checks 1 to 4 of R77 on the bytes of an image; a full image is read against no roles and no stack mask in force where
`fresh`. -/
def readImage (s : State) (b : List Nat) (fresh : Bool) : Except ImgBad Image :=
  match headBad s.part s.stepping b.length b with
  | some r => .error ⟨r, 0⟩
  | none =>
    let h := headOf b
    match readSects b h.length h.sections 64 0 0 with
    | .error e => .error e
    | .ok l =>
      match l.getLast? with
      | none => .error ⟨0x08, 0⟩
      | some x =>
        if x.type ≠ 0xFFFF then .error ⟨0x08, 0⟩
        else match checkSignature s b x l.length with
          | .error e => .error e
          | .ok d =>
            match parseSections h l (if fresh then [] else s.lay.active.roles) (if fresh then 0 else s.lay.active.attic.stackMask) with
            | .error e => .error e
            | .ok secs =>
              match (absentUnits s secs).head? with
              | some t => .error ⟨0x0C, sectIndex l t⟩
              | none => .ok { flags := h.flags, serial := h.serial, baseSerial := h.base, composition := h.composition, digest := d.1, keySlot := d.2, sections := secs }

end Sys2Proof.Machine
end

