-- ==== Sys2Proof/Machine/Links.lean ====
section
/-! DEFINITION. The commands of links and Ethernet ports (chapter "Rammibor Link and egress scheduling"). Link and port numbers
are taken modulo their count; `h` is what a flit's header tells the sender side. -/
namespace Sys2Proof.Machine

/-- A control flit on an UP link, after its header. -/
def onUp (n : Nat) (h : FlitHead) (f : State → State) (s : State) : State :=
  if (lnkOf s n).st = .up then f (takeHead s n h) else s

/-- HELLO (R409): the version, the crypto mode and the pools are agreed and RESUME goes out, or training fails. -/
def takeHello (s : State) (n : Nat) (h : Hello) : State :=
  let l := lnkOf s n
  if l.st ≠ .training && l.st ≠ .held then s
  else
    let mine := helloOf s n
    let again := l.agreed
    let s := setLnk s n { l with partner := h.device % 2 ^ 11, partnerKind := h.kind, partnerLink := h.link, partnerStart := h.startEpoch, rank := h.rank }
    let v := Nat.min mine.verMax h.verMax
    if v < Nat.max mine.verMin h.verMin then trainFails s n .versionMismatch
    else if h.crypto ≠ mine.crypto then trainFails s n .protection
    else if h.credits.length ≠ 5 || h.credits.any fun c => decide (c < 16) then trainFails s n .noCapacity
    else
      let s := if h.crypto = 1 then setSticky s 5 else s
      let resume : Ctl := .resume l.lastIn (if l.st = .held then l.epoch else (l.epoch + 1) % 2 ^ 16)
      modLnk s n fun l =>
        { l with agreed := true, resumed := false, version := v, crypto := h.crypto, pools := h.credits,
                 keys := { l.keys with mine := none, theirs := none, derived := none },
                 ctl := l.ctl ++ (if again then [.hello mine] else []) ++ [resume] }

/-- HELLO (R409). -/
def execHello (link : Nat) (h : Hello) (s : State) : Host.Outcome State Fault Refusal := run s (actL fun s => takeHello s (link % 48) h)

/-- RESUME (R426, R427, R429). -/
def takeResume (s : State) (n last epoch : Nat) : State :=
  let l := lnkOf s n
  if !l.agreed then s
  else if l.st = .held then
    if epoch = l.epoch then lnkReturns s n last else startTraining (lnkGoDown s n) n false
  else if l.st = .training then
    if epoch = l.epoch && epoch ≠ 0 && l.partnerStart = l.upStart then startTraining s n false
    else sendNonce (setLnk s n { l with epoch := Nat.max ((l.epoch + 1) % 2 ^ 16) (epoch % 2 ^ 16), resumed := true }) n l.partner
  else s

/-- RESUME (R429). -/
def execResume (link last epoch : Nat) (s : State) : Host.Outcome State Fault Refusal := run s (actL fun s => takeResume s (link % 48) last epoch)

/-- RETRY (R420). -/
def execRetry (link : Nat) (h : FlitHead) (seq : Nat) (s : State) : Host.Outcome State Fault Refusal :=
  run s (actL (onUp (link % 48) h fun s => replayFrom s (link % 48) (some seq)))

/-- CREDIT_SYNC (R416): the five pools' counts. -/
def execCreditSync (link : Nat) (h : FlitHead) (pools : List Nat) (s : State) : Host.Outcome State Fault Refusal :=
  run s (actL (onUp (link % 48) h fun s => creditSync s (link % 48) pools))

/-- CREDIT_SYNC_TIMER (R416). -/
def execCreditSyncTimer (link : Nat) (s : State) : Host.Outcome State Fault Refusal :=
  run s (actL fun s => if (lnkOf s (link % 48)).st = .up then pushCtl s (link % 48) (.creditSync (lnkOf s (link % 48)).gaveCr) else s)

/-- TSYNC (R435). -/
def execTsync (link : Nat) (h : FlitHead) (t : Tsync) (s : State) : Host.Outcome State Fault Refusal :=
  run s (actL (onUp (link % 48) h fun s => takeTsync s (link % 48) t))

/-- TSYNC_TIMER (R434): the flit is stamped as it leaves. -/
def execTsyncTimer (link : Nat) (s : State) : Host.Outcome State Fault Refusal :=
  run s (actL fun s =>
    if (lnkOf s (link % 48)).st = .up then
      let s := chooseParent s
      pushCtl s (link % 48) (.tsync ⟨0, 0, 0, s.link.rank, s.link.err⟩)
    else s)

/-- HEARTBEAT (R413). -/
def execHeartbeat (link : Nat) (h : FlitHead) (number time : Nat) (s : State) : Host.Outcome State Fault Refusal :=
  run s (actL (onUp (link % 48) h fun s => pushCtl s (link % 48) (.hbAnswer number time 0)))

/-- EXPRESS_SUSPEND (R439). -/
def execExpressSuspend (link : Nat) (h : FlitHead) (s : State) : Host.Outcome State Fault Refusal :=
  run s (actL (onUp (link % 48) h fun s => suspendExpress s (link % 48)))

/-- EXPRESS_RESUME (R439). -/
def execExpressResume (link : Nat) (h : FlitHead) (s : State) : Host.Outcome State Fault Refusal :=
  run s (actL (onUp (link % 48) h fun s => modLnk s (link % 48) fun l => { l with suspended := false }))

/-- EXPRESS_RESUME_TIMER (R439): the partner's error has stayed below 20 ns for 10 ms. -/
def execExpressResumeTimer (link : Nat) (s : State) : Host.Outcome State Fault Refusal :=
  run s (actL fun s =>
    let n := link % 48
    let l := lnkOf s n
    if l.st = .up && l.partnerSuspended && l.errLow.isSome then
      report (setLnk s n { l with partnerSuspended := false, misses := [], ctl := l.ctl ++ [.expressResume] }) 0x1007 n l.epoch [n, 1]
    else s)

/-- A KEY flit on a link. -/
def keyOn (link : Nat) (h : FlitHead) (op : Nat) (k : KeyFlit) (s : State) : State :=
  let n := link % 48
  takeKey (takeHead s n h) n (lnkOf s n).partner { k with op := op }

/-- KEY_NONCE (R531): KEY op 1. -/
def execKeyNonce (link : Nat) (h : FlitHead) (k : KeyFlit) (s : State) : Host.Outcome State Fault Refusal := run s (actL (keyOn link h 1 k))
/-- KEY_CONFIRM (R531): KEY op 2. -/
def execKeyConfirm (link : Nat) (h : FlitHead) (k : KeyFlit) (s : State) : Host.Outcome State Fault Refusal := run s (actL (keyOn link h 2 k))
/-- KEY_REKEY (R532): KEY op 3. -/
def execKeyRekey (link : Nat) (h : FlitHead) (k : KeyFlit) (s : State) : Host.Outcome State Fault Refusal := run s (actL (keyOn link h 3 k))
/-- KEY_REKEY_ACK (R532): KEY op 4. -/
def execKeyRekeyAck (link : Nat) (h : FlitHead) (k : KeyFlit) (s : State) : Host.Outcome State Fault Refusal := run s (actL (keyOn link h 4 k))
/-- KEY_FAIL (R531): KEY op 5. -/
def execKeyFail (link : Nat) (h : FlitHead) (k : KeyFlit) (s : State) : Host.Outcome State Fault Refusal := run s (actL (keyOn link h 5 k))

/-- REKEY_START (R433): the counter of a port's key, toward device `dev` in a tunnel, has reached 2^47. -/
def execRekeyStart (port dev : Nat) (s : State) : Host.Outcome State Fault Refusal := run s (actL fun s => rekeyStart s (port % 60) dev)
/-- REKEY_RESEND_TIMER (R532). -/
def execRekeyResendTimer (port dev : Nat) (s : State) : Host.Outcome State Fault Refusal := run s (actL fun s => rekeyAgain s (port % 60) dev)
/-- OLD_KEY_EXPIRY (R433). -/
def execOldKeyExpiry (port dev : Nat) (s : State) : Host.Outcome State Fault Refusal := run s (actL fun s => oldKeyGone s (port % 60) dev)

/-- DATA_FLIT (R420). -/
def execDataFlit (link : Nat) (fl : Flit) (s : State) : Host.Outcome State Fault Refusal := run s (actL fun s => takeFlit s (link % 48) fl)

/-- IDLE_FLIT (R411). -/
def execIdleFlit (link : Nat) (h : FlitHead) (s : State) : Host.Outcome State Fault Refusal := run s (actL fun s => takeHead s (link % 48) h)

/-- REPLAY_TIMEOUT (R420): no ack progress for 2 µs. -/
def execReplayTimeout (link : Nat) (s : State) : Host.Outcome State Fault Refusal := run s (actL fun s => replayFrom s (link % 48) none)

/-- FRAME_RECEIVE (R422): a whole frame, received on a port. -/
def execFrameReceive (port : Nat) (f : Frame) (s : State) : Host.Outcome State Fault Refusal := run s (actL fun s => takeFrame s (port % 60) f)

/-- TACK (R421): entries of a TACK from a device. -/
def execTack (src : Nat) (entries : List TackEntry) (s : State) : Host.Outcome State Fault Refusal := run s (actL fun s => takeTack s src entries)

/-- RETX_TIMER (R421). -/
def execRetxTimer (dest txid : Nat) (s : State) : Host.Outcome State Fault Refusal := run s (actL fun s => retxTimer s dest txid)

/-- EPOCH_HOLD_EXPIRY (R424). -/
def execEpochHoldExpiry (src txid : Nat) (s : State) : Host.Outcome State Fault Refusal := run s (actL fun s => epochHoldOver s src txid)

/-- LINK_SIGNAL_DETECT (R406, R407): the lanes with signal, and whether their order is reversed. -/
def execLinkSignalDetect (link lanes : Nat) (reversed : Bool) (s : State) : Host.Outcome State Fault Refusal :=
  run s (actL fun s =>
    let n := link % 48
    let l := lnkOf s n
    if !lnkEnabled s n || lanes % 16 ≠ 15 || l.st = .up then s
    else
      let fast := match l.coeffAt with | some t => decide (s.timebase < t + 100000000) | none => false
      modLnk (startTraining s n fast) n fun l => { l with reversed := reversed })

/-- A port is lost (R426). -/
def portLost (s : State) (port : Nat) : State :=
  if port < 48 then
    match (lnkOf s port).st with
    | .up => lnkHeld s port true
    | .training => lnkGoDown s port
    | _ => s
  else
    match (ethOf s (port - 48)).st with
    | .up => ethHeld s (port - 48)
    | .training => ethGoDown s (port - 48)
    | _ => s

/-- LINK_DOWN_DETECTED (R426): loss of block lock, of FEC or of flits on a port; `fec` codewords could not be corrected. -/
def execLinkDownDetected (port fec : Nat) (s : State) : Host.Outcome State Fault Refusal :=
  run s (actL fun s =>
    let p := port % 60
    portLost (if p < 48 then bumpAt s Reg.LNK_ERR.fec_uncorr [p] fec else s) p)

/-- LINK_HOLD_EXPIRY (R431). -/
def execLinkHoldExpiry (link : Nat) (s : State) : Host.Outcome State Fault Refusal :=
  run s (actL fun s => if (lnkOf s (link % 48)).st = .held then lnkGoDown s (link % 48) else s)

/-- LINK_TRAIN_RETRY (R409): a link that failed training trains again; a port's key setups that failed start anew. -/
def execLinkTrainRetry (port : Nat) (s : State) : Host.Outcome State Fault Refusal :=
  run s (actL fun s =>
    let p := port % 60
    if p < 48 then (if lnkEnabled s p && (lnkOf s p).st ≠ .up then startTraining s p false else s)
    else modEth s (p - 48) fun e => { e with keys := tmap (fun _ k => if k.tx.isNone then { k with mine := none } else k) e.keys })

/-- LNK_CTL_RETRAIN (R407). -/
def execLnkCtlRetrain (link : Nat) (s : State) : Host.Outcome State Fault Refusal :=
  run s (hostActL fun s => retrainLink s (link % 48))

/-- A write of LNK_CTL. -/
def lnkCtlWrite (s : State) (n : Nat) (w : RegWrite) : State :=
  let s := storeFields s w [n] [Reg.LNK_CTL.enable, Reg.LNK_CTL.express, Reg.LNK_CTL.shp_ovh]
  if fldAt s Reg.LNK_CTL.enable [n] = 0 then lnkGoDown s n
  else if wget w Reg.LNK_CTL.retrain = some 1 then retrainLink s n else s

/-- LNK_CTL_ENABLE_WRITE (R426): a write of a link's LNK_CTL. -/
def execLnkCtlEnableWrite (link : Nat) (w : RegWrite) (s : State) : Host.Outcome State Fault Refusal :=
  run s (hostActL fun s => if portPresent s.part (link % 48) then lnkCtlWrite s (link % 48) w else s)

/-- SHAPER_CONFIG_WRITE (R441): a write of the shaper of queue `q` of a port. -/
def execShaperConfigWrite (port q : Nat) (w : RegWrite) (s : State) : Host.Outcome State Fault Refusal :=
  run s (hostActL fun s => if portPresent s.part (port % 60) then shaperWrite s (port % 60) (q % 8) w else s)

/-- SHAPER_REFILL (R441). -/
def execShaperRefill (s : State) : Host.Outcome State Fault Refusal := run s (actL refillShapers)

/-- FLIT_BOUNDARY (R440) of a link or an Ethernet port. -/
def execFlitBoundary (port : Nat) (s : State) : Host.Outcome State Fault Refusal :=
  run s (actL fun s => if port % 60 < 48 then linkBoundary s (port % 60) else ethBoundary s (port % 60 - 48))

/-- TUNNEL_SEGMENT (R444): a segment from a device on an Ethernet port. -/
def execTunnelSegment (port src : Nat) (g : TunnelSeg) (s : State) : Host.Outcome State Fault Refusal :=
  run s (actL fun s => takeSegment s (port % 12) src g)

/-- REASSEMBLY_TIMEOUT (R444). -/
def execReassemblyTimeout (port src frameNo : Nat) (s : State) : Host.Outcome State Fault Refusal :=
  run s (actL fun s => reasmTimeout s (port % 12) src frameNo)

/-- ETHERNET_FRAME_RECEIVE (R445): the classified fields, the bytes that its receive queue then holds, what it carries. -/
def execEthernetFrameReceive (port : Nat) (k : EthKey) (bytes : Nat) (body : EthBody) (s : State) : Host.Outcome State Fault Refusal :=
  run s (actL fun s => takeEther s (port % 12) k bytes body)

/-- PTP_MESSAGE (R447). -/
def execPtpMessage (port : Nat) (m : PtpMsg) (s : State) : Host.Outcome State Fault Refusal := run s (actL fun s => takePtp s (port % 12) m)

/-- ETH_HOLD_EXPIRY (R448). -/
def execEthHoldExpiry (port : Nat) (s : State) : Host.Outcome State Fault Refusal :=
  run s (actL fun s => if (ethOf s (port % 12)).st = .held then ethGoDown s (port % 12) else s)

/-- ETH_TRAINING_COMPLETE (R448). -/
def execEthTrainingComplete (port : Nat) (s : State) : Host.Outcome State Fault Refusal :=
  run s (actL fun s => if ethEnabled s (port % 12) then ethUp s (port % 12) else s)

end Sys2Proof.Machine
end

