-- ==== Sys2Proof/Machine/Layout.lean ====
section
/-! DEFINITION. Loading layout images (R77 to R86): checks 5 to 7, application section by section, fast recomposition,
micro-program reload, programming of a flash slot. -/
namespace Sys2Proof.Machine

/-! ### What an image makes of the layout -/

/-- An image is partial. -/
def isPartial (i : Image) : Bool := bitOf i.flags 0
/-- An image is FAST. -/
def isFastImage (i : Image) : Bool := bitOf i.flags 1

/-- The routes after an image. -/
def newRoutes (s : State) (i : Image) : Tbl Route :=
  let base : Tbl Route := if isPartial i then s.lay.active.routes else []
  (i.sections.routes.getD []).foldl (fun t r => r.2.zipIdx.foldl (fun t e =>
    if e.1 = ({} : Route) then tdel t (r.1 + e.2) else tset t (r.1 + e.2) e.1) t) base

/-- A section's new value: the image's, else the active one in a partial image and the default in a full one. -/
def pickSect {α : Type} (i : Image) (x : Option α) (active dflt : α) : α := x.getD (if isPartial i then active else dflt)

/-- The layout after an image (R64). -/
def newLayout (s : State) (i : Image) : Layout :=
  let a := s.lay.active
  let x := i.sections
  { partitions := pickSect i x.partitions a.partitions [], attic := pickSect i x.attic a.attic {}, sram := pickSect i x.sram a.sram {},
    store := pickSect i x.store a.store {}, bays := pickSect i x.bays a.bays [], clocks := pickSect i x.clocks a.clocks (List.replicate 24 0),
    regulators := pickSect i x.regulators a.regulators (List.replicate 48 {}), placement := pickSect i x.placement a.placement {},
    roles := pickSect i x.roles a.roles [], routes := newRoutes s i, builtin := false, serial := i.serial, composition := i.composition }

/-- The store of a stack after an image: `none` is the built-in one. -/
def newStore (s : State) (i : Image) (k : Nat) : Option NbuStoreState :=
  match (i.sections.micro.getD []).find? fun m => bitOf m.stackMask k with
  | some m => some { code := m.code, entries := m.entries }
  | none => if isPartial i then tget? s.nbu.stores k else none

/-- Stacks whose store an image changes. -/
def changedStacks (s : State) (i : Image) : List Nat := (partStacks s.part).filter fun k => newStore s i k ≠ tget? s.nbu.stores k

/-- Bays that an image changes. -/
def changedBays (s : State) (i : Image) : List Nat :=
  let n := (newLayout s i).bays
  (List.range 6).filter fun b => n.getD b {} ≠ s.lay.active.bays.getD b {}

/-- Banks that an image clears: those its CAM_RULES names, or in a full image without the section every bank in use (R73). -/
def camBanks (s : State) (i : Image) : List Nat :=
  match i.sections.cam with
  | some l => (l.map (·.bank)).eraseDups
  | none => if isPartial i then [] else tkeys s.cam.banks

/-! ### Checks 5 to 7 -/

/-- The activities that a load needs (R83, R511). -/
def loadActivities (s : State) (i : Image) : List Activity :=
  let a := s.lay.active
  let n := newLayout s i
  (if n.attic ≠ a.attic || n.sram ≠ a.sram || n.clocks ≠ a.clocks then [{ no := 7, scope := [] }] else []) ++
    (if n.store ≠ a.store then [{ no := 3, scope := [scHalf 0] }, { no := 3, scope := [scHalf 1] }] else []) ++
    ((changedBays s i).map fun b => { no := 4, scope := [scBay b], target := b }) ++
    (if n.partitions ≠ a.partitions then [{ no := 6, scope := [] }] else []) ++
    (if (changedStacks s i).isEmpty then [] else [{ no := 8, scope := (changedStacks s i).map scStack }]) ++
    (if (camBanks s i).isEmpty then [] else [{ no := 6, scope := (camBanks s i).map scBank }])

/-- Two activities of one load that the matrix marks incompatible (R84). -/
def loadPair : List Activity → Bool
  | [] => false
  | a :: l => l.any (conflicts a) || loadPair l

/-- A partition change that a context in use forbids (R83). -/
def partitionsInUse (s : State) (n : List Partition) : Bool :=
  (List.range 16).any fun p =>
    let x := n.getD p {}
    let held := ctxsIn s p
    decide (0 < held) && (!x.enable || decide (x.maxContexts < held) ||
      (tvals s.sess.table).any fun z => !z.guest && ctxPart s (hCtx z.handle) = p && !bitOf x.classMask z.cls)

/-- A load would clear the capability bit of a unit in use (R55, R84). -/
def clearsCap (s : State) (n : Layout) : Bool :=
  let t := { s with lay := { s.lay with active := n } }
  let lost (b : Nat) : Bool := hasCap s b && !hasCap t b
  (lost 1 && !s.contexts.isEmpty) || (lost 13 && s.tier.objs.any fun o => (o.2.lower.elim false fun l => l.tier = 3))

/-- A section whose condition the state does not meet. -/
def sectInUse (s : State) (i : Image) : Bool :=
  let a := s.lay.active
  let n := newLayout s i
  (!s.contexts.isEmpty && (n.attic ≠ a.attic || n.sram ≠ a.sram || n.store ≠ a.store || n.clocks ≠ a.clocks)) ||
    (!isFastImage i && n.partitions ≠ a.partitions && partitionsInUse s n.partitions) || clearsCap s n

/-- Check 6: the reason it fails. -/
def maintBad (s : State) (i : Image) : Option Nat :=
  let acts := loadActivities s i
  if loadPair acts then some 0x0F
  else if acts.any fun a => (conflictWith s a).isSome then some 0x0E
  else if sectInUse s i then some 0x0D
  else none

/-- Check 7: the sums of R65, R66 and R68. -/
def overCapacity (x : Sections) : Bool :=
  let on := (x.partitions.getD []).filter (·.enable)
  let a := x.attic.getD {}
  let m := x.sram.getD { step := 0, embed := 0, map := 0, vocab := 0, desc := 0, queue := 0 }
  decide (1024 < sumOf (on.map (·.maxContexts))) || decide (1000 < sumOf (on.map (·.atticShare))) || decide (1000 < sumOf (on.map (·.stepShare))) ||
    decide (8192 < a.crateKib + a.slabKib + a.invKib + a.vsrKib + a.spareKib) || decide (256 < m.step + m.embed + m.map + m.vocab + m.desc + m.queue)

/-- Checks 5 to 7 of R77 at a load while the controller runs. -/
def lateBad (s : State) (i : Image) : Option Nat :=
  if isPartial i && i.baseSerial ≠ s.lay.active.serial then some 0x09
  else match maintBad s i with
    | some r => some r
    | none => if overCapacity i.sections then some 0x10 else none

/-! ### Applying the sections, ascending -/

/-- The ports of the bays that change go DOWN; the bays' registers follow the section (R69, R83). -/
def applyBays (s : State) (n : List Bay) (changed : List Nat) : State :=
  let s := changed.foldl (fun s b =>
    let s := ((List.range 8).map (8 * b + ·)).foldl lnkGoDown s
    [2 * b, 2 * b + 1].foldl ethGoDown s) s
  let s := { s with lay := { s.lay with active := { s.lay.active with bays := n } } }
  let hold (b : Bay) : Nat := (if b.holdMs = 0 then 2 else b.holdMs) * 1000000
  let s := (List.range (partLinks s.part)).foldl (fun s k =>
    let b := n.getD (k / 8) {}
    setFldAt (setFldAt s Reg.LNK_CTL.enable [k] (b2n (b.personality = 1 && bitOf b.linkMask (k % 8)))) Reg.LNK_HOLD.port_hold_ns [k] (hold b)) s
  (List.range 12).foldl (fun s k =>
    let b := n.getD (k / 2) {}
    if b.personality = 2 then setFldAt (setFldAt s Reg.ETH_CTL.enable [k] (b2n (bitOf b.linkMask (k % 2)))) Reg.ETH_HOLD.port_hold_ns [k] (hold b)
    else setFldAt s Reg.ETH_CTL.enable [k] 0) s

/-- Changed regulator entries start with an empty bucket (R71). -/
def applyRegulators (s : State) (n : List Regulator) : State :=
  let old := s.lay.active.regulators
  let s := { s with lay := { s.lay with active := { s.lay.active with regulators := n } } }
  (List.range 48).foldl (fun s k => if n.getD k {} ≠ old.getD k {} then setBucket s (k / 3) (k % 3) 0 else s) s

/-- A new role table takes effect (R74, R75, R479, R494). -/
def applyRoles (s : State) (n : List Role) : State :=
  let old := s.lay.active.roles
  let s := { s with lay := { s.lay with active := { s.lay.active with roles := n } } }
  let gone := old.filter fun r => !n.contains r
  let s := (gone.filter (·.kind = 2)).foldl (fun s r =>
    (s.mir.links.filter (·.dev = r.device)).foldl (fun s l => dropMirror s l.handle l.home Status.staleRole.code) s) s
  let moved := (gone.filter fun r => r.kind = 4 && !n.any fun x => x.kind = 4 && x.key = r.key && x.device = r.device).map (·.key)
  let s := (moved.filter fun p => fldAt s Reg.RMA_POOL.valid [p] = 1 && p < 256).foldl poolLost s
  dlgReplaced (refreshPools s)

/-- The sections up to PLACEMENT. -/
def applyFirst (s : State) (i : Image) : State :=
  let n := newLayout s i
  let changed := changedBays s i
  let s := { s with lay := { s.lay with active := { s.lay.active with
                                                    partitions := n.partitions, attic := n.attic, sram := n.sram, store := n.store } } }
  let s := if i.sections.bays.isSome || !isPartial i then applyBays s n.bays changed else s
  let s := { s with lay := { s.lay with active := { s.lay.active with clocks := n.clocks } } }
  let s := applyRegulators s n.regulators
  { s with lay := { s.lay with active := { s.lay.active with placement := n.placement } } }

/-- CAM_RULES (R73, R385). -/
def applyCam (s : State) (i : Image) : State :=
  match i.sections.cam with
  | some l => camLoad s l
  | none =>
    let banks := camBanks s i
    if banks.isEmpty then s
    else banks.foldl (fun s b => setCamBank s b []) { s with cam := { s.cam with gen := wrapAdd 32 s.cam.gen 1 } }

/-- The outcome of an operation in LAY_STATUS. -/
def layStatus (s : State) (st : Status) (reason sect : Nat) : State :=
  let s := setFld (setFld (setFld s Reg.LAY_STATUS.code st.code) Reg.LAY_STATUS.reason reason) Reg.LAY_STATUS.sect sect
  setFld (bump s Reg.LAY_STATUS.count) Reg.LAY_STATUS.busy 0

/-- The digest chain takes an accepted image (R536). -/
def chainDigest (s : State) (d : Nat) : State :=
  let c := if s.lay.chain.isEmpty then List.replicate 48 0 else s.lay.chain
  measChanged { s with lay := { s.lay with chain := sha384 (c ++ beBytes 48 d) } } 4

/-- ROLES, ROUTES and the active serial. -/
def applyTail (s : State) (i : Image) : State :=
  let n := newLayout s i
  let s := if i.sections.micro.isSome then setFld s Reg.NBU_STORE.serial i.serial else s
  let s := applyRoles s n.roles
  relaunch { s with lay := { s.lay with active := { s.lay.active with routes := n.routes, serial := i.serial, composition := i.composition, builtin := false } } }

/-- A load is complete: the chain, LAYOUT_LOADED (R79, R536). -/
def loadDone (s : State) (i : Image) : State := report (chainDigest s i.digest) 0x0201 i.serial 0 [i.serial, 0, 0]

/-- The sections after MICROPROG, and the end of the load (R78). -/
def applyLast (s : State) (i : Image) : State := noteCap (layStatus (loadDone (applyTail (applyCam s i) i) i) .ok 0 0)

/-- The steps and admissions that a fast recomposition held go on (R86). -/
def resumeAll (s : State) (descs : List StepDesc) : State :=
  let s := unpause { s with steps := { s.steps with paused := false } }
  descs.foldl (fun s d => namingAll (d.entries.map (·.handle)) (fun s => takeDesc s d) s) s

/-- No thread of a stack's NBUs runs a job. -/
def stackIdle (s : State) (k : Nat) : Bool := !s.nbu.threads.any fun t => t.2.busy && t.1 / 4 / 1024 = k

/-- A stack takes its new store (R214). -/
def takeStore (s : State) (i : Image) (k : Nat) : State :=
  let stores := match newStore s i k with | some x => tset s.nbu.stores k x | none => tdel s.nbu.stores k
  measChanged { s with nbu := { s.nbu with stores := stores } } (5 + k)

/-- Apply an image that has passed its checks; a micro-program reload holds the later sections back (R78, R83). -/
def applyImage (s : State) (i : Image) : State :=
  let acts := (loadActivities s i).filter fun a => a.no = 3 || a.no = 4
  let left := changedStacks s i
  let s := acts.foldl startActivity (applyFirst s i)
  if left.isEmpty then applyLast s i
  else
    let s := (left.filter (stackIdle s)).foldl (fun s k => takeStore s i k) s
    let busy := left.filter fun k => !stackIdle s k
    if busy.isEmpty then applyLast (nbuKick s) i
    else
      let s := startActivity s { no := 8, scope := left.map scStack }
      { s with lay := { s.lay with tail := some i, reloads := [{ section_ := { stackMask := maskOf busy, entries := [], code := [] }, left := busy, serial := i.serial }] } }

/-- MICROPROG_RELOAD_DONE (R214): the NBUs of a stack have finished their jobs. -/
def reloadDone (s : State) (k : Nat) : State :=
  match s.lay.tail with
  | none => s
  | some i =>
    if !stackIdle s k || !s.lay.reloads.any fun r => r.left.contains k then s
    else
      let s := takeStore s i k
      let rs := (s.lay.reloads.map fun r => { r with left := r.left.filter (· ≠ k) }).filter fun r => !r.left.isEmpty
      let s := { s with lay := { s.lay with reloads := rs } }
      if !rs.isEmpty then nbuKick s
      else
        let s := { s with lay := { s.lay with tail := none } }
        let s := match s.maint.running.find? (·.no = 8) with | some a => endActivity s 8 a.scope | none => s
        nbuKick (applyLast s i)

/-! ### The operations of LAY_CTRL -/

/-- An operation is refused (R79). -/
def layRefused (s : State) (serial : Nat) (e : ImgBad) : State :=
  let st := reasonStatus e.reason
  layStatus (report s 0x0202 serial 0 [serial, st.code, e.reason]) st e.reason e.sect

/-- Steps that a fast recomposition waits for: started and not sealed (R86). -/
def unsealedSteps (s : State) : List Nat := (s.steps.parts.filter fun p => p.entries.any fun e => liveEntry e && e.started && !e.killed).map (·.stepRef)

/-- Apply the image of a fast recomposition, and go on. -/
def fastApply (s : State) : State :=
  match s.lay.fast with
  | none => s
  | some f => resumeAll (applyImage { s with lay := { s.lay with fast := none } } f.image) f.descs

/-- Steps still unsealed are killed and run again, or end with PREEMPTED under NO_RERUN (R86). -/
def fastKill (s : State) : State :=
  (unsealedSteps s).foldl (fun s ref => match partOf s ref with
    | some p => if isHome s p then homeAbort s ref .preempted 0 (!p.noRerun) else killPart s ref .preempted 0
    | none => s) s

/-- The image that the window holds: `img` cut or padded with zeros to LAY_SRC.length. -/
def stagedImage (s : State) (img : List Nat) : List Nat :=
  let n := fld s Reg.LAY_SRC.length
  let b := (img.take n).map (· % 256)
  b ++ List.replicate (n - b.length) 0

/-- Start an operation: ignored with overrun while one runs (R79); copied is set (R82). -/
def layStart (s : State) (op : Nat) (f : State → State) : State :=
  let s := setFld s Reg.LAY_CTRL.op op
  if fld s Reg.LAY_STATUS.busy = 1 then setFld s Reg.LAY_STATUS.overrun 1
  else f (setFld (setFld s Reg.LAY_STATUS.busy 1) Reg.LAY_STATUS.copied 1)

/-- Check the staged image: misplaced windows, then R77. -/
def stagedRead (s : State) (img : List Nat) : Except ImgBad Image :=
  if fld s Reg.LAY_SRC.offset % 8 ≠ 0 || 8388608 < fld s Reg.LAY_SRC.length then .error ⟨0x05, 0⟩
  else readImage s (stagedImage s img) false

/-- LAY_CTRL op 1. -/
def layLoad (s : State) (img : List Nat) : State :=
  match stagedRead s img with
  | .error e => layRefused s (leAt img 20 4) e
  | .ok i =>
    match lateBad s i with
    | some r => layRefused s i.serial ⟨r, 0⟩
    | none =>
      if isFastImage i then
        let s := { s with lay := { s.lay with fast := some { image := i } }, steps := { s.steps with paused := true } }
        if (unsealedSteps s).isEmpty then fastApply s else s
      else applyImage s i

/-- LAY_CTRL op 2: the slot that is not active takes the image (R81). -/
def layProgram (s : State) (img : List Nat) : State :=
  match stagedRead s img with
  | .error e => layRefused s (leAt img 20 4) e
  | .ok i =>
    let toB := decide (fld s Reg.LAY_SPI.active_slot = 0)
    let s := { s with lay := if toB then { s.lay with slotB := some i } else { s.lay with slotA := some i } }
    let s := setFld s Reg.LAY_SPI.slot_valid (putBit (fld s Reg.LAY_SPI.slot_valid) (b2n toB) true)
    layStatus (report s 0x0201 i.serial 0 [i.serial, 0, 0]) .ok 0 0

/-- LAY_LOAD (R77): LAY_CTRL with go and op 1; `img` is what the BAR4 window holds at LAY_SRC. -/
def execLayLoad (img : List Nat) (s : State) : Host.Outcome State Fault Refusal :=
  run s (hostActL fun s => layStart s 1 fun s => layLoad s img)

/-- LAY_PROGRAM_SLOT (R81): LAY_CTRL with go and op 2. -/
def execLayProgramSlot (img : List Nat) (s : State) : Host.Outcome State Fault Refusal :=
  run s (hostActL fun s => layStart s 2 fun s => layProgram s img)

/-- FAST_RECOMP_QUIESCE_EXPIRY (R86). -/
def execFastRecompQuiesceExpiry (s : State) : Host.Outcome State Fault Refusal :=
  run s (actU fun s => if s.lay.fast.isSome then fastApply (fastKill s) else s)

/-- MICROPROG_RELOAD_DONE (R214): of a stack. -/
def execMicroprogReloadDone (stack : Nat) (s : State) : Host.Outcome State Fault Refusal :=
  run s (actU fun s => reloadDone s stack)

end Sys2Proof.Machine
end

