-- ==== Sys2Proof/Machine/RegRead.lean ====
section
/-! DEFINITION. What the registers read: the read-only fields that follow from the state (R567), frozen blocks (R571), the
attestation values (R535 to R537). -/
namespace Sys2Proof.Machine

/-! ### Attestation values (R535 to R537) -/

/-- The 1,024 words of a loaded store (R536). -/
def storeWords (x : NbuStoreState) : List Nat := (List.range 1024).map fun i => x.code.getD i 0

/-- The digest of a stack's micro-program store. -/
def storeDigest (s : State) (k : Nat) : List Nat :=
  if !(partStacks s.part).contains k then List.replicate 48 0
  else match tget? s.nbu.stores k with
    | some x => sha384 (((List.range 8).map fun i => leBytes 2 (x.entries.getD i 0xFFFF)).flatten ++ ((storeWords x).map (leBytes 8)).flatten)
    | none => Config.builtinDigest.take 48

/-- The digest that a table slot reports: 48 zero bytes where it is empty. -/
def slotDigest (s : State) (i : Nat) : List Nat :=
  match tget? s.tok.slots i with | some t => beBytes 48 t.digest | none => List.replicate 48 0

/-- Image key slots enrolled: slot 0 always (R521). -/
def enrolledMask (s : State) : Nat := maskOf (0 :: tkeys s.sec.slots)
/-- Image key slots revoked. -/
def revokedMask (s : State) : Nat := maskOf s.sec.revoked

/-- The security state block (R537). -/
def securityState (s : State) : List Nat :=
  [maskOf s.sec.sticky, b2n s.sec.lockdown, enrolledMask s % 16 + revokedMask s % 16 * 16, maskOf (tkeys s.sec.dk) + maskOf (tkeys s.sec.lmk) * 16,
    maskOf (tkeys s.sec.trunk), 0, 0, 0] ++ leBytes 8 s.sec.measGen

/-- The value of a measurement block (R535). -/
def measurement (s : State) (i : Nat) : List Nat :=
  if i = 1 then (Config.codeDigest false).take 48
  else if i = 2 then (Config.codeDigest true).take 48
  else if i = 3 then leBytes 4 Config.firmware.2
  else if i = 4 then (if s.lay.chain.isEmpty then List.replicate 48 0 else s.lay.chain)
  else if i ≤ 10 then storeDigest s (i - 5)
  else if i ≤ 26 then slotDigest s (i - 11)
  else if i = 27 then securityState s
  else []

/-! ### Read-only fields, block by block -/

/-- The number of an absent value is 0. -/
def lenOf {α : Type} (l : List α) : Nat := l.length

/-- The value a field table gives a field. -/
def pick (f : Field) (l : List (Field × Nat)) : Option Nat := (l.find? fun x => decide (x.1 = f)).map (·.2)

/-- Clock of a PLL as the CLOCKS section and the STORE_ROOM rate set it, in MHz (R554, R555). -/
def pllSet (s : State) (n : Nat) : Nat :=
  if 24 ≤ n then 0
  else if n = 15 || n = 16 then s.lay.active.store.rate / 4
  else clockMhz s n (nominalMhz n)

/-- Coast frequency of a PLL in MHz; 0 where none applies (R554). -/
def pllCoast (n : Nat) : Nat :=
  if n < 6 then 400 else if n < 8 then 800 else if n = 8 then 1050 else if n < 15 then 625 else if n < 17 then 0 else if n = 17 then 500
  else if n = 18 then 660 else if n = 19 then 750 else if n < 22 then 400 else if n = 22 then 50 else if n = 23 then 500 else 0

/-- A PLL. -/
def pllOf (s : State) (n : Nat) : Pll := tget {} s.clk.plls n
/-- A reference monitor. -/
def refOf (s : State) (r : Nat) : RefMon := tget {} s.clk.refs r

/-- Throttled clock of an attic or dense island: lowered by sixteenths of nominal down to its floor (R609). -/
def throttled (s : State) (n mhz : Nat) : Nat :=
  let k := tget 0 s.clk.throttle n
  if n < 6 then Nat.max 400 (mhz - k * 50) else if n < 8 then Nat.max 800 (mhz - k * 100) else mhz

/-- The frequency of a PLL's output as measured in the last window; the frequency it was last set to where no window has run. -/
def pllMeasured (s : State) (n : Nat) : Nat :=
  match (pllOf s n).measured with
  | some m => m
  | none => throttled s n (pllSet s n)

/-- CLK_ (R553 to R562). -/
def roClk (s : State) (f : Field) (i : Nat) : Option Nat :=
  let r := refOf s i
  let p := pllOf s i
  pick f [(Reg.CLK_START.start_count, s.startCount), (Reg.CLK_MON.osc_ok, b2n s.clk.oscOk), (Reg.CLK_REF.stable, b2n r.stable),
    (Reg.CLK_PLL.set_mhz, pllSet s i), (Reg.CLK_PLL.state, (match p.state with | .off => 0 | .locking => 1 | .locked => 2 | .coasting => 3)),
    (Reg.CLK_PLL.coast_mhz, pllCoast i), (Reg.CLK_PLL.measured_mhz, pllMeasured s i), (Reg.CLK_PLL.relocks, p.relocks)]

/-- PCI device ID of a part. -/
def pciDevice : Part → Nat
  | .rb4816 => 0x4816 | .rb4812 => 0x4812 | .rb4808 => 0x4808

/-- The lowest of some clocks, 0 where there is none. -/
def lowest (l : List Nat) : Nat := (minBy id l).getD 0

/-- Halves whose dense island is populated. -/
def denseHalves (s : State) : List Nat := (List.range 2).filter fun h => (partTiles s.part).any fun t => tileHalf t = h

/-- TOP_ registers that name no ring. -/
def roTop (s : State) (f : Field) : Option Nat :=
  let a := s.lay.active
  let bays (k : Nat) : Nat := maskOf ((List.range (partBays s.part)).filter fun b => (a.bays.getD b {}).personality = k)
  let tiles := (usableTiles s).length
  pick f [(Reg.TOP_ID.pci_device, pciDevice s.part), (Reg.TOP_ID.pci_vendor, Config.pciVendor),
    (Reg.TOP_ID.part, (match s.part with | .rb4816 => 1 | .rb4812 => 2 | .rb4808 => 3)), (Reg.TOP_ID.stepping, s.stepping),
    (Reg.TOP_FW.version, Config.firmware.1), (Reg.TOP_FW.svn, Config.firmware.2), (Reg.TOP_CAP_CONTRACT.cap, capWord s),
    (Reg.TOP_DEVICE.device, s.device), (Reg.TOP_DEVICE.start_count, s.startCount), (Reg.TOP_CAP_ATTIC.populated, maskOf (partStacks s.part)),
    (Reg.TOP_CAP_ATTIC.enabled, maskOf (liveStacks s)), (Reg.TOP_CAP_DENSE.populated, maskOf (partTiles s.part)),
    (Reg.TOP_CAP_DENSE.usable, maskOf (usableTiles s)), (Reg.TOP_CAP_LINKS.populated, 2 ^ partLinks s.part - 1),
    (Reg.TOP_CAP_LINKS.native, bays 1), (Reg.TOP_CAP_LINKS.ethernet, bays 2), (Reg.TOP_CAP_MEM.populated, 2 ^ partChannels s.part - 1),
    (Reg.TOP_CAP_MEM.enabled, a.store.chanMask), (Reg.TOP_CAP_MEM.gib, memGib s), (Reg.TOP_CAP_LIMITS.shelves, shelves s), (Reg.TOP_CAP_LIMITS.sessions, sessionLimit s),
    (Reg.TOP_CAP_SCALE.ring_pairs, 1024), (Reg.TOP_CAP_SCALE.out_rings, 1024), (Reg.TOP_CAP_SCALE.contexts, 1024),
    (Reg.TOP_CAP_SCALE.tallies, 4096), (Reg.TOP_CAP_SCALE.semaphores, 4096), (Reg.TOP_CAP_ENVELOPE.nbus, bankPairs s),
    (Reg.TOP_CAP_ENVELOPE.tiles, tiles), (Reg.TOP_CAP_ENVELOPE.attic_mhz, lowest ((liveStacks s).map (pllSet s))),
    (Reg.TOP_CAP_ENVELOPE.dense_mhz, lowest ((denseHalves s).map fun h => pllSet s (6 + h))), (Reg.TOP_INT_CFG.vectors, 2048),
    (Reg.TOP_SNAP_CTL.frozen, b2n s.host.frozen.isSome), (Reg.TOP_TIMEBASE.timebase, s.timebase % 2 ^ 64)]

/-- TOP_ registers of the rings. -/
def roRing (s : State) (f : Field) (i : Nat) : Option Nat :=
  let r := ringOf s i
  let o := oringOf s i
  let e := s.host.evtRing
  pick f [(Reg.TOP_RING_CFG.idle, b2n (r.outstanding = 0)), (Reg.TOP_RING_CFG.fault, b2n r.fault), (Reg.TOP_RING_CFG.phase, b2n r.phase),
    (Reg.TOP_RING_STATE.sq_head, r.sqHead), (Reg.TOP_RING_STATE.sq_tail, r.sqTail), (Reg.TOP_RING_STATE.cq_tail, r.cqTail),
    (Reg.TOP_RING_STATE.outstanding, Nat.min r.outstanding 0xFFFF), (Reg.TOP_ORING_CFG.fault, b2n o.fault),
    (Reg.TOP_ORING_CFG.phase, b2n o.phase), (Reg.TOP_ORING_STATE.tail, o.tail), (Reg.TOP_ORING_STATE.head, o.head),
    (Reg.TOP_ORING_STATE.posted, o.posted), (Reg.TOP_EVT_CFG.kind, 2), (Reg.TOP_EVT_CFG.fault, b2n e.fault),
    (Reg.TOP_EVT_CFG.phase, b2n e.phase), (Reg.TOP_EVT_STATE.tail, e.tail), (Reg.TOP_EVT_STATE.head, e.head),
    (Reg.TOP_EVT_STATE.posted, e.posted)]

/-- Entries of a queue of both Ladder engines. -/
def ladderDepth (s : State) (qs : List Nat) : Nat := sumOf (qs.map fun q => (queueOf s 0 q).length + (queueOf s 1 q).length)

/-- Blocks 0x02 to 0x04. -/
def roStore (s : State) (f : Field) : Option Nat :=
  let nv := s.tier.targets.filter fun t => !t.remote
  pick f [(Reg.LAY_ACTIVE.serial, s.lay.active.serial), (Reg.LAY_ACTIVE.composition, s.lay.active.composition),
    (Reg.LAY_SPI.builtin, b2n s.lay.active.builtin), (Reg.SES_COUNT.shelves_used, shelvesUsed s), (Reg.SES_COUNT.spilled, spilledCount s),
    (Reg.SES_SPILL.limit, sessionLimit s), (Reg.LAD_QDEPTH.demand, ladderDepth s [0, 2, 3, 5]), (Reg.LAD_QDEPTH.prefetch, ladderDepth s [4]),
    (Reg.LAD_QDEPTH.sink, ladderDepth s [1, 7]), (Reg.LAD_QDEPTH.writeback, ladderDepth s [6]), (Reg.CRT_POOL.attic_free, atticFree s),
    (Reg.CRT_POOL.store_free, storeUnits s - storeUsed s),
    (Reg.CRT_CELLAR.nvme_usable, maskOf ((nv.filter fun t => !t.lost && !t.faulty).map (·.number))),
    (Reg.CRT_CELLAR.nvme_faulty, maskOf ((nv.filter fun t => t.lost || t.faulty).map (·.number))),
    (Reg.CRT_CELLAR.remote_targets, ((usableTargets s).filter (·.remote)).length)]

/-- Queued tile commands of a class in both halves. -/
def denQueued (s : State) (c : Nat) : Nat := (tget [] s.den.queues c).length + (tget [] s.den.queues (4 + c)).length

/-- Blocks 0x05 to 0x07, without the command areas. -/
def roEngines (s : State) (f : Field) (i : Nat) : Option Nat :=
  pick f [(Reg.ATN_VISIT.visited, s.atn.visited / 1024), (Reg.ATN_VISIT.skipped, s.atn.skipped / 1024),
    (Reg.NBU_STORE.builtin, maskOf ((List.range 6).filter fun k => (tget? s.nbu.stores k).isNone)),
    (Reg.NBU_STATE.busy, maskOf ((List.range 4).filter fun t => (threadOf s i t).busy)), (Reg.NBU_STATE.ecc_corr, tget 0 s.nbu.eccCorr i),
    (Reg.NBU_STATE.store_crc, (match storeOf s i with | some x => crc32c ((storeWords x).map (leBytes 8)).flatten | none => Config.builtinCrc)),
    (Reg.DEN_TILES.present, maskOf (partTiles s.part)), (Reg.DEN_QDEPTH.c0, denQueued s 0), (Reg.DEN_QDEPTH.c1, denQueued s 1),
    (Reg.DEN_QDEPTH.c2, denQueued s 2), (Reg.DEN_QDEPTH.c3, denQueued s 3)]

/-- Parts with an entry of a kind. -/
def partsWith (s : State) (f : PartEntry → Bool) : Nat := (s.steps.parts.filter fun p => p.entries.any fun e => liveEntry e && f e).length

/-- Layers that the ledgers name. -/
def ledgerLayers (s : State) : List Nat := (((s.hatch.ledger.map (·.costs)).flatten).map (·.layer)).eraseDups

/-- Record capacity as INV_STAT reads: for the record size of the lowest-numbered context, or of a record without entries. -/
def recordTotal (s : State) : Nat :=
  match s.contexts with
  | c :: _ => capacityFor s 0 c.2.params
  | [] => recordCapacity s (recordSize 0 0)

/-- Blocks 0x08 to 0x0A. -/
def roSteps (s : State) (f : Field) (i : Nat) : Option Nat :=
  let ls := ledgerLayers s
  pick f [(Reg.STP_SEM.marked, (s.steps.sems.filter fun x => x.2.holder.isNone && x.2.mark.isSome).length),
    (Reg.STP_SPACE.shared_free, stepSharedFree s), (Reg.STP_SPACE.shared_size, stepShared s),
    (Reg.STP_PARTS.waiting, partsWith s fun e => !e.started && !e.prepared), (Reg.STP_PARTS.running, partsWith s fun e => e.started && !e.prepared),
    (Reg.STP_PARTS.prepared, partsWith s (·.prepared)), (Reg.STP_PARTS.behind, s.steps.behind.length),
    (Reg.STP_BUCKET.level, ofSigned 40 (bucketLevel s (i / 3) (i % 3))), (Reg.HAT_C0.tracked, s.hatch.track.length),
    (Reg.HAT_LOAD.nbu_max_ns, maxOf (ls.map (nbuTerm s []))), (Reg.HAT_LOAD.tile_max_ns, maxOf (ls.map fun l => (tileTerm s [] l).getD (2 ^ 32 - 1))),
    (Reg.INV_STAT.records_free, recordTotal s - s.inv.nodes.length), (Reg.INV_STAT.records_total, recordTotal s),
    (Reg.INV_COUNT.supplied, s.inv.suppliedTokens / 64)]

/-- Blocks 0x0B to 0x0D. -/
def roServices (s : State) (f : Field) (i : Nat) : Option Nat :=
  let t := tget? s.tok.slots i
  let v := tget? s.vsr.slots i
  let vx (g : VsrIndex → Nat) : Nat := v.elim 0 fun x => g x.index
  pick f [(Reg.TOK_COUNT.tokens, s.tok.tokCount / 1024), (Reg.TOK_SLOT.loaded, b2n t.isSome), (Reg.TOK_SLOT.shared, b2n (t.elim false (·.shared))),
    (Reg.TOK_SLOT.swapping, b2n (s.tok.swaps.any fun w => match w.target with | .load j _ => j = i | .free j => j = i | .bind _ _ => false)),
    (Reg.TOK_SLOT.owned, b2n (t.elim false (·.owner.isSome))), (Reg.TOK_SLOT.owner, t.elim 0 (·.owner.getD 0)),
    (Reg.TOK_SLOT.binders, (bindersOf s i).length), (Reg.TOK_SLOT.size, t.elim 0 (·.space)), (Reg.EMB_COUNT.hits, s.tok.hitCount / 256),
    (Reg.EMB_COUNT.misses, s.tok.missCount / 256), (Reg.CAM_BANK.client, camClient s i), (Reg.CAM_BANK.entries, (camBank s i).length),
    (Reg.CAM_BANK.shifting, b2n (camBusy s i)), (Reg.CAM_GEN.current, s.cam.gen), (Reg.CAM_GEN.oldest_held, camOldest s),
    (Reg.VSR_SLOT.loaded, b2n v.isSome), (Reg.VSR_SLOT.shared, b2n (v.elim false (·.shared))), (Reg.VSR_SLOT.damaged, b2n (v.elim false (·.damaged))),
    (Reg.VSR_SLOT.old_held, b2n (s.vsr.old.any (·.1 = i))), (Reg.VSR_SLOT.owner, v.elim 0 (·.owner)), (Reg.VSR_SLOT.index_id, vx (·.id)),
    (Reg.VSR_SLOT.shard, vx (·.shard)), (Reg.VSR_SLOT.pages, vx (·.pages))]

/-- Blocks 0x10 to 0x14. -/
def roLinks (s : State) (f : Field) (i : Nat) : Option Nat :=
  let l := lnkOf s i
  let e := ethOf s i
  let u := s.link
  let pool (k : Nat) : Nat := l.pools.getD k 0
  pick f [(Reg.LNK_STATUS.state, l.st.code), (Reg.LNK_STATUS.version, l.version), (Reg.LNK_STATUS.partner, l.partner),
    (Reg.LNK_STATUS.partner_kind, l.partnerKind), (Reg.LNK_STATUS.crypto, l.crypto), (Reg.LNK_STATUS.lanes_reversed, b2n l.reversed),
    (Reg.LNK_STATUS.link_epoch, l.epoch), (Reg.LNK_STATUS.fail_code, l.fail), (Reg.LNK_CREDIT.vc0, pool 0), (Reg.LNK_CREDIT.step, pool 1),
    (Reg.LNK_CREDIT.vc5, pool 2), (Reg.LNK_CREDIT.vc6, pool 3), (Reg.LNK_CREDIT.vc7, pool 4), (Reg.LNK_EXPRESS.suspended, b2n l.suspended),
    (Reg.LNK_EXPRESS.partner_suspended, b2n l.partnerSuspended), (Reg.LNK_TSYNC.parent_link, u.parent), (Reg.LNK_TSYNC.rank, u.rank),
    (Reg.LNK_TSYNC.err_ns, u.err), (Reg.LNK_TSYNC.locked, b2n (u.locked && !tbCoasts s)), (Reg.ETH_STATUS.state, e.st.code), (Reg.ETH_STATUS.port_epoch, e.epoch),
    (Reg.ETH_PTP.state, u.ptp.state)]

/-- Priorities of a port under PFC that meet a test. -/
def pfcMask (s : State) (p : Nat) (g : PfcPrio → Bool) : Nat := maskOf ((List.range 8).filter fun q => g (tget {} (ethOf s p).pfc q))

/-- Blocks 0x15 and 0x16. -/
def roMemory (s : State) (f : Field) (i : Nat) : Option Nat :=
  let e := tget? s.mir.lost i
  let unsynced := (tvals s.mir.shadows).filter fun x => x.roles.any (!·.synced)
  pick f [(Reg.RMA_PFC.paused, pfcMask s i (·.paused)), (Reg.RMA_PFC.storm, pfcMask s i (·.storm)),
    (Reg.RMA_SPILL.spilled, (s.rma.conns.filter fun x => match x.2.place with | .spilled _ => true | .fetching _ => true | _ => false).length),
    (Reg.RMA_PD.generation, pdGen s i), (Reg.RMA_PD.valid, b2n (pdValid s i)), (Reg.RMA_POOL.lost, b2n (s.rma.lostPools.contains i)),
    (Reg.EVT_CFG.used, s.events.agg.length), (Reg.MNT_ACTIVE.running, activityBits s.maint.running), (Reg.MNT_ACTIVE.waiting, activityBits s.maint.waiting),
    (Reg.CKP_MIR_STAT.shadows, s.mir.shadows.length), (Reg.CKP_MIR_STAT.unsynced, unsynced.length), (Reg.CKP_LOST.device, e.elim 0 (·.device)),
    (Reg.CKP_LOST.valid, b2n e.isSome), (Reg.CKP_LOST.time_us, e.elim 0 (·.timeUs))]

/-- ROM Criti runs instead of full Criti (R614): while a warm boot is under way, or where the firmware failed verification. -/
def romForm (s : State) : Bool := s.clk.phase = .warm || s.clk.phase = .rom

/-- Blocks 0x17 and 0x18. -/
def roSecurity (s : State) (f : Field) (i : Nat) : Option Nat :=
  let c := tget? s.contexts i
  let d := s.dbg
  pick f [(Reg.SEC_STATE.dk, maskOf (tkeys s.sec.dk)), (Reg.SEC_STATE.lmk, maskOf (tkeys s.sec.lmk)), (Reg.SEC_STATE.trunk, maskOf (tkeys s.sec.trunk)),
    (Reg.SEC_STATE.enrolled, enrolledMask s), (Reg.SEC_STATE.revoked, revokedMask s), (Reg.SEC_STATE.sticky, maskOf s.sec.sticky),
    (Reg.SEC_STATE.lockdown, b2n s.sec.lockdown), (Reg.SEC_STATE.sessions, s.sec.spdm.sessions.length), (Reg.SEC_STATE.meas_gen, s.sec.measGen),
    (Reg.SEC_VDM_ID.vendor, Config.vdmVendor), (Reg.SEC_CTX.key_id, c.elim 0 (·.keyId)), (Reg.SEC_CTX.valid, b2n c.isSome),
    (Reg.SEC_CTX.dk_index, c.elim 0 (·.dkIndex)), (Reg.MON_STATUS.rom, b2n (romForm s)), (Reg.MON_STATUS.priv, b2n d.priv),
    (Reg.MON_STATUS.commands, d.commands), (Reg.DBG_STATUS.level, d.level), (Reg.DBG_STATUS.slot, d.slot), (Reg.DBG_STATUS.halted, maskOf d.halted),
    (Reg.DBG_STATUS.scan_active, b2n d.scan.isSome)]

/-- A field that the controller maintains: its value where the state gives it, by the block that holds it. -/
def roField (s : State) (f : Field) (is : List Nat) : Option Nat :=
  let i := is.getD 0 0
  let b := f.addr / 2 ^ 20
  if b = 0 then (if f.addr < 0x300 then roTop s f else roRing s f i)
  else if b = 1 then roClk s f i
  else if b ≤ 4 then roStore s f
  else if b ≤ 7 then roEngines s f i
  else if b ≤ 0x0A then roSteps s f i
  else if b ≤ 0x0D then roServices s f i
  else if b ≤ 0x14 then roLinks s f i
  else if b ≤ 0x16 then roMemory s f i
  else if b < 0x20 then roSecurity s f i
  else roEngines s f i

/-! ### Reading a register (R565 to R571) -/

/-- A field's live value as a read returns it: write-only fields and actions read 0. -/
def liveField (s : State) (f : Field) (is : List Nat) : Nat :=
  match f.ty with
  | .wo => 0
  | _ => (match roField s f is with | some v => v | none => fldAt s f is) % 2 ^ f.width

/-- The block that holds a register, by its own number (R573). -/
def blockOf (off : Nat) : Nat :=
  let b := off / 2 ^ 20
  if 0x10 ≤ b && b ≤ 0x13 then 0x10 else if 0x18 ≤ b && b ≤ 0x1F then 0x18 else b

/-- A field as it reads: frozen where its block is (R571). -/
def readField (s : State) (f : Field) (is : List Nat) : Nat :=
  match s.host.frozen with
  | some z => if f.ty = .ro && blockOf f.addr = z.block then (tget? z.values (keyOf f is)).getD f.reset else liveField s f is
  | none => liveField s f is

/-- The fields of the register at an 8-byte aligned offset, each with its index. -/
def fieldsAt (off : Nat) : List (Field × List Nat) := regFields.filterMap fun f => (fieldIndex f off).map fun is => (f, is)

/-- An offset lies in a command area that holds words 0 to 15 of a thread (R205, R206). -/
def inCommandArea (off : Nat) : Bool := decide (0x2000000 ≤ off) && decide (off < 0x3800000) && decide (off % 0x1000 < 0x200)

/-- A register lies at an 8-byte aligned offset. -/
def registerAt (off : Nat) : Bool := inCommandArea off || !(fieldsAt off).isEmpty

/-- The NBU, thread and word of a command area offset. -/
def areaPlace (off : Nat) : Nat × Nat × Nat := ((off - 0x2000000) / 0x1000, off % 0x200 / 0x80, off % 0x80 / 8)

/-- The unit whose register lies at an offset is on the part (R6). -/
def unitAt (p : Part) (off : Nat) : Bool :=
  let b := off / 2 ^ 20
  if b = 7 then !(partTiles p).isEmpty
  else if b = 0x0D then partWalker p
  else if 0x10 ≤ b && b < 0x13 then portPresent p ((off - 0x1000000) / 0x10000)
  else if b = 0x14 && off < 0x140C000 then portPresent p (48 + (off - 0x1400000) / 0x1000)
  else if 0x20 ≤ b && b < 0x38 then (partStacks p).contains ((off - 0x2000000) / 0x400000)
  else true

/-- The whole value of the register at an 8-byte aligned offset (R569): 0 where its unit is absent (R6). -/
def readReg (s : State) (off : Nat) : Nat :=
  if !unitAt s.part off then 0
  else if inCommandArea off then
    let (n, t, w) := areaPlace off
    if nbuPresent s n then readArea s n t w else 0
  else (fieldsAt off).foldl (fun v x => v + readField s x.1 x.2 * 2 ^ x.1.lo) 0

end Sys2Proof.Machine
end

