-- ==== Sys2Proof/Machine/Security.lean ====
section
/-! DEFINITION. Lockdown (R520), key provisioning (R522 to R525), SPDM (R534, R535). -/
namespace Sys2Proof.Machine

/-! ### Lockdown (R520, R619) -/

/-- Close Criti's privileged mode and a level-2 grant (R619). -/
def revokeDebug (s : State) : State :=
  let d := { s.dbg with priv := false }
  { s with dbg := if d.level = 2 then { d with level := 0, slot := 0 } else d }

/-- Start lockdown: the parts with slots in the staging area finish first. -/
def startLockdown (s : State) : State :=
  if flag s Reg.SEC_CFG.lockdown then s
  else
    let s := setFld (setFld (setFld s Reg.SEC_CFG.lockdown 1) Reg.NBU_CTL.host_jobs 0) Reg.DEN_CFG.host_cmds 0
    let parts := (s.steps.parts.filter fun p => p.entries.any fun e => decide (0 < e.ownKib + e.sharedKib)).map (·.stepRef)
    let s := revokeDebug s
    lockSettle { s with sec := { s.sec with lockWait := some (parts.filter Config.inStaging) } }

/-- A write of SEC_CFG. -/
def secCfgWrite (s : State) (w : RegWrite) : State :=
  let s := storeFields s w [] [Reg.SEC_CFG.meas_evt, Reg.SEC_CFG.trunk_index]
  if wget w Reg.SEC_CFG.lockdown = some 1 then startLockdown s else s

/-- LOCKDOWN (R520): a write of SEC_CFG. -/
def execLockdown (w : RegWrite) (s : State) : Host.Outcome State Fault Refusal :=
  run s (hostAccess fun s => settleAll (secCfgWrite (dropShadow s) w))

/-! ### Key provisioning (R522 to R524) -/

/-- An SPDM session whose setup has completed. -/
def secureSession (s : State) (n : Option Nat) : Bool :=
  match n with
  | some n => s.sec.spdm.sessions.any fun x => x.id = n && x.secure
  | none => false

/-- Answer a provisioning request. -/
def vendorAnswer (s : State) (n : Option Nat) (op : Nat) (st : Status) : State := emit s (.spdm n (.vendor op st))

/-- A provisioning op has taken effect on both islands: KEY_CHANGED, the security state's measurement, the answer (R523, R538). -/
def keyChanged (s : State) (n : Option Nat) (op index : Nat) : State :=
  vendorAnswer (measChanged (report s 0x1701 index 0 [op, index]) 27) n op .ok

/-- Ops 1 to 4: refused outside a secure session, then by their own rule. -/
def keyOp (s : State) (n : Option Nat) (op index : Nat) (ok : Bool) (f : SecUnit → SecUnit) : State :=
  if !secureSession s n then vendorAnswer s n op .protection
  else if !ok then vendorAnswer s n op .versionMismatch
  else keyChanged { s with sec := f s.sec } n op index

/-- SET_DOMAIN_KEY (R522). -/
def execSetDomainKey (session : Option Nat) (index : Nat) (key : List Nat) (s : State) : Host.Outcome State Fault Refusal :=
  run s (whenLive fun s => keyOp s session 1 index (decide (index ≤ 1) && key.length = 32) fun u => { u with dk := tset u.dk index (key.map (· % 256)) })

/-- SET_LINK_KEY (R522). -/
def execSetLinkKey (session : Option Nat) (index : Nat) (key : List Nat) (s : State) : Host.Outcome State Fault Refusal :=
  run s (whenLive fun s => keyOp s session 2 index (decide (index ≤ 3) && key.length = 32) fun u => { u with lmk := tset u.lmk index (key.map (· % 256)) })

/-- SET_TRUNK_KEY (R522): the scalar d lies in [1, n − 1]. -/
def execSetTrunkKey (session : Option Nat) (index d : Nat) (s : State) : Host.Outcome State Fault Refusal :=
  run s (whenLive fun s => keyOp s session 3 index (decide (index ≤ 3) && decide (1 ≤ d) && decide (d < n384)) fun u => { u with trunk := tset u.trunk index d })

/-- The key that CLEAR_KEY names: kind 0 DK, 1 LMK, 2 trunk. -/
def clearKey (u : SecUnit) (kind index : Nat) : SecUnit :=
  if kind = 0 then { u with dk := tdel u.dk index } else if kind = 1 then { u with lmk := tdel u.lmk index } else { u with trunk := tdel u.trunk index }

/-- CLEAR_KEY (R522): the index byte holds index in [1:0] and kind in [7:6]. -/
def execClearKey (session : Option Nat) (byte : Nat) (s : State) : Host.Outcome State Fault Refusal :=
  run s (whenLive fun s =>
    let kind := bitsOf byte 6 2
    let index := bitsOf byte 0 2
    keyOp s session 4 (byte % 256) (decide (kind ≤ 2) && bitsOf byte 2 4 = 0 && (kind ≠ 0 || decide (index ≤ 1))) fun u => clearKey u kind index)

/-- A slot authorises: enrolled and not revoked. -/
def slotLive (s : State) (a : Nat) : Bool := (slotKey s a).isSome

/-- An authorising slot's signature over a message verifies. -/
def slotSigned (s : State) (a : Nat) (msg : List Nat) (r t : Nat) : Bool :=
  match slotKey s a with | some q => ecdsaVerify q (sha384n msg) r t | none => false

/-- ENROLL_SLOT (R524): slot k, public key x ‖ y, authorising slot, signature r ‖ t. -/
def execEnrollSlot (session : Option Nat) (k x y a r t : Nat) (s : State) : Host.Outcome State Fault Refusal :=
  run s (whenLive fun s =>
    let msg := "SYEN".toList.map (·.toNat) ++ [k % 256] ++ beBytes 48 x ++ beBytes 48 y
    let who : Bool := if k = 1 then a = 0 else decide (a < k) && slotLive s a
    if 1 ≤ k && k ≤ 3 && (tget? s.sec.slots k).isNone && who && slotSigned s a msg r t then
      keyChanged (report { s with sec := { s.sec with slots := tset s.sec.slots k (x, y) } } 0x1705 k 0 [k]) session 5 k
    else vendorAnswer s session 5 .protection)

/-- REVOKE_SLOT (R524): slot k under slot 0, or under another enrolled, unrevoked slot. -/
def execRevokeSlot (session : Option Nat) (k a r t : Nat) (s : State) : Host.Outcome State Fault Refusal :=
  run s (whenLive fun s =>
    let msg := "SYRV".toList.map (·.toNat) ++ [k % 256]
    if 1 ≤ k && k ≤ 3 && !s.sec.revoked.contains k && a ≠ k && slotLive s a && slotSigned s a msg r t then
      keyChanged (report { s with sec := { s.sec with revoked := insertBy (fun a b => decide (a < b)) k s.sec.revoked } } 0x1706 k 0 [k]) session 6 k
    else vendorAnswer s session 6 .protection)

/-! ### SPDM (R534, R535) -/

/-- Update the responder. -/
def modSpdm (s : State) (f : Spdm → Spdm) : State := { s with sec := { s.sec with spdm := f s.sec.spdm } }

/-- Answer a request. -/
def spdmAnswer (s : State) (n : Option Nat) (r : SpdmRsp) : State := emit s (.spdm n r)

/-- SPDM error codes of DSP0274 (PRESUMED): invalid request, invalid session, unexpected request, decrypt error, session limit,
version mismatch. -/
def spdmInvalid : Nat := 0x01
/-- No such session. -/
def spdmNoSession : Nat := 0x02
/-- A request out of order. -/
def spdmUnexpected : Nat := 0x04
/-- A message authentication code that does not verify. -/
def spdmDecrypt : Nat := 0x06
/-- No session is free. -/
def spdmLimit : Nat := 0x0A
/-- A version that is not supported. -/
def spdmVersion : Nat := 0x41

/-- A request that needs algorithms to have been negotiated. -/
def afterNegotiation (n : Option Nat) (f : State → State) (s : State) : State :=
  if s.sec.spdm.algorithms then f s else spdmAnswer s n (.error spdmUnexpected)

/-- A request inside a secure session. -/
def inSession (n : Nat) (f : State → State) : State → State :=
  afterNegotiation (some n) fun s => if secureSession s (some n) then f s else spdmAnswer s (some n) (.error spdmNoSession)

/-- GET_VERSION (R534): the responder starts afresh; open sessions end (PRESUMED, DSP0274). -/
def execGetVersion (s : State) : Host.Outcome State Fault Refusal :=
  run s (whenLive fun s =>
    spdmAnswer (modSpdm s fun p => { p with asked := true, version := none, algorithms := false, sessions := [] }) none (.version [0x1200, 0x1300]))

/-- GET_CAPABILITIES (R534): the version that the request carries is the one agreed. -/
def execGetCapabilities (version : Nat) (s : State) : Host.Outcome State Fault Refusal :=
  run s (whenLive fun s =>
    if !s.sec.spdm.asked then spdmAnswer s none (.error spdmUnexpected)
    else if version ≠ 0x12 && version ≠ 0x13 then spdmAnswer s none (.error spdmVersion)
    else spdmAnswer (modSpdm s fun p => { p with version := some version, algorithms := false }) none (.capabilities version))

/-- NEGOTIATE_ALGORITHMS (R534): whether the requester offers ECDSA P-384, SHA-384, secp384r1 and AES-256-GCM. -/
def execNegotiateAlgorithms (ecdsa sha dhe aead : Bool) (s : State) : Host.Outcome State Fault Refusal :=
  run s (whenLive fun s =>
    if s.sec.spdm.version.isNone then spdmAnswer s none (.error spdmUnexpected)
    else if !(ecdsa && sha && dhe && aead) then spdmAnswer s none (.error spdmInvalid)
    else spdmAnswer (modSpdm s fun p => { p with algorithms := true }) none .algorithms)

/-- The digest of the slot 0 chain. -/
def chainHash : List Nat := sha384 Config.certChain

/-- GET_DIGESTS (R534). -/
def execGetDigests (session : Option Nat) (s : State) : Host.Outcome State Fault Refusal :=
  run s (whenLive (afterNegotiation session fun s => spdmAnswer s session (.digests 0 chainHash)))

/-- GET_CERTIFICATE (R534): a portion of the slot 0 chain. -/
def execGetCertificate (session : Option Nat) (slot offset length : Nat) (s : State) : Host.Outcome State Fault Refusal :=
  run s (whenLive (afterNegotiation session fun s =>
    let c := Config.certChain
    if slot ≠ 0 || c.length ≤ offset then spdmAnswer s session (.error spdmInvalid)
    else
      let part := (c.drop offset).take length
      spdmAnswer s session (.certificate 0 part (c.length - offset - part.length))))

/-- A measurement block as a response carries it: index, DMTF type, value (R535). -/
def measBlock (s : State) (i : Nat) : Nat × Nat × List Nat :=
  let ty := if i = 1 then 0x00 else if i = 2 then 0x01 else if i = 3 then 0x87 else if i = 4 then 0x08 else if i ≤ 10 then 0x01 else if i ≤ 26 then 0x03 else 0x85
  (i, ty, measurement s i)

/-- The bytes of a block under the DMTF specification. -/
def measBytes (b : Nat × Nat × List Nat) : List Nat :=
  let n := b.2.2.length
  [b.1, 0x01] ++ leBytes 2 (n + 3) ++ [b.2.1] ++ leBytes 2 n ++ b.2.2

/-- The measurement summary of its kind: 0 none, 1 the trusted computing base, 0xFF every block. -/
def measSummary (s : State) (kind : Nat) : List Nat :=
  let all := (List.range 27).map fun i => measBlock s (i + 1)
  if kind = 0 then [] else sha384 (((if kind = 0xFF then all else all.filter fun b => Config.tcbBlock b.1).map measBytes).flatten)

/-- A fresh nonce. -/
def spdmNonce (s : State) : State × Nat := ({ s with link := { s.link with entropy := s.link.entropy + 1 } }, Config.fresh s.link.entropy % 2 ^ 256)

/-- A summary kind that SPDM defines. -/
def summaryOk (kind : Nat) : Bool := kind = 0 || kind = 1 || kind = 0xFF

/-- CHALLENGE (R534): answered signed under the device identity key. -/
def execChallenge (session : Option Nat) (slot kind : Nat) (s : State) : Host.Outcome State Fault Refusal :=
  run s (whenLive (afterNegotiation session fun s =>
    if slot ≠ 0 || !summaryOk kind then spdmAnswer s session (.error spdmInvalid)
    else
      let (s, n) := spdmNonce s
      spdmAnswer s session (.challengeAuth 0 chainHash (measSummary s kind) n)))

/-- GET_MEASUREMENTS (R535): 0 asks for the number of blocks, 0xFF for all, another index for one; all from one state (R538). -/
def execGetMeasurements (session : Option Nat) (index : Nat) (signed : Bool) (s : State) : Host.Outcome State Fault Refusal :=
  run s (whenLive (afterNegotiation session fun s =>
    if 27 < index && index ≠ 0xFF then spdmAnswer s session (.error spdmInvalid)
    else
      let (s, n) := spdmNonce s
      let l := if index = 0 then [] else if index = 0xFF then (List.range 27).map (· + 1) else [index]
      spdmAnswer s session (.measurements (if index = 0 then 27 else l.length) (l.map (measBlock s)) signed n)))

/-- KEY_EXCHANGE (R534): up to four sessions at once. -/
def execKeyExchange (slot kind : Nat) (s : State) : Host.Outcome State Fault Refusal :=
  run s (whenLive (afterNegotiation none fun s =>
    if slot ≠ 0 || !summaryOk kind then spdmAnswer s none (.error spdmInvalid)
    else if 4 ≤ s.sec.spdm.sessions.length then spdmAnswer s none (.error spdmLimit)
    else
      let n := s.sec.spdm.nextId
      let s := modSpdm s fun p => { p with sessions := p.sessions ++ [{ id := n }], nextId := n + 1 }
      spdmAnswer s none (.keyExchange n (measSummary s kind))))

/-- End a session. -/
def dropSession (s : State) (n : Nat) : State := modSpdm s fun p => { p with sessions := p.sessions.filter (·.id ≠ n) }

/-- FINISH (R534): `good` says whether its message authentication code verifies; where it does not, the session ends. -/
def execFinish (session : Nat) (good : Bool) (s : State) : Host.Outcome State Fault Refusal :=
  run s (whenLive (afterNegotiation (some session) fun s =>
    match s.sec.spdm.sessions.find? (·.id = session) with
    | none => spdmAnswer s (some session) (.error spdmNoSession)
    | some x =>
      if x.secure then spdmAnswer s (some session) (.error spdmUnexpected)
      else if !good then spdmAnswer (dropSession s session) (some session) (.error spdmDecrypt)
      else
        let s := modSpdm s fun p => { p with sessions := p.sessions.map fun y => if y.id = session then { y with secure := true } else y }
        spdmAnswer s (some session) .finish))

/-- SPDM_HEARTBEAT (R534). -/
def execSpdmHeartbeat (session : Nat) (s : State) : Host.Outcome State Fault Refusal :=
  run s (whenLive (inSession session fun s => spdmAnswer s (some session) .heartbeat))

/-- KEY_UPDATE (R534): operations 1 to 3 of DSP0274; the keys of SPDM sessions are not kept. -/
def execKeyUpdate (session op tag : Nat) (s : State) : Host.Outcome State Fault Refusal :=
  run s (whenLive (inSession session fun s =>
    if 1 ≤ op && op ≤ 3 then spdmAnswer s (some session) (.keyUpdate op tag) else spdmAnswer s (some session) (.error spdmInvalid)))

/-- END_SESSION (R534). -/
def execEndSession (session : Nat) (s : State) : Host.Outcome State Fault Refusal :=
  run s (whenLive (inSession session fun s => spdmAnswer (dropSession s session) (some session) .endSession))

/-! ### Security islands (R525) -/

/-- A security island is back: every key is copied from the other one before it takes work. -/
def resync (s : State) (half : Nat) : State :=
  if s.clk.inReset.contains (20 + half) then
    report { s with clk := { s.clk with inReset := s.clk.inReset.filter (· ≠ 20 + half) } } 0x1707 half 0 [half]
  else s

/-- SEC_ISLAND_RESYNC (R525): the island of a half. -/
def execSecIslandResync (half : Nat) (s : State) : Host.Outcome State Fault Refusal :=
  run s (whenLive fun s => resync s (half % 2))

end Sys2Proof.Machine
end

