-- ==== Sys2Proof/Machine/Boot.lean ====
section
/-! DEFINITION. The cold start (R541, R544, R546), the choice of the boot image (R77, R80), the fall of PWR_OK and the thermal
trip. One command carries a boot sequence from t0 to full service; the links begin to train when their partners' signal comes
(LINK_SIGNAL_DETECT). -/
namespace Sys2Proof.Machine

/-! ### What no start loses -/

/-- Every PLL in one state. -/
def allPlls (st : PllState) : Tbl Pll := (List.range 31).map fun n => (n, { state := st })

/-- Register fields that outlive a loss of every island: the active slot and the valid slots in SPI flash (R81, R598). -/
def lastingFields : List Field := [Reg.LAY_SPI.active_slot, Reg.LAY_SPI.slot_valid]

/-- The controller with every island in reset: flash, fuses, straps, what the board provides, and nothing else. -/
def bare (s : State) : State :=
  let t : State :=
    { part := s.part, stepping := s.stepping, device := s.device, startCount := s.startCount, out := s.out, pending := s.pending,
      clk := { phase := .off, plls := allPlls .off, inReset := List.range 24, pins := { s.clk.pins with cePerstN := 0 },
               sensors := s.clk.sensors, rails := s.clk.rails, drives := s.clk.drives, dimms := s.clk.dimms },
      host := { inReset := true }, lay := { slotA := s.lay.slotA, slotB := s.lay.slotB, firmwareOk := s.lay.firmwareOk },
      sec := { slots := s.sec.slots, revoked := s.sec.revoked, dsk := s.sec.dsk },
      link := { entropy := s.link.entropy } }
  lastingFields.foldl (fun t f => setFld t f (fld s f)) t

/-! ### The boot image (R77, R80) -/

/-- A full image in a slot passes the checks of a start: signed by a slot that is still enrolled and not revoked, within the
sums of check 7; the rest was checked when the slot was written. -/
def bootable (s : State) (valid : Bool) (i : Option Image) : Option Image :=
  match i with
  | some x => if valid && !isPartial x && (slotKey s x.keySlot).isSome && !overCapacity x.sections then some x else none
  | none => none

/-- The image that a start finds in flash, with its slot: the active slot's, else the other one's. -/
def flashImage (s : State) : Option (Nat × Image) :=
  let at_ (k : Nat) : Option (Nat × Image) :=
    (bootable s (bitOf (fld s Reg.LAY_SPI.slot_valid) k) (if k = 0 then s.lay.slotA else s.lay.slotB)).map fun i => (k, i)
  let a := fld s Reg.LAY_SPI.active_slot
  match at_ a with | some x => some x | none => at_ (1 - a)

/-- The sections of a full image take effect on a controller that runs nothing yet, up to and with MICROPROG. -/
def bootFirst (s : State) (i : Image) : State :=
  let n := newLayout s i
  let s := { s with lay := { s.lay with active := { s.lay.active with
                                                    partitions := n.partitions, attic := n.attic, sram := n.sram, store := n.store } } }
  let s := applyBays s n.bays []
  let s := { s with lay := { s.lay with active := { s.lay.active with clocks := n.clocks } } }
  let s := applyRegulators s n.regulators
  let s := { s with lay := { s.lay with active := { s.lay.active with placement := n.placement } } }
  (changedStacks s i).foldl (fun s k => takeStore s i k) s

/-- A full image at a start; `cam` where its CAM_RULES is loaded, which a warm start's restored entries stand for. -/
def bootImage (s : State) (i : Image) (cam : Bool) : State :=
  let s := bootFirst s i
  let s := if cam then applyCam s i else s
  let s := { s with lay := { s.lay with booted := some i } }
  loadDone (applyTail s i) i

/-- The built-in image (R80): LAYOUT_BOOT_FALLBACK, sticky bit 4, the chain (R536, R537). -/
def bootBuiltin (s : State) : State :=
  let s := { s with lay := { s.lay with active := { builtin := true, composition := Config.builtinComposition }, booted := none } }
  setSticky (report (measChanged { s with lay := { s.lay with chain := Config.builtinChain } } 4) 0x0203 0 0 []) 4

/-- The drives that answer on the cellar root ports, as targets (R156); the ports leave reset (R592). -/
def rootPorts (s : State) : State :=
  let ds := (List.range 4).filter (bitOf s.clk.drives)
  { s with tier := { s.tier with targets := (s.tier.targets.filter (·.remote)) ++ ds.map fun p => { remote := false, number := p } },
           clk := { s.clk with pins := { s.clk.pins with cePerstN := 15 } } }

/-- The image of a start, from flash or built in. -/
def loadBoot (s : State) (i : Option (Nat × Image)) (cam : Bool) : State :=
  match i with
  | some (k, i) => bootImage (setFld (rootPorts s) Reg.LAY_SPI.booted_slot k) i cam
  | none => bootBuiltin s

/-! ### Ready times and full service (R544, R546) -/

/-- Record the fields of CLK_START. -/
def startFields (s : State) (kind cause fallback saveUs : Nat) : State :=
  [(Reg.CLK_START.kind, kind), (Reg.CLK_START.cause, cause), (Reg.CLK_START.fallback, fallback),
    (Reg.CLK_START.save_us, Nat.min saveUs 0xFFFF)].foldl (fun s f => setFld s f.1 f.2) s

/-- Record the fields of CLK_START and the times of CLK_READY: a time of the boot sequence is a free value, since the bounds of
R544 hold under conditions outside the controller. -/
def readyFields (s : State) (kind cause fallback saveUs : Nat) : State :=
  let s := startFields s kind cause fallback saveUs
  let t (k : Nat) : Nat := Config.readyTime s.startCount k
  [(Reg.CLK_READY.attic_links, t 8), (Reg.CLK_READY.store, t 11), (Reg.CLK_READY.full, t 13),
    (Reg.CLK_READY.pcie, if s.host.inReset then 0 else t 0)].foldl (fun s f => setFld s f.1 f.2) s

/-- Full service: START_DONE with kind, cause and the ready times (step 13 of R546). -/
def fullService (s : State) : State :=
  let f (x : Field) : Nat := fld s x
  let s := { s with capSeen := capWord s }
  report s 0x0106 0 0 [f Reg.CLK_START.kind, f Reg.CLK_START.cause, f Reg.CLK_READY.attic_links, f Reg.CLK_READY.store, f Reg.CLK_READY.full, f Reg.CLK_READY.pcie]

/-- Every island leaves reset on its PLL; the straps are sampled and the start count rises (R546, R552, R596). The host island
stays in reset while PERST_N is asserted. -/
def islandsUp (s : State) : State :=
  let pins := s.clk.pins
  { s with startCount := (s.startCount + 1) % 2 ^ 16, device := pins.devid % 2 ^ 11, host := { s.host with inReset := !pins.perstN },
           clk := { s.clk with phase := .service, plls := [], inReset := [] } }

/-- The start stops in boot ROM: the firmware in flash fails verification. The control, security, management and timebase islands
are out of reset (R546 steps 1 to 3). -/
def romOnly (s : State) : State :=
  { s with clk := { s.clk with phase := .rom, inReset := List.range 19 }, host := { s.host with inReset := true } }

/-- A cold start from its t0 to full service: nothing is kept; the device storage key is new (R521, R546, R548). `kind` 2 is a
warm start that falls back, with its reason: its firmware was verified before (R547). -/
def coldBoot (s : State) (kind cause fallback : Nat) : State :=
  let t := islandsUp (bare s)
  let t := { t with sec := { t.sec with dsk := t.sec.dsk + 1 }, clk := { t.clk with cause := cause } }
  if kind ≠ 2 && !t.lay.firmwareOk then romOnly (startFields t kind cause fallback 0)
  else
    let t := if kind = 2 then report t 0x0105 0 0 [Status.warmFallback.code, fallback] else t
    let t := loadBoot t (flashImage t) true
    fullService (readyFields t kind cause fallback 0)

/-- A cold start on a trigger: held while SYS_RST_N is low (R595). -/
def coldStart (s : State) (cause : Nat) : State :=
  if s.clk.pins.sysRstN then coldBoot s 0 cause 0
  else let t := bare s; { t with clk := { t.clk with phase := .held, cause := cause } }

/-! ### Commands -/

/-- Pin levels. -/
def setPins (s : State) (f : Pins → Pins) : State := { s with clk := { s.clk with pins := f s.clk.pins } }

/-- PWR_OK rises with the other pins as they stand then (R541, R594, R595, R610): nothing starts while THERM_TRIP_N is still
asserted; a cold start held by SYS_RST_N; or a cold start. -/
def powerUp (s : State) (devid : Nat) (sysRstN perstN : Bool) : State :=
  let s := setPins s fun p => { p with pwrOk := true, devid := devid % 2 ^ 11, sysRstN := sysRstN, perstN := perstN }
  if !s.clk.pins.thermTripN then { s with clk := { s.clk with phase := .tripped } }
  else coldStart s 1

/-- PWR_OK_RISE (R541, R546, R594): no rule applies once MFG_MODE is high at the rise. -/
def execPwrOkRise (devid : Nat) (sysRstN perstN mfgMode : Bool) (s : State) : Host.Outcome State Fault Refusal :=
  if s.clk.phase = .off && mfgMode then .fault .manufacturingMode
  else run s fun s => if s.clk.phase = .off then powerUp s devid sysRstN perstN else s

/-- The controller without power good: every island in reset at once, no save (R541); THERM_TRIP_N is released (R610). -/
def powerDown (s : State) : State := setPins (bare s) fun p => { p with pwrOk := false, thermTripN := true }

/-- A low of PWR_OK through the glitch filter (R595): under 1 µs ignored, from 2 µs on a fall; in between the board must not
drive it, and whether it counts is a free value. -/
def isFall (s : State) (ns : Nat) : Bool := decide (2000 ≤ ns) || (decide (1000 ≤ ns) && Config.fresh s.link.entropy % 2 = 1)

/-- PWR_OK_FALL (R541, R595): PWR_OK is low for `ns` nanoseconds. -/
def execPwrOkFall (ns : Nat) (s : State) : Host.Outcome State Fault Refusal :=
  run s fun s =>
    let falls : Bool := s.clk.phase ≠ .off && isFall s ns
    let s := { s with link := { s.link with entropy := s.link.entropy + 1 } }
    if falls then powerDown s else s

/-- CLK_RESET_COLD (R541): `key` as written with cold. A key other than 0xC5 makes the write void. -/
def clkCold (s : State) (key : Nat) : State := if key = 0xC5 then coldStart s 2 else s

/-- CLK_RESET_COLD (R541): CLK_RESET with cold and a key. -/
def execClkResetCold (key : Nat) (s : State) : Host.Outcome State Fault Refusal :=
  run s (hostAccess fun s => clkCold (dropShadow s) key)

/-- THERM_TRIP (R541, R610): a sensor reads 115 °C. The pin is asserted whether or not PWR_OK is high; every PLL stops and every
island is held in reset until PWR_OK falls and rises again. -/
def execThermTrip (s : State) : Host.Outcome State Fault Refusal :=
  run s fun s =>
    let t := setPins (if s.clk.phase = .off then s else bare s) fun p => { p with thermTripN := false }
    if s.clk.phase = .off then t else { t with clk := { t.clk with phase := .tripped } }

end Sys2Proof.Machine
end

