-- ==== Sys2Proof/Machine/Warm.lean ====
section
/-! DEFINITION. The warm start (R541, R543, R546 to R551): the save, the record, the fallbacks, what is restored, the rejoin of
mirrored sessions. -/
namespace Sys2Proof.Machine

/-! ### The save (R543) -/

/-- Kill every part without a report; a participant's prepared entries stay for their STP_SEAL unless `all`. -/
def silentKill (s : State) (all : Bool) : State :=
  (s.steps.parts.map (·.stepRef)).foldl (fun s ref =>
    match partOf s ref with
    | none => s
    | some p =>
      let ix := (p.entries.zipIdx.filter fun e => liveEntry e.1 && (all || isHome s p || !(e.1.prepared || e.1.prepWait))).map (·.2)
      let s := ix.foldl (fun s i =>
        let h := (p.entries[i]?).elim 0 (·.handle)
        modHome (dropLogits (endEntry s ref i .preempted 0) h) ref i fun r => { r with resubmitted := true }) s
      dropDone (checkDone s ref) ref) s

/-- Internal reset is released: at the later of the save's end and the rise of SYS_RST_N. The monitor and the TAP begin anew
(R613, R618, R620). -/
def releaseReset (s : State) : State := if s.clk.pins.sysRstN then { s with clk := { s.clk with phase := .warm }, dbg := {} } else s

/-- A warm trigger (R541, R543): the save begins; one during a save restarts it, one after it restarts the boot; in boot ROM there
is nothing to save. -/
def warmTrigger (s : State) (cause : Nat) : State :=
  let mark (s : State) : State := { s with clk := { s.clk with cause := cause } }
  match s.clk.phase with
  | .service | .saving =>
    let s := silentKill s false
    mark { s with steps := { s.steps with paused := true }, clk := { s.clk with phase := .saving, warm := none } }
  | .saved | .warm => mark s
  | .rom => mark (releaseReset { s with clk := { s.clk with phase := .saved, warm := none } })
  | _ => s

/-- The save is complete after `us` microseconds. -/
def saveDone (s : State) (us : Nat) : State :=
  let s := silentKill s true
  releaseReset { s with clk := { s.clk with phase := .saved, warm := some { store := s.lay.active.store, done := true, saveUs := us } } }

/-- WARM_SAVE_COMPLETE (R543): the save took `us` microseconds. -/
def execWarmSaveComplete (us : Nat) (s : State) : Host.Outcome State Fault Refusal :=
  run s fun s => if s.clk.phase = .saving then saveDone s us else s

/-- The save was abandoned 10 ms after its trigger: the start falls back with SAVE_TIMEOUT when internal reset is released. -/
def saveLate (s : State) : State :=
  if s.clk.pins.sysRstN then coldBoot s 2 s.clk.cause 1
  else { s with clk := { s.clk with phase := .saved, warm := some { store := s.lay.active.store, done := false, saveUs := 10000 } } }

/-- WARM_SAVE_TIMEOUT (R543, R547). -/
def execWarmSaveTimeout (s : State) : Host.Outcome State Fault Refusal := run s fun s => if s.clk.phase = .saving then saveLate s else s

/-- SYS_RST_N_FALL (R541, R543, R595): no effect while PWR_OK is low; a warm trigger otherwise. -/
def execSysRstNFall (s : State) : Host.Outcome State Fault Refusal :=
  run s fun s =>
    if s.clk.phase = .off then s
    else
      let s := warmTrigger (setPins s fun p => { p with sysRstN := false }) 5
      if s.clk.phase = .warm then { s with clk := { s.clk with phase := .saved } } else s

/-- The rise of SYS_RST_N releases a cold start held by it, or the warm boot (R543, R595). -/
def resetRises (s : State) : State :=
  let s := setPins s fun p => { p with sysRstN := true }
  match s.clk.phase with
  | .held => coldStart s s.clk.cause
  | .saved => if s.clk.warm.elim false fun w => !w.done then coldBoot s 2 s.clk.cause 1 else releaseReset s
  | _ => s

/-- SYS_RST_N_RISE (R543). -/
def execSysRstNRise (s : State) : Host.Outcome State Fault Refusal := run s fun s => if s.clk.phase = .off then s else resetRises s

/-- CLK_RESET with warm: `key` as written with it. -/
def clkWarm (s : State) (key : Nat) : State := if key = 0xC5 then warmTrigger s 6 else s

/-- CLK_RESET_WARM (R541). -/
def execClkResetWarm (key : Nat) (s : State) : Host.Outcome State Fault Refusal := run s (hostAccess fun s => clkWarm (dropShadow s) key)

/-- FIRMWARE_WATCHDOG_EXPIRY (R541). -/
def execFirmwareWatchdogExpiry (s : State) : Host.Outcome State Fault Refusal := run s fun s => warmTrigger s 7

/-! ### What the record holds (R548), as the saved controller has it -/

/-- What a warm start keeps of an object: a copy whose move had not ended is none; nothing pending, no hold. -/
def keptObj (o : Obj) : Obj :=
  let attic : Bool := o.attic && o.state ≠ .rising
  { o with state := if attic then .resident else .home, attic := attic, pending := 0, holds := 0, raiseAfter := none, dirty := o.dirty && attic }

/-- Moves and queues gone, objects settled. -/
def keptObjs (s : State) : State :=
  let s := (s.tier.objs.filter fun o => o.2.doomed).foldl (fun s o => freeObj s o.1) s
  let s := (s.tier.objs.filter fun o => o.2.attic && o.2.state = .rising).foldl (fun s o => wipeAttic s o.2) s
  let s := { s with tier := { s.tier with queues := [], running := [], objs := tmap (fun _ o => keptObj o) s.tier.objs } }
  (tkeys s.tier.objs).foldl (fun s i => match objOf s i with | some o => putObj s i o | none => s) s

/-- Shadows and what they hold go. -/
def dropShadows (s : State) : State :=
  (tvals s.mir.shadows).foldl (fun s d => delShadow (d.roles.foldl (fun s r => dropRoleObjs s d.desc.handle r.sender) s) d.desc.handle) s

/-- A session whose SES_OPEN or TRUNK_RESTORE had not completed (R52, DEDUCED for the restore). -/
def unborn (x : Session) : Bool := !x.guest && (x.state = .admitting || (x.verb.elim false fun v => !v.resume) || x.restoring.isSome)

/-- What a warm start keeps of a session record: its committed state. -/
def keptSess (x : Session) : Session :=
  let again := stepAgain x
  let place := match x.place with | .spilling => Place.shelf | .fetching => .spilled | p => p
  { x with fixed := false, posted := false, place := place, verb := none, input := none, inTokens := if again then x.inTokens else [],
           fixing := none, cancels := [], waiting := [], headroom := if again then x.headroom else {}, logits := [], covered := false,
           coveredAt := none, lookup := none, noteAcked := false, publish := none, publishing := false, held := [] }

/-- A layer part of a session homed elsewhere: its objects have no copy left where mirrors exist (R548). -/
def loseGuest (s : State) (x : Session) : State :=
  if (rolesOf s 2).isEmpty then s
  else (sessObjs s (hKey x.handle)).foldl (fun s i => match objOf s i with
    | some o => setObj (if o.attic then wipeAttic s o else s) i { o with state := .home, attic := false, lower := none, dirty := false }
    | none => s) s

/-- The saved controller with what no start keeps taken out of what is restored. -/
def settleSaved (s : State) : State :=
  let s := dropShadows { s with inv := { s.inv with pins := [], ops := [] } }
  let s := { s with trunk := { trunks := s.trunk.trunks, nextReq := s.trunk.nextReq }, mir := { s.mir with pinned := [] } }
  let s := ((tvals s.sess.table).filter unborn).foldl (fun s x => eraseSession (freeTrack (tallyReturn s x.handle) x) x.handle) s
  let s := ((tvals s.sess.table).filter fun x => x.state = .retiring).foldl (fun s x => releaseObjs s x.handle) s
  let s := keptObjs s
  let s := ((tvals s.sess.table).filter (·.guest)).foldl loseGuest s
  sweepAll { s with sess := { s.sess with table := tmap (fun _ x => keptSess x) s.sess.table } }

/-- A semaphore after a warm start (R285). -/
def keptSem (x : Sem) : Sem :=
  match x.holder with
  | some h => { mark := some ⟨2, h.ctx, h.dev⟩ }
  | none => { mark := x.mark }

/-- A connection after a warm start: ERROR with LINK_DOWN; its context lies where the record has it. -/
def keptConn (c : Conn) : Conn :=
  let place := match c.place with | .spilling _ => ConnPlace.cached | .fetching n => .spilled n | p => p
  { c with state := .error, errStatus := if c.state = .error then c.errStatus else Status.linkDown.code, place := place, reqs := [], waiting := [],
           retries := 0, rnrs := 0, rnrWait := false, stage := 0, cnpAt := none, write := none, held := [] }

/-- A mirror link after a warm start: nothing is awaited. -/
def keptLink (l : MirLink) : MirLink := { l with waits := [], copies := [] }

/-- Register fields of restored units: the RMA areas, the protection domains and pools, the tallies. -/
def keptRegs (r : List (Nat × Nat)) : List (Nat × Nat) :=
  let inAny (a : Nat) : Bool := [(0x1500080, 0x15000A8), (0x1501000, 0x1503000), (0x908000, 0x928000)].any fun w => decide (w.1 ≤ a) && decide (a < w.2)
  r.filter fun e => inAny (e.1 / 64) || e.1 = fieldKey Reg.SEC_CFG.lockdown.addr Reg.SEC_CFG.lockdown.lo

/-- Restored objects: the tiers, the attic, the inventory. -/
def restoreTiers (t k : State) : State :=
  let tier : Tier := { objs := k.tier.objs, nextObj := k.tier.nextObj, map := k.tier.map, nextMove := k.tier.nextMove, targets := k.tier.targets.filter (·.remote) }
  let inv : InvUnit := { nodes := k.inv.nodes, gens := k.inv.gens, nextReq := k.inv.nextReq, nextBorn := k.inv.nextBorn }
  { t with tier := tier, inv := inv, nbu := { t.nbu with attic := k.nbu.attic }, atn := { t.atn with selected := k.atn.selected } }

/-- Restored search and remote memory units: the CAM generation counter is 1 (R385). -/
def restoreUnits (t k : State) : State :=
  let banks := tmap (fun _ (l : List CamEntry) => l.map fun e => { e with gen := 1 }) k.cam.banks
  let rma : RmaUnit := { conns := tmap (fun _ c => keptConn c) k.rma.conns, regions := k.rma.regions, gens := k.rma.gens, area := k.rma.area,
                         lostPools := k.rma.lostPools }
  { t with cam := { banks := banks, clients := k.cam.clients }, vsr := { slots := k.vsr.slots }, rma := rma }

/-- Restored sessions, contexts, tables, mirrors, trunks, semaphores and tallies. -/
def restoreSess (t k : State) : State :=
  let kept : List Nat := ((tvals k.sess.table).filter stepAgain).map (·.handle)
  let steps : Steps := { sems := tmap (fun _ x => keptSem x) k.steps.sems, sealed := k.steps.sealed, nextSeq := k.steps.nextSeq, again := kept }
  let items : List LedgerItem := (k.hatch.ledger.filter fun i => kept.contains i.handle).map fun i => { i with stepRef := none }
  let hatch : Hatch := { ledger := items, track := tmap (fun _ (x : Track) => { handle := x.handle }) k.hatch.track, fraction := k.hatch.fraction }
  { t with contexts := tmap (fun _ c => { c with destroyer := none }) k.contexts, sess := { k.sess with fetches := 0, spillFullAt := none },
           tok := { t.tok with slots := k.tok.slots }, mir := { links := k.mir.links.map keptLink }, trunk := k.trunk, steps := steps, hatch := hatch }

/-- Put what the record holds into the started controller. -/
def restoreKept (t k : State) : State :=
  let t := { t with regs := (keptRegs k.regs).foldl (fun r e => tset r e.1 e.2) t.regs }
  restoreSess (restoreUnits (restoreTiers t k) k) k

/-- One restored session at step 12 (R548, R549): rejoin where it had a mirror. -/
def rejoinOne (s : State) (h : Nat) : State :=
  match sessOf s h with
  | none => s
  | some x =>
    let s := rehold s h
    if x.guest then s
    else if (mirLink s h true).isSome then
      let s := modSess s h fun x => { x with rejoin := true }
      { s with mir := { s.mir with handover := s.mir.handover ++ [h], holding := s.mir.holding ++ [h] } }
    else settleKept s h

/-- Step 12 of the boot sequence. -/
def rejoinAll (s : State) : State :=
  let s := (s.steps.sems.filter fun x => x.2.mark.elim false (·.cause = 2)).foldl (fun s x =>
    match x.2.mark with | some m => report s 0x0805 x.1 0 [x.1, 2, m.ctx, m.dev] | none => s) s
  let s := ((s.tier.targets.filter (·.remote)).map (·.number)).foldl poolLost s
  (tkeys s.sess.table).foldl (fun s k => match tget? s.sess.table k with | some x => rejoinOne s x.handle | none => s) s

/-! ### The warm boot (R546, R547) -/

/-- The image a warm start uses: the retained copy of the booted one, or flash where that fails its digest (R546). -/
def retainedImage (s : State) (copyOk : Bool) : Option (Nat × Image) :=
  if copyOk then s.lay.booted.map fun i => (fld s Reg.LAY_SPI.booted_slot, i) else flashImage s

/-- The STORE_ROOM section of a boot image. -/
def storeSect (i : Option (Nat × Image)) : StoreSec := (i.bind fun x => x.2.sections.store).getD {}

/-- The reason of a fallback: the lowest that holds. -/
def fallbackReason (s : State) (i : Option (Nat × Image)) (trainOk canaryOk dimmsSame recordOk : Bool) : Option Nat :=
  match s.clk.warm with
  | none => some 7
  | some w =>
    if !w.done then some 1 else if !trainOk then some 2 else if !canaryOk then some 3 else if !dimmsSame then some 4
    else if storeSect i ≠ w.store then some 5 else if !recordOk then some 6 else none

/-- The security islands across a warm start: keys and lockdown stay, SPDM sessions do not. -/
def keptSec (x : SecUnit) : SecUnit := { x with spdm := {}, lockWait := x.lockWait.map fun _ => [] }

/-- A warm start that does not fall back. -/
def warmBoot (s : State) (i : Option (Nat × Image)) (saveUs : Nat) : State :=
  let k := settleSaved s
  let t := islandsUp (bare s)
  let t := { t with sec := keptSec s.sec, clk := { t.clk with cause := s.clk.cause } }
  let t := setSticky (loadBoot (restoreKept t k) i false) 6
  let t := rejoinAll { t with lay := { t.lay with booted := i.map (·.2) } }
  settleAll (fullService (readyFields t 1 s.clk.cause 0 saveUs))

/-- A warm start (R546, R547). -/
def warmStart (s : State) (trainOk canaryOk dimmsSame recordOk copyOk : Bool) : State :=
  let i := retainedImage s copyOk
  if !copyOk && !s.lay.firmwareOk then romOnly (startFields (let t := islandsUp (bare s); { t with clk := { t.clk with cause := s.clk.cause } }) 1 s.clk.cause 0 0)
  else match fallbackReason s i trainOk canaryOk dimmsSame recordOk with
  | some r => coldBoot s 2 s.clk.cause r
  | none => warmBoot s i ((s.clk.warm.map (·.saveUs)).getD 0)

/-- WARM_START (R546): what the boot finds of the training results, the canaries, the DIMMs' serial numbers, the record's digest
and the retained copies of firmware and image. -/
def execWarmStart (trainOk canaryOk dimmsSame recordOk copyOk : Bool) (s : State) : Host.Outcome State Fault Refusal :=
  run s fun s => if s.clk.phase = .warm then warmStart s trainOk canaryOk dimmsSame recordOk copyOk else s

/-- REJOIN_TIMEOUT (R549): no answer to the handover of a session. -/
def execRejoinTimeout (handle : Nat) (s : State) : Host.Outcome State Fault Refusal :=
  run s (act fun s => if rejoining s handle then rejoinLost s handle else s)

end Sys2Proof.Machine
end

