-- ==== Sys2Proof/Machine/Islands.lean ====
section
/-! DEFINITION. The reset and return of one island (R20, R21, R525), and of the host island by PERST_N (R542). -/
namespace Sys2Proof.Machine

/-! ### The host island (R36, R542) -/

/-- The host port leaves reset: completions held are written, rings and events go on, the ready time of R544 is recorded. -/
def hostReturns (s : State) : State :=
  if !s.host.inReset || s.clk.inReset.contains 17 || !s.clk.pins.perstN || s.clk.pcieDown then s
  else
    let s := { s with host := { s.host with inReset := false } }
    let s := setFld s Reg.CLK_READY.pcie (Config.readyTime s.startCount 0)
    let s := (tkeys s.host.rings).foldl (fun s r =>
      let x := ringOf s r
      if x.fault then s else readEntries (releaseHeld x.held (setRing s r { x with held := [] })) r) s
    flushEvents ((tkeys s.host.orings).foldl drainRing s)

/-- The host port goes into reset. -/
def hostResets (s : State) : State := { s with host := { s.host with inReset := true, shadow := none } }

/-- PERST_N_ASSERT (R542, R595). -/
def execPerstNAssert (s : State) : Host.Outcome State Fault Refusal :=
  run s fun s => if s.clk.phase = .off then s else hostResets (setPins s fun p => { p with perstN := false })

/-- PERST_N_DEASSERT (R542, R544): at a boot the port follows the pin. -/
def execPerstNDeassert (s : State) : Host.Outcome State Fault Refusal :=
  run s fun s =>
    if s.clk.phase = .off then s
    else
      let s := setPins s fun p => { p with perstN := true }
      if s.clk.phase = .service || s.clk.phase = .saving then hostReturns s else s

/-! ### What an island's reset ends (R20, R21) -/

/-- An object has a copy on a stack. -/
def onStack (s : State) (k id : Nat) : Bool :=
  (objOf s id).elim false fun o => o.attic && decide (o.nbu / 1024 ≤ k) && decide (k ≤ (o.nbu + o.span - 1) / 1024)

/-- Tile commands of a session's part queued or running on a half. -/
def onHalf (s : State) (half ref h : Nat) : Bool :=
  ((tvals s.den.queues).flatten ++ tvals s.den.running).any fun c => !c.serve && c.half = half && c.stepRef = ref && c.handle = h

/-- An entry of a part had work in an island (R21, DEDUCED where the islands table says what each holds): its objects' stacks, its
tile commands, anything in the on-die fabric, the sampling of its token in the service island. -/
def workIn (s : State) (i : Island) (p : StepPart) (e : PartEntry) : Bool :=
  liveEntry e && (e.started || e.prepared) &&
    (if i < 6 then e.pins.any (onStack s i)
     else if i = 6 || i = 7 then onHalf s (i - 6) p.stepRef e.handle
     else if i = 8 then true
     else if i = 18 then isHome s p && (sessOf s e.handle).elim false (·.coveredAt.isSome)
     else false)

/-- The parts that had work in an island are killed: they run again when it has returned (R21). A prepared entry of a participant
keeps nothing, so that its STP_SEAL finds TIER_FAULT (R265). -/
def killIn (s : State) (i : Island) : State :=
  let hit := s.steps.parts.filter fun p => p.entries.any (workIn s i p)
  hit.foldl (fun s p =>
    let s := modPart s p.stepRef fun q => { q with islandKilled := some i }
    if isHome s p then homeAbort s p.stepRef .preempted 0 true
    else
      let ix := (p.entries.zipIdx.filter fun e => workIn s i p e.1 && e.1.prepared).map (·.2)
      let s := ix.foldl (fun s k => modEntry (discardEntry s p.stepRef k) p.stepRef k fun e => { e with started := false, prepared := false, prepWait := false, killed := true }) s
      killPart s p.stepRef .preempted 0) s

/-- Contexts of commands that had work in an island that holds none of their data (R21). -/
def tornBy (s : State) (i : Island) : List Nat :=
  if i = 8 then (s.rma.fences.filterMap (·.sub)).map (·.context)
  else if i = 18 then
    let busy (x : Session) : Bool := !x.guest && (x.input.isSome || x.lookup.isSome || x.publishing)
    ((tvals s.sess.table).filter busy).map (fun x => hCtx x.handle) ++ s.inv.ops.map (·.sub.context) ++
      ((tvals s.cam.writes).flatten.map (·.sub.context)) ++ s.cam.drains.map (·.1.context) ++
      ((s.vsr.queries.filter fun q => s.vsr.walks.any fun w => w.origin = VsrOrigin.here q.id).map (·.sub.context))
  else []

/-- Vector search walks that read an attic island, and what they answer: TIER_FAULT (R21). -/
def walksFail (s : State) : State :=
  let ws := s.vsr.walks.filter (·.started)
  let s := { s with vsr := { s.vsr with walks := s.vsr.walks.filter fun w => !w.started } }
  vsrSweep (ws.foldl (fun s w =>
    match w.origin with
    | .here q => (match s.vsr.queries.find? (·.id = q) with | some q => endQuery s q .tierFault 0 [] | none => s)
    | .remote src req => sendMsg s src (.vsrRsp { status := .tierFault, detail := 0, flags := 0, shard := w.index.shard, request := req, visited := 0, entries := [] })) s)

/-- Descriptors on their way from a store-room island: their commands end with TIER_FAULT (R21). -/
def fetchesFail (s : State) : State :=
  ((tvals s.sess.table).filter fun x => x.place = .fetching).foldl (fun s x =>
    let s := modSess s x.handle fun x => { x with place := .spilled, waiting := [] }
    x.waiting.foldl (fun s v => refuse s v.sub .tierFault 0) s) s

/-- What the units of an island lose in its reset. -/
def unitsReset (s : State) (i : Island) : State :=
  if i < 6 then
    walksFail { s with nbu := { s.nbu with threads := s.nbu.threads.map fun t => if t.1 / 4 / 1024 = i then (t.1, { t.2 with busy := false }) else t } }
  else if i = 6 || i = 7 then
    let gone := (tvals (s.den.running.filter fun t => tileHalf t.1 = i - 6)).filter (·.serve)
    let den := { s.den with running := s.den.running.filter fun t => tileHalf t.1 ≠ i - 6, serving := s.den.serving.filter fun v => !gone.any (·.work = v.id),
                            hostCmd := s.den.hostCmd.filter fun c => tileHalf c.1 ≠ i - 6 }
    { s with den := den }
  else if 9 ≤ i && i ≤ 14 then
    let b := i - 9
    let s := ((List.range 8).map (8 * b + ·)).foldl lnkGoDown s
    [2 * b, 2 * b + 1].foldl ethGoDown s
  else if i = 15 || i = 16 then fetchesFail s
  else if i = 17 then hostResets s
  else s

/-- An island is reset (R20, R21); the management and timebase islands are not reset alone. -/
def islandReset (s : State) (i : Island) : State :=
  if 22 ≤ i || s.clk.inReset.contains i then s
  else
    let s := { s with clk := { s.clk with inReset := s.clk.inReset ++ [i] } }
    if s.clk.inReset.contains 20 && s.clk.inReset.contains 21 then coldStart s 3
    else
      let torn := (tornBy s i).eraseDups
      let s := unitsReset (killIn s i) i
      torn.foldl (fun s c => teardown s c { trigger := Config.islandTrigger, unit := i, code := 0 } none) s

/-- ISLAND_RESET (R20, R21): by CLOCKS index. -/
def execIslandReset (island : Nat) (s : State) : Host.Outcome State Fault Refusal := run s (act fun s => islandReset s island)

/-- An island returns: its bridges accept requests, the steps that its reset killed may run again. -/
def islandReturns (s : State) (i : Island) : State :=
  if !s.clk.inReset.contains i then s
  else if i = 20 || i = 21 then resync s (i - 20)
  else
    let s := { s with clk := { s.clk with inReset := s.clk.inReset.filter (· ≠ i) } }
    let s := { s with steps := { s.steps with parts := s.steps.parts.map fun p => if p.islandKilled = some i then { p with islandKilled := none } else p } }
    let s := if i = 17 then hostReturns s else s
    if i < 6 then nbuKick s else s

/-- ISLAND_RETURN (R21, R525). -/
def execIslandReturn (island : Nat) (s : State) : Host.Outcome State Fault Refusal := run s (act fun s => islandReturns s island)

end Sys2Proof.Machine
end

