-- ==== Sys2Proof/Machine/Clocks.lean ====
section
/-! DEFINITION. Clock monitors (R553 to R562), thermal throttling (R609), droop events (R602). -/
namespace Sys2Proof.Machine

/-! ### Sources and PLLs (R553, R554) -/

/-- Number of OSC_MGMT where a source is reported; references are 0 to 6. -/
def oscSource : Nat := 7

/-- The PLLs that a source feeds. -/
def pllsOf (src : Nat) : List Nat :=
  if src = 0 then [17, 30] else if src < 7 then [8 + src, 23 + src] else [0, 1, 2, 3, 4, 5, 6, 7, 8, 15, 16, 18, 19, 20, 21, 22, 23]

/-- A PLL that coasts, or is held under R558, without its source; a SerDes PLL does not. -/
def coasts (n : Nat) : Bool := decide (n < 24)

/-- Update a PLL. -/
def modPll (s : State) (n : Nat) (f : Pll → Pll) : State := { s with clk := { s.clk with plls := tset s.clk.plls n (f (pllOf s n)) } }

/-- Update a reference monitor. -/
def modRef (s : State) (r : Nat) (f : RefMon → RefMon) : State := { s with clk := { s.clk with refs := tset s.clk.refs r (f (refOf s r)) } }

/-- What loses its clock with a PLL (R557 to R559). -/
def pllOut (s : State) (n : Nat) : State :=
  if n = 23 then chooseParent s
  else if 24 ≤ n && n < 30 then
    let b := n - 24
    let s := ((List.range 8).map (8 * b + ·)).foldl lnkGoDown s
    [2 * b, 2 * b + 1].foldl ethGoDown s
  else if n = 30 then
    let s := hostResets { s with clk := { s.clk with pcieDown := true } }
    ((s.tier.targets.filter fun t => !t.remote).map (·.number)).foldl (fun s d => targetLost s false d) s
  else s

/-- A source fails: its PLLs coast or stop, CLK_LOSS, CLK_SOURCE_LOST (R557 to R559). -/
def sourceLost (s : State) (src : Nat) : State :=
  let ps := pllsOf src
  let s := ps.foldl (fun s n =>
    let s := modPll s n fun p => { p with state := if coasts n then .coasting else .locking, unlocked := false, measured := none }
    pllOut (setFldAt s Reg.CLK_PLL.clk_loss [n] 1) n) s
  report s 0x0101 src 0 [src, maskOf ps]

/-- A failed source is stable again: each PLL it feeds relocks, CLK_SOURCE_RESTORED; what it clocks goes on (R560). -/
def sourceBack (s : State) (src : Nat) : State :=
  (pllsOf src).foldl (fun s n =>
    let s := modPll s n fun p => { p with state := .locked, measured := none, relocks := wrapAdd 16 p.relocks 1 }
    let s := report s 0x0102 n 0 [src, n]
    if n = 23 then chooseParent s
    else if n = 30 then hostReturns { s with clk := { s.clk with pcieDown := false } }
    else s) s

/-! ### The monitors of references and PLL outputs (R556) -/

/-- Twice the nominal count of a reference in a window of 10 µs. -/
def nominal2 (r : Nat) : Nat := if r = 0 then 2000 else 3125

/-- The distance of two numbers. -/
def apart (a b : Nat) : Nat := (a - b) + (b - a)

/-- A count within the loss tolerance: within 1% of nominal, not 0. -/
def lossOk (r c : Nat) : Bool := c ≠ 0 && decide (apart (2 * c) (nominal2 r) * 100 ≤ nominal2 r)

/-- The last 64 counts within the drift tolerance; fewer are not judged. -/
def driftOk (r : Nat) (l : List Nat) : Bool :=
  decide (l.length < 64) || decide (apart (2 * sumOf l) (64 * nominal2 r) ≤ 2 * (32 * nominal2 r * 300 / 1000000 + 1))

/-- Deviation over the last 64 windows in ppm. -/
def ppmOf (r : Nat) (l : List Nat) : Nat :=
  let d : Int := (2 * sumOf l : Nat) - (64 * nominal2 r : Nat)
  let q := d * 1000000 / (64 * nominal2 r : Nat)
  let up : Bool := d * 1000000 % (64 * nominal2 r : Nat) ≠ 0 && Config.ppmUp (2 * sumOf l)
  ofSigned 32 (q + if up then 1 else 0)

/-- Judge one window of a reference. -/
def refWindow (s : State) (r c : Nat) : State :=
  let m := refOf s r
  let l := (m.counts ++ [c]).drop (m.counts.length + 1 - 64)
  let s := setFldAt s Reg.CLK_REF.count [r] c
  let s := if l.length < 64 then s else setFldAt s Reg.CLK_REF.ppm [r] (ppmOf r l)
  let good : Bool := lossOk r c && driftOk r l
  if m.stable then
    if good then modRef s r fun m => { m with counts := l, goodWindows := Nat.min 64 (m.goodWindows + 1) }
    else sourceLost (setFldAt (modRef s r fun m => { m with stable := false, goodWindows := 0, counts := [] }) Reg.CLK_REF.lost [r] 1) r
  else if !good then modRef s r fun m => { m with goodWindows := 0, counts := [] }
  else if m.goodWindows + 1 < 64 then modRef s r fun m => { m with goodWindows := m.goodWindows + 1, counts := l }
  else sourceBack (modRef s r fun m => { m with stable := true, goodWindows := 64, counts := l }) r

/-- Edges of a PLL's output in a window at its set frequency, as throttled; none where the manual gives no frequency. -/
def pllEdges (s : State) (n : Nat) : Option Nat :=
  if n < 24 then some (10 * throttled s n (pllSet s n)) else if n < 30 then some 265625 else none

/-- Judge one window of a PLL's output (R556, R562). -/
def pllWindow (s : State) (n c : Nat) : State :=
  let s := modPll s n fun p => { p with measured := some (c / 10 % 2 ^ 16) }
  match pllEdges s n with
  | none => s
  | some e =>
    let p := pllOf s n
    let bad : Bool := e < apart c e * 1000
    if p.state = .locked && bad then
      setFldAt (modPll s n fun p => { p with state := .locking, unlocked := true }) Reg.CLK_PLL.clk_unlock [n] 1
    else if p.unlocked && !bad then modPll s n fun p => { p with state := .locked, unlocked := false, relocks := wrapAdd 16 p.relocks 1 }
    else s

/-- REFERENCE_MONITOR_WINDOW (R556): the counts of a window by reference and by PLL, as far as listed. -/
def execReferenceMonitorWindow (refs plls : List Nat) (s : State) : Host.Outcome State Fault Refusal :=
  run s (whenLive fun s =>
    if !s.clk.oscOk then s
    else
      let s := ((refs.take 7).zipIdx).foldl (fun s c => refWindow s c.2 c.1) s
      settleAll (((plls.take 31).zipIdx).foldl (fun s c => pllWindow s c.2 c.1) s))

/-- OSC_MONITOR_WINDOW (R561): the count of OSC_MGMT in a window of 250 RC cycles. -/
def oscWindow (s : State) (c : Nat) : State :=
  let s := setFld s Reg.CLK_MON.osc_count c
  if s.clk.oscOk then
    if apart c 250 * 100 ≤ 6250 then s
    else
      let s := setFld { s with clk := { s.clk with oscOk := false, oscGood := 0 } } Reg.CLK_MON.osc_lost 1
      report (sourceLost s oscSource) 0x0104 0 0 []
  else if 2500 < apart c 250 * 100 then { s with clk := { s.clk with oscGood := 0 } }
  else if s.clk.oscGood + 1 < 64 then { s with clk := { s.clk with oscGood := s.clk.oscGood + 1 } }
  else sourceBack { s with clk := { s.clk with oscOk := true, oscGood := 64 } } oscSource

/-- OSC_MONITOR_WINDOW (R561). -/
def execOscMonitorWindow (count : Nat) (s : State) : Host.Outcome State Fault Refusal := run s (whenLive fun s => settleAll (oscWindow s count))

/-- The island that a PLL clocks. -/
def pllIsland (n : Nat) : Nat := if n < 24 then n else if n < 30 then n - 15 else 17

/-- A PLL has been out of tolerance for 50 µs with its source stable (R562). -/
def unlockExpiry (s : State) (n : Nat) : State :=
  if !(pllOf s n).unlocked then s
  else if n = 22 || n = 23 then warmTrigger s 8
  else
    let s := islandReset s (pllIsland n)
    if s.clk.phase = .service then report s 0x0103 n 0 [n, pllIsland n] else s

/-- PLL_UNLOCK_EXPIRY (R562). -/
def execPllUnlockExpiry (pll : Nat) (s : State) : Host.Outcome State Fault Refusal := run s (act fun s => unlockExpiry s (pll % 31))

/-! ### Temperature and rails (R602, R609) -/

/-- The PLLs that the throttle lowers: those of attic and dense islands. -/
def throttleSet (s : State) : List Nat := partStacks s.part ++ (denseHalves s).map (6 + ·)

/-- One step of the throttle: every clock down by 1/16 of nominal that is above its stop, or up by 1/16. -/
def throttleStep (s : State) (down : Bool) : State :=
  (throttleSet s).foldl (fun s n =>
    let k := tget 0 s.clk.throttle n
    let stop := if n < 6 then 400 else 800
    let k' := if !down then k - 1 else if stop < throttled s n (pllSet s n) then k + 1 else k
    { s with clk := { s.clk with throttle := if k' = 0 then tdel s.clk.throttle n else tset s.clk.throttle n k' } }) s

/-- THERMAL_THROTTLE_TICK (R609): readings of the sensors, PROCHOT_N, whether R607 requires the throttle; `up` at a 1 ms tick, else a
100 µs one. -/
def throttleTick (s : State) (readings : List Nat) (prochotN power up : Bool) : State :=
  let s := setPins { s with clk := { s.clk with sensors := readings } } fun p => { p with prochotN := prochotN }
  let hot := maxOf readings
  if decide (100 ≤ hot) || !prochotN || power then (if up then s else throttleStep s true)
  else if up && decide (hot ≤ 98) then throttleStep s false
  else s

/-- THERMAL_THROTTLE_TICK (R609). -/
def execThermalThrottleTick (readings : List Nat) (prochotN power up : Bool) (s : State) : Host.Outcome State Fault Refusal :=
  run s (whenLive fun s => throttleTick s readings prochotN power up)

/-- DROOP_EVENT (R602): on a rail, in the order of its table, with the sample in mV. -/
def execDroopEvent (rail mv : Nat) (s : State) : Host.Outcome State Fault Refusal :=
  run s (whenLive fun s =>
    let s := { s with clk := { s.clk with rails := tset s.clk.rails (rail % 9) mv, droops := s.clk.droops + 1 } }
    droopEvent s (rail % 9))

end Sys2Proof.Machine
end

