-- ==== Sys2Proof/Machine/RegWrite.lean ====
section
/-! DEFINITION. Writes of registers (R565 to R568), reads of them and their shadow (R569, R570), frozen blocks and groups
(R571, R572). -/
namespace Sys2Proof.Machine

/-! ### Freezing (R571, R572) -/

/-- Every index tuple of a field's dimensions. -/
def dimTuples : List (Nat × Nat) → List (List Nat)
  | [] => [[]]
  | (c, _) :: ds => (List.range c).flatMap fun i => (dimTuples ds).map (i :: ·)

/-- The values of a field at every index, where they are not its reset value. -/
def fieldValues (s : State) (f : Field) : List (Nat × Nat) :=
  (dimTuples f.dims).filterMap fun is => let v := liveField s f is; if v = f.reset then none else some (keyOf f is, v)

/-- A block's own number (R573). -/
def ownBlock (b : Nat) : Bool := decide (b ≤ 0x0D) || b = 0x10 || (decide (0x14 ≤ b) && decide (b ≤ 0x18))

/-- Freeze a block: every RO field of its range at one instant, which TOP_SNAP_TIME records; another number is ignored. -/
def freezeBlock (s : State) (b : Nat) : State :=
  if ownBlock b then
    let s := setFld s Reg.TOP_SNAP_TIME.timebase s.timebase
    let put (l : List (Nat × Nat)) (s : State) : State := { s with host := { s.host with frozen := some { block := b, values := l } } }
    let s := put [] s
    put (((regFields.filter fun f => f.ty = .ro && blockOf f.addr = b).map (fieldValues s)).flatten) s
  else s

/-- Release the frozen block. -/
def releaseBlock (s : State) : State := { s with host := { s.host with frozen := none } }

/-- A write of TOP_SNAP_CTL: release comes before freeze where a write sets both. -/
def snapWrite (s : State) (w : RegWrite) : State :=
  let s := storeFields s w [] [Reg.TOP_SNAP_CTL.block]
  let s := if wget w Reg.TOP_SNAP_CTL.release = some 1 then releaseBlock s else s
  if wget w Reg.TOP_SNAP_CTL.freeze = some 1 then freezeBlock s (fld s Reg.TOP_SNAP_CTL.block) else s

/-- Freeze the histogram that HAT_HIST_SEL names. -/
def histSnap (s : State) : State :=
  let h := tget [] s.hatch.hist (fld s Reg.HAT_HIST_SEL.cls * 4 + fld s Reg.HAT_HIST_SEL.metric)
  (List.range 16).foldl (fun s w =>
    setFldAt (setFldAt s Reg.HAT_HIST.bucket0 [w] (tget 0 h (2 * w))) Reg.HAT_HIST.bucket1 [w] (tget 0 h (2 * w + 1))) s

/-- Clear the histogram that HAT_HIST_SEL names. -/
def histClear (s : State) : State :=
  { s with hatch := { s.hatch with hist := tdel s.hatch.hist (fld s Reg.HAT_HIST_SEL.cls * 4 + fld s Reg.HAT_HIST_SEL.metric) } }

/-- A write of HAT_HIST_SEL: clear freezes first. -/
def histWrite (s : State) (w : RegWrite) : State :=
  let s := storeFields s w [] [Reg.HAT_HIST_SEL.cls, Reg.HAT_HIST_SEL.metric]
  let clear := wget w Reg.HAT_HIST_SEL.clear = some 1
  let s := if clear || wget w Reg.HAT_HIST_SEL.snap = some 1 then histSnap s else s
  if clear then histClear s else s

/-- The TBT buckets of HAT_TRK in order. -/
def trkBuckets : List Field :=
  [Reg.HAT_TRK.bucket0, Reg.HAT_TRK.bucket1, Reg.HAT_TRK.bucket2, Reg.HAT_TRK.bucket3, Reg.HAT_TRK.bucket4, Reg.HAT_TRK.bucket5,
   Reg.HAT_TRK.bucket6, Reg.HAT_TRK.bucket7, Reg.HAT_TRK.bucket8, Reg.HAT_TRK.bucket9, Reg.HAT_TRK.bucket10, Reg.HAT_TRK.bucket11,
   Reg.HAT_TRK.bucket12, Reg.HAT_TRK.bucket13, Reg.HAT_TRK.bucket14, Reg.HAT_TRK.bucket15]

/-- A write of HAT_TRK_SEL freezes the tracking entry of a session; HAT_TRK reads 0 where it has none. -/
def trkSelect (s : State) (handle : Nat) : State :=
  let s := setFld s Reg.HAT_TRK_SEL.handle handle
  let t : Track := ((tvals s.hatch.track).find? fun t => t.handle = fld s Reg.HAT_TRK_SEL.handle).getD { handle := 0 }
  let s := [(Reg.HAT_TRK.handle, t.handle), (Reg.HAT_TRK.ttft_ns, t.ttftNs), (Reg.HAT_TRK.tokens, t.tokens), (Reg.HAT_TRK.outside, t.outside),
    (Reg.HAT_TRK.tbt_sum_ns, t.tbtSum), (Reg.HAT_TRK.tbt_max_ns, t.tbtMax), (Reg.HAT_TRK.res_max_ns, t.resMax)].foldl (fun s p => setFld s p.1 p.2) s
  trkBuckets.zipIdx.foldl (fun s p => setFld s p.1 (tget 0 t.buckets p.2)) s

/-- Freeze the measurement block that SEC_MEAS_SEL names: raw values zero-padded. -/
def measSnap (s : State) : State :=
  let b := measurement s (fld s Reg.SEC_MEAS_SEL.index)
  (List.range 6).foldl (fun s w => setFldAt s Reg.SEC_MEAS.value [w] (leAt b (8 * w) 8)) s

/-- A write of SEC_MEAS_SEL. -/
def measWrite (s : State) (w : RegWrite) : State :=
  let s := storeFields s w [] [Reg.SEC_MEAS_SEL.index]
  if wget w Reg.SEC_MEAS_SEL.snap = some 1 then measSnap s else s

/-! ### Fields with a rule of their own -/

/-- A write acts on a field by its type (R566, R567): RW stores a value that its range admits, W1C clears. -/
def putField (w : RegWrite) (is : List Nat) (s : State) (f : Field) : State :=
  match wget w f with
  | none => s
  | some v =>
    match f.ty with
    | .rw => if limOk f.lim v then setFldAt s f is v else s
    | .w1c => if v = 1 then setFldAt s f is 0 else s
    | _ => s

/-- A write acts on every field of the register it falls on. -/
def putFields (s : State) (w : RegWrite) : State :=
  (fieldsAt (w.off / 8 * 8)).foldl (fun s x => putField w x.2 s x.1) s

/-- Act on some fields of a register. -/
def putSome (s : State) (w : RegWrite) (is : List Nat) (fs : List Field) : State := fs.foldl (putField w is) s

/-- A write of a table entry's mask or message: a pending vector goes out once it is not masked. -/
def msixWrite (s : State) (w : RegWrite) (v : Nat) : State :=
  let s := putFields s w
  if fldAt s Reg.MSIX.mask [v] = 0 && bitOf (fldAt s Reg.MSIX.pending [v / 64]) (v % 64) && flag s Reg.TOP_INT_CFG.enable then
    sendVector (setFldAt s Reg.MSIX.pending [v / 64] (putBit (fldAt s Reg.MSIX.pending [v / 64]) (v % 64) false)) v
  else s

/-- Writes of the TOP block. -/
def topWrite (s : State) (w : RegWrite) : State :=
  let off := w.off / 8 * 8
  if off = 0x108 then rearmErr (putFields s w)
  else if off = 0x200 then snapWrite s w
  else if off = 0x300 then if flag s Reg.TOP_EVT_CFG.enable then s else putFields s w
  else if off = 0x308 then evtCfgWrite s w
  else if 0x10000 ≤ off && off < 0x18000 then
    let r := (off - 0x10000) / 32
    if off % 32 < 16 then (if ringEnabled s r then s else putFields s w)
    else if off % 32 = 16 then ringCfgWrite s r w else s
  else if 0x20000 ≤ off && off < 0x28000 then
    let o := (off - 0x20000) / 32
    if off % 32 = 0 then (if fldAt s Reg.TOP_ORING_CFG.enable [o] = 1 then s else putFields s w)
    else if off % 32 = 8 then oringCfgWrite s o w else s
  else if 0x80000 ≤ off && off < 0x88000 then msixWrite s w ((off - 0x80000) / 16)
  else putFields s w

/-- A write of CLK_RESET: the key stands in the same write; cold overrides warm (R541). -/
def resetWrite (s : State) (w : RegWrite) : State :=
  let key := wgetD w Reg.CLK_RESET.key 0
  if wget w Reg.CLK_RESET.cold = some 1 then clkCold s key
  else if wget w Reg.CLK_RESET.warm = some 1 then clkWarm s key else s

/-- A write of LAY_CTRL: the image is what the BAR4 window holds at LAY_SRC. -/
def layCtlWrite (s : State) (w : RegWrite) : State :=
  let s := storeFields s w [] [Reg.LAY_CTRL.op]
  let op := fld s Reg.LAY_CTRL.op
  if wget w Reg.LAY_CTRL.go ≠ some 1 || !(op = 1 || op = 2) then s
  else
    layStart s op fun s =>
      let img := readBytes s.sram (fld s Reg.LAY_SRC.offset) (Nat.min (fld s Reg.LAY_SRC.length) 8388608)
      if op = 1 then layLoad s img else layProgram s img

/-- A write of SES_SHADOW_RING: chunks of promoted sessions may go out. -/
def shadowRingWrite (s : State) (w : RegWrite) : State :=
  let s := putFields s w
  ((tvals s.sess.table).filter fun x => x.promoted && !x.heldChunks.isEmpty).foldl (fun s x => drainSess x.heldChunks.length s x.handle) s

/-- A pair of watermarks: a write that would leave high no higher than low is ignored. -/
def wmPair (w : RegWrite) (s : State) (lo hi : Field) : State :=
  if wgetD w hi (fld s hi) ≤ wgetD w lo (fld s lo) then s else storeFields s w [] [lo, hi]

/-- A write of LAD_WM. -/
def wmWrite (s : State) (w : RegWrite) : State :=
  wmPair w (wmPair w s Reg.LAD_WM.attic_low Reg.LAD_WM.attic_high) Reg.LAD_WM.store_low Reg.LAD_WM.store_high

/-- A path of inspection: a write of 1 is ignored under lockdown, and otherwise sets a sticky bit (R520, R537). -/
def pathWrite (s : State) (w : RegWrite) (f : Field) (b : Nat) : State :=
  match wget w f with
  | some 1 => if flag s Reg.SEC_CFG.lockdown then s else setSticky (setFld s f 1) b
  | some _ => setFld s f 0
  | none => s

/-- A write of NBU_CTL: thread 3 goes to the host, or back to the units, whose waiting jobs may start. -/
def nbuCtlWrite (s : State) (w : RegWrite) : State :=
  nbuKick (pathWrite (storeFields s w [] [Reg.NBU_CTL.fault_evt]) w Reg.NBU_CTL.host_jobs 2)

/-- Writes of the DEN block: the host command only while host_cmds is 1 (R251). -/
def denWrite (s : State) (w : RegWrite) : State :=
  let off := w.off / 8 * 8
  if off = 0x700000 then
    let s := putSome s w [] [Reg.DEN_CFG.chunk_crates, Reg.DEN_CFG.cross, Reg.DEN_CFG.fault_evt, Reg.DEN_CFG.centroid_min]
    pathWrite s w Reg.DEN_CFG.host_cmds 3
  else if 0x700100 ≤ off && off < 0x700140 then if flag s Reg.DEN_CFG.host_cmds then putFields s w else s
  else if off = 0x700140 then
    if flag s Reg.DEN_TEST_CTL.busy then s
    else
      let s := storeFields s w [] [Reg.DEN_TEST_CTL.tile]
      if wget w Reg.DEN_TEST_CTL.go = some 1 then startHostCmd s else s
  else putFields s w

/-- Step credits that a link has: the least step pool of the partners of the UP links, or what the controller itself
advertises (R416). -/
def linkCredits (s : State) : Nat :=
  let up := (List.range (partLinks s.part)).filter fun n => (lnkOf s n).st = .up
  (minBy id (up.map fun n => (lnkOf s n).pools.getD 1 0)).getD 1536

/-- A write of STP_CREDIT: reserves that exceed a link's step credits are ignored (R279). -/
def creditWrite (s : State) (w : RegWrite) : State :=
  let fs := [Reg.STP_CREDIT.c0, Reg.STP_CREDIT.c1, Reg.STP_CREDIT.c2, Reg.STP_CREDIT.c3]
  if linkCredits s < sumOf (fs.map fun f => wgetD w f (fld s f)) then s else storeFields s w [] fs

/-- Store a field where its value is at least a floor. -/
def floorField (s : State) (w : RegWrite) (f : Field) (floor : Nat) : State :=
  match wget w f with | some v => if floor ≤ v then setFld s f v else s | none => s

/-- Writes of the HAT block. -/
def hatWrite (s : State) (w : RegWrite) : State :=
  let off := w.off / 8 * 8
  if off = 0x900010 then
    floorField (floorField (putSome s w [] [Reg.HAT_PROJ.lowjob_cycles]) w Reg.HAT_PROJ.home_base_ns s.hatch.floorBase) w
      Reg.HAT_PROJ.home_per_ns s.hatch.floorPer
  else if off = 0x900100 then histWrite s w
  else if off = 0x900200 then (match wget w Reg.HAT_TRK_SEL.handle with | some h => trkSelect s h | none => s)
  else if 0x908000 ≤ off && off < 0x928000 then
    let i := (off - 0x908000) / 32
    if off % 32 = 24 then
      match wget w Reg.HAT_TALLY.add with
      | some n => tallyAddWrite s i n (wget w Reg.HAT_TALLY.subtract = some 1)
      | none => s
    else
      let old := tallyBalance s i
      let s := putFields s w
      if old < tallyBalance s i then tallyRaised s i else s
  else putFields s w

/-- A write of TOK_CFG. -/
def tokCfgWrite (s : State) (w : RegWrite) : State :=
  let h := wgetD w Reg.TOK_CFG.head (fld s Reg.TOK_CFG.head)
  let t := wgetD w Reg.TOK_CFG.tail (fld s Reg.TOK_CFG.tail)
  if h < 4096 || t < 4096 || 1048576 < h + t then s else storeFields s w [] [Reg.TOK_CFG.head, Reg.TOK_CFG.tail]

/-- Writes of the CAM block. -/
def camRegWrite (s : State) (w : RegWrite) : State :=
  let off := w.off / 8 * 8
  if off < 0xC00200 then
    let b := (off - 0xC00000) / 8
    let s := storeFields s w [b] [Reg.CAM_BANK.writable, Reg.CAM_BANK.owner]
    match wget w Reg.CAM_BANK.client with
    | some c => if (camBank s b).isEmpty then { s with cam := { s.cam with clients := tset s.cam.clients b c } } else s
    | none => s
  else if off = 0xC00330 then
    let s := storeFields s w [] [Reg.CAM_LOOKUP_CTL.width]
    if wget w Reg.CAM_LOOKUP_CTL.go = some 1 then hostLookup s (fld s Reg.CAM_LOOKUP_CTL.width) else s
  else putFields s w

/-- A write of VSR_LOAD_CTL: the image is what host memory holds at VSR_LOAD_SRC, a free value here. -/
def vsrWrite (s : State) (w : RegWrite) : State :=
  let s := storeFields s w [] [Reg.VSR_LOAD_CTL.op, Reg.VSR_LOAD_CTL.shared, Reg.VSR_LOAD_CTL.slot, Reg.VSR_LOAD_CTL.context, Reg.VSR_LOAD_CTL.length]
  let slot := fld s Reg.VSR_LOAD_CTL.slot
  let len := fld s Reg.VSR_LOAD_CTL.length
  if wget w Reg.VSR_LOAD_CTL.go ≠ some 1 then s
  else match fld s Reg.VSR_LOAD_CTL.op with
    | 1 => vsrLoad s slot (fld s Reg.VSR_LOAD_CTL.context) (flag s Reg.VSR_LOAD_CTL.shared) len
        ((List.range len).map fun i => Config.hostByte s.timebase (fld s Reg.VSR_LOAD_SRC.addr + i) % 256)
    | 2 => vsrFree s slot
    | _ => s

/-- Writes of the LNK block. -/
def lnkWrite (s : State) (w : RegWrite) : State :=
  let off := w.off / 8 * 8
  if off < 0x1300000 then
    let n := (off - 0x1000000) / 0x10000
    let k := off % 0x10000
    if k = 0 then lnkCtlWrite s n w
    else if 0x40 ≤ k && k < 0x80 then shaperWrite s n ((k - 0x40) / 8) w
    else putFields s w
  else if off = 0x1300010 then
    let s := putSome s w [] [Reg.LNK_EXPCFG.period_ns, Reg.LNK_EXPCFG.guard_ns, Reg.LNK_EXPCFG.phase_ns, Reg.LNK_EXPCFG.miss_limit]
    match wget w Reg.LNK_EXPCFG.window_ns with
    | some v => if v < fld s Reg.LNK_EXPCFG.period_ns then setFld s Reg.LNK_EXPCFG.window_ns v else s
    | none => s
  else putFields s w

/-- Writes of the ETH block: a port that is disabled goes DOWN. -/
def ethWrite (s : State) (w : RegWrite) : State :=
  let off := w.off / 8 * 8
  if off < 0x140C000 then
    let p := (off - 0x1400000) / 0x1000
    let k := off % 0x1000
    if k = 0 then
      let s := putFields s w
      if fldAt s Reg.ETH_CTL.enable [p] = 0 then ethGoDown s p else s
    else if 0x40 ≤ k && k < 0x80 then shaperWrite s (48 + p) ((k - 0x40) / 8) w
    else putFields s w
  else putFields s w

/-- A write of RMA_PFC of a port (R474). -/
def pfcWrite (s : State) (w : RegWrite) (p : Nat) : State :=
  let xoff := wgetD w Reg.RMA_PFC.xoff_kib (fldAt s Reg.RMA_PFC.xoff_kib [p])
  let xon := wgetD w Reg.RMA_PFC.xon_kib (fldAt s Reg.RMA_PFC.xon_kib [p])
  if xoff ≤ xon || 1536 < xoff then s
  else storeFields s w [p] [Reg.RMA_PFC.enable, Reg.RMA_PFC.xoff_kib, Reg.RMA_PFC.xon_kib, Reg.RMA_PFC.storm_ms]

/-- A write of RMA_SPILL (R471): the count only while spilling is off, off only while no connection is spilled. -/
def spillWrite (s : State) (w : RegWrite) : State :=
  let on := flag s Reg.RMA_SPILL.enable
  let s := match wget w Reg.RMA_SPILL.count with | some v => if on || 1048576 < v then s else setFld s Reg.RMA_SPILL.count v | none => s
  match wget w Reg.RMA_SPILL.enable with
  | some 1 => setFld s Reg.RMA_SPILL.enable 1
  | some _ => if (tvals s.rma.conns).any fun c => match c.place with | .spilled _ => true | .fetching _ => true | _ => false then s
      else setFld s Reg.RMA_SPILL.enable 0
  | none => s

/-- A write of RMA_AREA: ignored while any region is valid, or beyond the free space. -/
def rmaAreaWrite (s : State) (w : RegWrite) : State :=
  match wget w Reg.RMA_AREA.units with
  | some v =>
    if !s.rma.regions.isEmpty || decide (storeUnits s + fld s Reg.RMA_AREA.units * 16384 < storeUsed s + v * 16384) then s
    else setFld s Reg.RMA_AREA.units v
  | none => s

/-- A write of RMA_CONN_CTL. -/
def connCtlWrite (s : State) (w : RegWrite) : State :=
  if fld s Reg.RMA_CONN_CTL.busy = 1 then s
  else
    let s := storeFields s w [] [Reg.RMA_CONN_CTL.op, Reg.RMA_CONN_CTL.conn]
    let n := fld s Reg.RMA_CONN_CTL.conn
    if wget w Reg.RMA_CONN_CTL.go ≠ some 1 then s
    else match fld s Reg.RMA_CONN_CTL.op with
      | 1 => refreshPools (connCreate s)
      | 2 => refreshPools (connDestroy s n)
      | 3 => connRead s n
      | _ => s

/-- A write of RMA_PD: PD 0 keeps no owner; no PD with regions or connections becomes invalid (R462). -/
def pdWrite (s : State) (w : RegWrite) (pd : Nat) : State :=
  let s := if pd = 0 then s else storeFields s w [pd] [Reg.RMA_PD.owner]
  let used := (tvals s.rma.regions).any (·.pd = pd) || (tvals s.rma.conns).any (·.pd = pd)
  match wget w Reg.RMA_PD.valid with
  | some v => if v = 0 && used then s else setFldAt s Reg.RMA_PD.valid [pd] (if pd = 0 then 1 - v else v)
  | none => s

/-- Writes of the RMA block. -/
def rmaWrite (s : State) (w : RegWrite) : State :=
  let off := w.off / 8 * 8
  if 0x1500010 ≤ off && off < 0x1500070 then pfcWrite s w ((off - 0x1500010) / 8)
  else if off = 0x1500080 then if flag s Reg.RMA_SPILL.enable then s else putFields s w
  else if off = 0x1500088 then spillWrite s w
  else if off = 0x1500090 then rmaAreaWrite s w
  else if off = 0x15000A0 then connCtlWrite s w
  else if off = 0x1500200 then
    let s := storeFields s w [] [Reg.RMA_MR_CTL.index]
    if wget w Reg.RMA_MR_CTL.go = some 1 then regionWrite s (fld s Reg.RMA_MR_CTL.index) else s
  else if 0x1501000 ≤ off && off < 0x1501800 then pdWrite s w ((off - 0x1501000) / 8)
  else if 0x1502000 ≤ off && off < 0x1503000 then refreshPools (putFields s w)
  else putFields s w

/-- A write of EVT_RATE lowers an allowance above the new ceiling to that ceiling (R509). -/
def lowerAllowances (s : State) : State :=
  let e := s.events
  { s with events := { e with allow1 := Nat.min e.allow1 (fld s Reg.EVT_RATE.c1 * 1000), allow2 := Nat.min e.allow2 (fld s Reg.EVT_RATE.c2 * 1000),
                              allow3 := Nat.min e.allow3 (fld s Reg.EVT_RATE.c3 * 1000) } }

/-- Writes of the block of events, maintenance and trunks. -/
def evtWrite (s : State) (w : RegWrite) : State :=
  let off := w.off / 8 * 8
  if off = 0x1601008 then
    let s := storeFields s w [] [Reg.MNT_REQ.activity, Reg.MNT_REQ.target, Reg.MNT_REQ.fw_slot]
    if wget w Reg.MNT_REQ.go = some 1 then mntRequest s (fld s Reg.MNT_REQ.activity) (fld s Reg.MNT_REQ.target) (fld s Reg.MNT_REQ.fw_slot) else s
  else if off = 0x16020A0 then
    let s := storeFields s w [] [Reg.CKP_HANDOVER.device]
    if wget w Reg.CKP_HANDOVER.go = some 1 then startHandover s else s
  else if off = 0x16020A8 then
    match wget w Reg.CKP_TRUNK_DEL.serial, wget w Reg.CKP_TRUNK_DEL.context with
    | some a, some c => delTrunk s a c
    | _, _ => s
  else if off = 0x1600008 then lowerAllowances (putFields s w)
  else putFields s w

/-- A write into a command area (R206, R207, R209): a 4-byte write changes its half; an abort takes effect at a free instant. -/
def cmdAreaWrite (s : State) (w : RegWrite) : State :=
  let (n, t, i) := areaPlace (w.off / 8 * 8)
  let old := if i = 15 then 0 else readArea s n t i
  let v := if w.size = 8 then wvalue w else if w.off % 8 = 4 then old % 2 ^ 32 + wvalue w else old / 2 ^ 32 * 2 ^ 32 + wvalue w % 2 ^ 32
  let s := writeArea s n t i v (w.size = 8)
  if i = 15 && bitOf v 1 && flag s Reg.NBU_CTL.host_jobs && nbuPresent s n then
    let (ran, cycles) := Config.abortAt s.timebase n t
    endJob s n t ran cycles .abort
  else s

/-- The effect of a write on the register it falls on, by block. -/
def blockWrite (s : State) (w : RegWrite) : State :=
  let off := w.off / 8 * 8
  match off / 2 ^ 20 with
  | 0x00 => topWrite s w
  | 0x01 => if off = 0x100000 then resetWrite s w else putFields s w
  | 0x02 => if off = 0x200000 then layCtlWrite s w else putFields s w
  | 0x03 => if off = 0x300008 then shadowRingWrite s w else putFields s w
  | 0x04 => if off = 0x400008 then wmWrite s w else putFields s w
  | 0x06 => if off = 0x600000 then nbuCtlWrite s w else putFields s w
  | 0x07 => denWrite s w
  | 0x08 => if off = 0x800010 then creditWrite s w else putFields s w
  | 0x09 => hatWrite s w
  | 0x0B => if off = 0xB00000 then tokCfgWrite s w else if off = 0xB00200 then embCfgWrite s w else putFields s w
  | 0x0C => camRegWrite s w
  | 0x0D => if off = 0xD00018 then vsrWrite s w else putFields s w
  | 0x10 | 0x11 | 0x12 | 0x13 => lnkWrite s w
  | 0x14 => ethWrite s w
  | 0x15 => rmaWrite s w
  | 0x16 => evtWrite s w
  | 0x17 => if off = 0x1700000 then secCfgWrite s w else if off = 0x1700100 then measWrite s w else putFields s w
  | _ => putFields s w

/-- A write reaches BAR0 as the access rules have it (R565, R568, R6): 4 or 8 bytes within a register that exists. -/
def regWrite (s : State) (w : RegWrite) : State :=
  if !(w.size = 4 || w.size = 8) || w.off % w.size ≠ 0 || !registerAt (w.off / 8 * 8) then badAccess s w.off false true
  else if !unitAt s.part w.off then s
  else if inCommandArea (w.off / 8 * 8) then cmdAreaWrite s w
  else blockWrite s w

/-- What follows from a write, where the block is still up. -/
def settleHost (s : State) : State := whenLive (fun s => settleAll (settleRma (settleLinks s))) s

/-- REGISTER_WRITE (R567). -/
def execRegisterWrite (w : RegWrite) (s : State) : Host.Outcome State Fault Refusal :=
  run s (hostAccess fun s => settleHost (regWrite (dropShadow s) w))

/-! ### The rows of select registers -/

/-- TOP_SNAP_FREEZE (R571): TOP_SNAP_CTL with a block number and freeze. -/
def execTopSnapFreeze (block : Nat) (s : State) : Host.Outcome State Fault Refusal :=
  run s (hostAccess fun s =>
    let s := setFld (dropShadow s) Reg.TOP_SNAP_CTL.block block
    freezeBlock s (fld s Reg.TOP_SNAP_CTL.block))

/-- TOP_SNAP_RELEASE (R571): TOP_SNAP_CTL with a block number and release. -/
def execTopSnapRelease (block : Nat) (s : State) : Host.Outcome State Fault Refusal :=
  run s (hostAccess fun s => releaseBlock (setFld (dropShadow s) Reg.TOP_SNAP_CTL.block block))

/-- The selection of HAT_HIST_SEL. -/
def histSelect (s : State) (cls metric : Nat) : State :=
  setFld (setFld s Reg.HAT_HIST_SEL.cls cls) Reg.HAT_HIST_SEL.metric metric

/-- HAT_HIST_SNAP (R572). -/
def execHatHistSnap (cls metric : Nat) (s : State) : Host.Outcome State Fault Refusal :=
  run s (hostAccess fun s => histSnap (histSelect (dropShadow s) cls metric))

/-- HAT_HIST_CLEAR (R572): freezes, then clears. -/
def execHatHistClear (cls metric : Nat) (s : State) : Host.Outcome State Fault Refusal :=
  run s (hostAccess fun s => histClear (histSnap (histSelect (dropShadow s) cls metric)))

/-- HAT_TRK_SEL_WRITE (R572). -/
def execHatTrkSelWrite (handle : Nat) (s : State) : Host.Outcome State Fault Refusal :=
  run s (hostAccess fun s => trkSelect (dropShadow s) handle)

/-- SEC_MEAS_SNAP (R572). -/
def execSecMeasSnap (index : Nat) (s : State) : Host.Outcome State Fault Refusal :=
  run s (hostAccess fun s => measSnap (setFld (dropShadow s) Reg.SEC_MEAS_SEL.index index))

/-! ### Reads -/

/-- A read of `size` bytes at an offset (R565, R568 to R570): the value, and the state with its shadow as the read leaves it. -/
def hostRead (s : State) (off size : Nat) : State × Nat :=
  let base := off / 8 * 8
  let was := s.host.shadow
  let s := dropShadow s
  if !List.contains [1, 2, 4, 8] size || off % size ≠ 0 || !registerAt base then (badAccess s off false false, 0)
  else
    let v := readReg s base
    if size = 4 && off % 8 = 0 then ({ s with host := { s.host with shadow := some { off := base, high := v / 2 ^ 32 } } }, v % 2 ^ 32)
    else if size = 4 && was.elim false (fun h => h.off = base) then (s, was.elim 0 (·.high))
    else (s, bitsOf v (8 * (off % 8)) (8 * size))

/-- BAR0_READ_LOW_HALF (R570): a read of BAR0; one of 4 bytes at a register's low half fills the shadow. -/
def execBar0ReadLowHalf (off size : Nat) (s : State) : Host.Outcome State Fault Refusal :=
  run s (hostAccess fun s => let (t, v) := hostRead s off size; emit t (.read v))

end Sys2Proof.Machine
end

