-- ==== Sys2Proof/Machine/Debug.lean ====
section
/-! DEFINITION. The Criti monitor, JTAG and debug access (chapter "Criti monitor and debug access"). -/
namespace Sys2Proof.Machine

/-! ### Challenge and response (R617 to R619) -/

/-- Draw a challenge: nonce, TOP_ID, start count, device ID. -/
def drawChallenge (s : State) : State × List Nat :=
  let (s, n) := takeNonce s
  (s, leBytes 32 n ++ leBytes 8 (readReg s 0) ++ leBytes 2 s.startCount ++ leBytes 2 s.device)

/-- The digest that a response signs. -/
def responseDigest (c : List Nat) (level : Nat) : Nat := beNat (sha384 ([0x53, 0x59, 0x44, 0x42] ++ c ++ [level]))

/-- A response names a level and an enrolled slot, and its signature verifies. -/
def responseGood (s : State) (c : List Nat) (level slot r t : Nat) : Bool :=
  (level = 1 || level = 2) && (match slotKey s slot with | some q => ecdsaVerify q (responseDigest c level) r t | none => false)

/-- An interface may issue a challenge: its delay after failures is over. -/
def mayChallenge (s : State) (a : AuthSide) : Bool := decide (a.notBefore ≤ s.timebase)

/-- The interface after a failed check: the delay starts at 1 s and doubles up to 64 s. -/
def afterFailure (s : State) (a : AuthSide) : AuthSide :=
  { challenge := none, failures := a.failures + 1, notBefore := s.timebase + 1000000000 * 2 ^ Nat.min a.failures 6 }

/-- Count a failed check and post DBG_AUTH_FAIL. -/
def responseFailed (s : State) (interface : Nat) : State :=
  let s := bump s Reg.DBG_COUNT.auth_fail
  report s 0x1802 interface 0 [interface, fld s Reg.DBG_COUNT.auth_fail]

/-- The controller is under lockdown (R520). -/
def locked (s : State) : Bool := flag s Reg.SEC_CFG.lockdown

/-! ### What the monitor runs on (R613, R614, R626) -/

/-- Boot ROM or the resident firmware runs: out of internal reset, with power. -/
def running (s : State) : Bool :=
  match s.clk.phase with
  | .service | .saving | .warm | .rom => true
  | _ => false

/-- Criti takes input: MON_CFG.enable is 1, and full Criti's core is not halted. -/
def critiTakes (s : State) : Bool := running s && flag s Reg.MON_CFG.enable && (romForm s || !s.dbg.halted.contains 3)

/-- Print a response. -/
def critiSay (s : State) (names : List String) (values : List Nat) (st : Status) : State := emit s (.criti names values st)

/-- A line of input (R614, R615): the new rate applies from it (R613). It is refused as an unknown command where the form lacks
it, for a malformed argument, outside privileged mode, or for an absent unit. -/
def critiGate (full priv : Bool) (malformed absent : State → Bool) (f : State → State) (s : State) : State :=
  if !critiTakes s then s
  else
    let s := { s with dbg := { s.dbg with baud := fld s Reg.MON_CFG.baud } }
    if (full && romForm s) || malformed s then critiSay s [] [] .versionMismatch
    else if priv && !s.dbg.priv then critiSay s [] [] .protection
    else if absent s then critiSay s [] [] .unitAbsent
    else f s

/-- Count a completed command. -/
def critiCount (s : State) : State := { s with dbg := { s.dbg with commands := wrapAdd 32 s.dbg.commands 1 } }

/-- A command that is counted when it has run. -/
def critiLine (full priv : Bool) (malformed absent : State → Bool) (f : State → State) : State → State :=
  critiGate full priv malformed absent fun s => critiCount (f s)

/-- A line that prints and changes nothing else. -/
def critiPrint (full : Bool) (malformed absent : State → Bool) (f : State → List String × List Nat) : State → State :=
  critiLine full false malformed absent fun s => critiSay s (f s).1 (f s).2 .ok

/-- No argument, no unit named. -/
def none_ (_ : State) : Bool := false

/-- The values of fields as a `rd` gives them. -/
def fieldList (s : State) (is : List Nat) (fs : List Field) : List Nat := fs.map fun f => readField s f is

/-! ### Unprivileged commands -/

/-- The commands of the form and mode in force. -/
def critiCommands (s : State) : List String :=
  ["help", "ver", "stat"] ++ (if romForm s then [] else ["cap"]) ++ ["temp", "rails", "clk"] ++
    (if romForm s then [] else ["link", "evt"]) ++ ["rd", "baud", "auth", "exit"] ++ (if s.dbg.priv then ["wr", "reset"] else [])

/-- CRITI_HELP (R615). -/
def execCritiHelp (s : State) : Host.Outcome State Fault Refusal :=
  run s (critiPrint false none_ none_ fun s => (critiCommands s, []))

/-- CRITI_VER (R615): ROM prints firmware version 0. -/
def execCritiVer (s : State) : Host.Outcome State Fault Refusal :=
  run s (critiPrint false none_ none_ fun s =>
    ([], fieldList s [] [Reg.TOP_ID.pci_device, Reg.TOP_ID.pci_vendor, Reg.TOP_ID.part, Reg.TOP_ID.stepping] ++
      [if romForm s then 0 else readField s Reg.TOP_FW.version []] ++
      fieldList s [] [Reg.TOP_FW.svn, Reg.TOP_DEVICE.device, Reg.TOP_DEVICE.start_count]))

/-- CRITI_STAT (R615). -/
def execCritiStat (s : State) : Host.Outcome State Fault Refusal :=
  run s (critiPrint false none_ none_ fun s =>
    ([], fieldList s [] [Reg.CLK_START.kind, Reg.CLK_START.cause, Reg.CLK_START.fallback, Reg.CLK_START.start_count, Reg.CLK_START.save_us,
      Reg.CLK_START.orphans, Reg.CLK_READY.attic_links, Reg.CLK_READY.store, Reg.CLK_READY.full, Reg.CLK_READY.pcie, Reg.LAY_ACTIVE.serial,
      Reg.SEC_STATE.lockdown, Reg.SEC_STATE.sticky]))

/-- CRITI_CAP (R615): the capability word and the TOP_CAP_ registers, word by word. -/
def execCritiCap (s : State) : Host.Outcome State Fault Refusal :=
  run s (critiPrint true none_ none_ fun s => ([], [0x10, 0x20, 0x28, 0x30, 0x38, 0x40, 0x48, 0x50].map (readReg s)))

/-- The hottest of the sensors at a place. -/
def hottestAt (s : State) (place : Nat) : Nat := maxOf ((s.clk.sensors.zipIdx.filter fun x => Config.sensorPlace x.2 = place).map (·.1))

/-- CRITI_TEMP (R615): the hottest sensor, then the maximum of each die and of each stack of the part. -/
def execCritiTemp (s : State) : Host.Outcome State Fault Refusal :=
  run s (critiPrint false none_ none_ fun s =>
    ([], maxOf s.clk.sensors :: ([0, 1] ++ (partStacks s.part).map (2 + ·)).map (hottestAt s)))

/-- The rails in table order. -/
def railNames : List String :=
  ["VDD_CORE_A", "VDD_CORE_B", "VDD_SRAM", "VDD_STK", "VDD_STKIO", "VDD_SERDES", "VDD_SERDES_HV", "VDD_DDR", "VDD_IO18"]

/-- Nominal voltages in mV, in the same order. -/
def railNominal : List Nat := [750, 750, 850, 1100, 450, 900, 1200, 1100, 1800]

/-- CRITI_RAILS (R615): each rail's last sample in mV, then the droop events since the start. -/
def execCritiRails (s : State) : Host.Outcome State Fault Refusal :=
  run s (critiPrint false none_ none_ fun s =>
    (railNames, (railNominal.zipIdx.map fun x => tget x.1 s.clk.rails x.2) ++ [s.clk.droops]))

/-- CRITI_CLK (R615): the fields of each reference, then of each PLL. -/
def execCritiClk (s : State) : Host.Outcome State Fault Refusal :=
  run s (critiPrint false none_ none_ fun s =>
    ([], ((List.range 7).map fun r => fieldList s [r] [Reg.CLK_REF.stable, Reg.CLK_REF.lost, Reg.CLK_REF.count, Reg.CLK_REF.ppm]).flatten ++
      ((List.range 31).map fun p => fieldList s [p] [Reg.CLK_PLL.set_mhz, Reg.CLK_PLL.state, Reg.CLK_PLL.clk_loss, Reg.CLK_PLL.clk_unlock,
        Reg.CLK_PLL.coast_mhz, Reg.CLK_PLL.measured_mhz, Reg.CLK_PLL.relocks]).flatten))

/-- CRITI_LINK (R615): LNK_STATUS and LNK_ERR of a link. -/
def execCritiLink (link : Nat) (s : State) : Host.Outcome State Fault Refusal :=
  run s (critiPrint true (fun _ => decide (48 ≤ link)) (fun s => !portPresent s.part link) fun s =>
    ([], [readReg s (0x1000000 + 0x10000 * link + Reg.LNK_STATUS.state.addr % 0x10000),
          readReg s (0x1000000 + 0x10000 * link + Reg.LNK_ERR.crc.addr % 0x10000)]))

/-- CRITI_EVT (R615): the last `n` records, 16 where none is named. -/
def execCritiEvt (n : Option Nat) (s : State) : Host.Outcome State Fault Refusal :=
  let k := n.getD 16
  run s (critiPrint true (fun _ => k = 0 || decide (64 < k)) none_ fun s =>
    ([], ((s.events.recent.drop (s.events.recent.length - k)).map fun e => [e.code, e.cls, e.count, e.first, e.last, e.source]).flatten))

/-- The island of a block is out of reset while ROM Criti runs: the registers of the control, security, management and timebase
islands. -/
def romReads (off : Nat) : Bool := [0x00, 0x01, 0x02, 0x16, 0x17, 0x18].contains (blockOf off)

/-- A register as the monitor or the debug port reads it (R616). -/
def debugRead (s : State) (off : Nat) : Nat :=
  if (romForm s && !romReads off) || !registerAt off then 0 else readReg s off

/-- CRITI_RD (R616): `n` registers from an offset. -/
def execCritiRd (addr : Nat) (n : Option Nat) (s : State) : Host.Outcome State Fault Refusal :=
  let k := n.getD 1
  run s (critiPrint false (fun _ => k = 0 || decide (64 < k) || addr % 8 ≠ 0 || decide (2 ^ 26 ≤ addr)) none_ fun s =>
    ([], ((List.range k).map fun i => [addr + 8 * i, debugRead s (addr + 8 * i)]).flatten))

/-- The code of a UART rate (R613). -/
def baudCode (rate : Nat) : Option Nat :=
  if rate = 115200 then some 0 else if rate = 921600 then some 1 else if rate = 3000000 then some 2 else none

/-- CRITI_BAUD (R613): the rate applies from the next line. -/
def execCritiBaud (rate : Nat) (s : State) : Host.Outcome State Fault Refusal :=
  run s (critiLine false false (fun _ => (baudCode rate).isNone) none_ fun s =>
    critiSay (setFld s Reg.MON_CFG.baud ((baudCode rate).getD 0)) [] [] .ok)

/-- Enter privileged mode (R618, R619). -/
def openPriv (s : State) (slot : Nat) : State :=
  let s := setSticky { s with dbg := { s.dbg with priv := true } } 1
  report (bump s Reg.DBG_COUNT.grants) 0x1801 0 0 [0, 2, slot]

/-- The response line of `auth` against the challenge just printed. -/
def critiAnswer (s : State) (c : List Nat) (level slot r t : Nat) : State :=
  let fresh (a : AuthSide) (s : State) : State := { s with dbg := { s.dbg with criti := a } }
  if level = 2 && locked s then critiSay s [] c .protection
  else if responseGood s c level slot r t then
    let s := fresh {} s
    critiSay (if level = 2 then openPriv s slot else s) [] c .ok
  else critiSay (responseFailed (fresh (afterFailure s s.dbg.criti) s) 0) [] c .protection

/-- CRITI_AUTH (R618): the challenge is printed, and the next line holds level, slot and signature. -/
def execCritiAuth (level slot r t : Nat) (s : State) : Host.Outcome State Fault Refusal :=
  run s (critiLine false false (fun _ => decide (256 ≤ level) || decide (256 ≤ slot) || decide (2 ^ 384 ≤ r) || decide (2 ^ 384 ≤ t)) none_ fun s =>
    if !mayChallenge s s.dbg.criti then critiSay s [] [] .protection
    else
      let (s, c) := drawChallenge s
      critiAnswer { s with dbg := { s.dbg with criti := { s.dbg.criti with challenge := some c } } } c level slot r t)

/-- CRITI_EXIT (R614). -/
def execCritiExit (s : State) : Host.Outcome State Fault Refusal :=
  run s (critiLine false false none_ none_ fun s => critiSay { s with dbg := { s.dbg with priv := false } } [] [] .ok)

/-! ### Privileged commands -/

/-- A 64-bit write of BAR0 by the monitor or the debug port (R616); its effect is that of the same write of the host. -/
def debugWrite (s : State) (off value : Nat) : State :=
  if romForm s && !romReads off then s else regWrite s { off := off, size := 8, value := value }

/-- CRITI_WR (R616). -/
def execCritiWr (addr value : Nat) (s : State) : Host.Outcome State Fault Refusal :=
  run s fun s => settleHost (critiGate false true (fun _ => addr % 8 ≠ 0 || decide (2 ^ 26 ≤ addr) || decide (2 ^ 64 ≤ value)) none_ (fun s =>
    debugWrite (critiCount (critiSay s [] [] .ok)) addr value) s)

/-- CRITI_RESET (R541): CLK_RESET is written with the key. -/
def execCritiReset (cold : Bool) (s : State) : Host.Outcome State Fault Refusal :=
  run s (critiGate false true none_ none_ fun s =>
    let s := critiCount (critiSay s [] [] .ok)
    if cold then clkCold s 0xC5 else clkWarm s 0xC5)

/-- CRITI_BAD_LINE (R615): longer than 255 characters, or no command. -/
def execCritiBadLine (s : State) : Host.Outcome State Fault Refusal :=
  run s (critiLine false false (fun _ => true) none_ id)

/-! ### The TAP (R620 to R622) -/

/-- The TAP has power: it runs on TCK, whatever the controller does. -/
def onTap (f : State → State) (s : State) : State := if s.clk.phase = .off then s else f s

/-- What the instruction register captures (R620). -/
def irCapture (s : State) : Nat := 1 + 4 * b2n (locked s) + 8 * b2n (s.dbg.level ≠ 0) + 16 * b2n s.dbg.refused

/-- Load an instruction: the capture is shifted out; `scan` tells whether it takes effect on the lands, `refused` whether it was
turned into BYPASS. -/
def loadIr (s : State) (ir : Nat) (scan : Option Nat) (refused : Bool) : State :=
  let s := emit s (.tdo 8 (irCapture s))
  { s with dbg := { s.dbg with ir := ir, scan := scan, refused := refused } }

/-- JTAG_TEST_LOGIC_RESET (R620): IDCODE is selected, a grant ends. -/
def execJtagTestLogicReset (s : State) : Host.Outcome State Fault Refusal :=
  run s (onTap fun s => { s with dbg := { s.dbg with ir := 2, scan := none, refused := false, level := 0, slot := 0 } })

/-- Internal reset is held by SYS_RST_N low (R543, R595). -/
def heldByPin (s : State) : Bool := !s.clk.pins.sysRstN && (s.clk.phase = .held || s.clk.phase = .saved)

/-- The bypass register captures 0. -/
def bypassScan (s : State) : State := emit s (.tdo 1 0)

/-- The boundary-scan register captures the levels of the lands. -/
def boundaryScan (s : State) : State :=
  let (n, v) := Config.boundary s.link.entropy
  emit { s with link := { s.link with entropy := s.link.entropy + 1 } } (.tdo n (v % 2 ^ n))

/-- An instruction that drives the lands (R622): in effect only while internal reset is held and outside lockdown, else BYPASS;
the warm record is discarded. -/
def driving (code : Nat) (bypass : Bool) (s : State) : State :=
  if heldByPin s && !locked s then
    let s := loadIr s code (some code) false
    let s := if s.clk.phase = .saved then { s with clk := { s.clk with warm := none } } else s
    if bypass then bypassScan s else boundaryScan s
  else bypassScan (loadIr s code none true)

/-- EXTEST (R622). -/
def execExtest (s : State) : Host.Outcome State Fault Refusal := run s (onTap (driving 0x00 false))
/-- SAMPLE_PRELOAD (R622): observes without driving. -/
def execSamplePreload (s : State) : Host.Outcome State Fault Refusal := run s (onTap fun s => boundaryScan (loadIr s 0x01 none false))

/-- The identification register (R621). -/
def idcode (s : State) : Nat := 1 + Config.jep106 % 2 ^ 11 * 2 + pciDevice s.part * 2 ^ 12 + s.stepping / 16 % 16 * 2 ^ 28

/-- IDCODE (R621). -/
def execIdcode (s : State) : Host.Outcome State Fault Refusal := run s (onTap fun s => emit (loadIr s 0x02 none false) (.tdo 32 (idcode s)))
/-- CLAMP (R622). -/
def execClamp (s : State) : Host.Outcome State Fault Refusal := run s (onTap (driving 0x03 true))
/-- HIGHZ (R622). -/
def execHighz (s : State) : Host.Outcome State Fault Refusal := run s (onTap (driving 0x04 true))
/-- EXTEST_PULSE (R622). -/
def execExtestPulse (s : State) : Host.Outcome State Fault Refusal := run s (onTap (driving 0x05 false))
/-- EXTEST_TRAIN (R622). -/
def execExtestTrain (s : State) : Host.Outcome State Fault Refusal := run s (onTap (driving 0x06 false))
/-- BYPASS (R620): 0xFF and every code the table does not list. -/
def execBypass (s : State) : Host.Outcome State Fault Refusal := run s (onTap fun s => bypassScan (loadIr s 0xFF none false))

/-! ### The debug port (R623, R624) -/

/-- A grant of a level (R619, R623). -/
def grantLevel (s : State) (level slot : Nat) : State :=
  let s := bump { s with dbg := { s.dbg with level := level, slot := slot } } Reg.DBG_COUNT.grants
  if level = 2 then report (setSticky s 0) 0x1801 1 0 [1, 2, slot] else s

/-- The response that Update-DR finds, against the latest challenge. -/
def jtagAnswer (s : State) (level slot rsv r t : Nat) : State :=
  match s.dbg.jtag.challenge with
  | none => s
  | some c =>
    let side (a : AuthSide) (s : State) : State := { s with dbg := { s.dbg with jtag := a } }
    if level = 2 && locked s then side { s.dbg.jtag with challenge := none } s
    else if rsv = 0 && responseGood s c level slot r t then grantLevel (side {} s) level slot
    else responseFailed (side (afterFailure s s.dbg.jtag) s) 1

/-- DBG_AUTH (R623): Capture-DR draws and shifts out a challenge, zeros while the delay of R617 runs; Update-DR checks the
response, whose bytes 3 and 2 are `rsv`. -/
def execDbgAuth (level slot rsv r t : Nat) (s : State) : Host.Outcome State Fault Refusal :=
  run s (onTap fun s =>
    let s := loadIr s 0x10 none false
    if running s && mayChallenge s s.dbg.jtag then
      let (s, c) := drawChallenge s
      let s := emit { s with dbg := { s.dbg with jtag := { s.dbg.jtag with challenge := some c } } } (.tdo 800 (leNat c))
      jtagAnswer s level slot rsv r t
    else emit s (.tdo 800 0))

/-- Where a bank pair's regions end that the controller lays its own objects out in (R68): the place of an object there is not
stated. -/
def managedAttic (s : State) (addr : Nat) : Bool := decide (addr % bankPair < vsrBase s)

/-- A register of a steward core as read: fixed while the core is halted. -/
def coreRead (s : State) (core reg : Nat) : State × Nat :=
  let k := 64 * core + reg
  if reg = 0 then (s, b2n (s.dbg.halted.contains core))
  else match tget? s.dbg.cores k with
    | some v => (s, v)
    | none =>
      let v := Config.fresh s.link.entropy % 2 ^ 64
      let s := { s with link := { s.link with entropy := s.link.entropy + 1 } }
      (if s.dbg.halted.contains core then { s with dbg := { s.dbg with cores := tset s.dbg.cores k v } } else s, v)

/-- Forget what a core's registers held. -/
def coreRuns (s : State) (core : Nat) : State := { s with dbg := { s.dbg with cores := tfilter (fun k _ => k / 64 ≠ core) s.dbg.cores } }

/-- A write of a register of a steward core (R624, R626): bit 0 of control halts it, bit 1 steps a halted one. -/
def coreWrite (s : State) (core reg value : Nat) : State :=
  let was := s.dbg.halted.contains core
  if reg = 0 then
    if bitOf value 0 then
      let s := if was then s else report { s with dbg := { s.dbg with halted := sortBy (fun a b => decide (a ≤ b)) (core :: s.dbg.halted) } } 0x1803 core 0 [core]
      if bitOf value 1 then coreRuns s core else s
    else coreRuns { s with dbg := { s.dbg with halted := s.dbg.halted.filter (· ≠ core) } } core
  else if was then { s with dbg := { s.dbg with cores := tset s.dbg.cores (64 * core + reg) (value % 2 ^ 64) } } else s

/-- An address that a space has (R624). -/
def spaceHas (s : State) (space addr : Nat) : Bool :=
  match space with
  | 0 => addr % 8 = 0 && decide (addr < 2 ^ 26)
  | 1 => decide (addr + 8 ≤ 2 ^ 28)
  | 2 => addr % 8 = 0 && (partStacks s.part).contains (addr / 2 ^ 33)
  | _ => decide (addr / 256 % 256 < 34)

/-- What a read finds in a space. -/
def spaceRead (s : State) (space addr : Nat) : State × Nat :=
  match space with
  | 0 => (s, debugRead s addr)
  | 1 => (s, leNat (readBytes s.sram addr 8))
  | 2 =>
    if managedAttic s addr then
      ({ s with link := { s.link with entropy := s.link.entropy + 1 } }, Config.fresh s.link.entropy % 2 ^ 64)
    else (s, leNat (readBytes s.nbu.attic addr 8))
  | _ => coreRead s (addr % 4) (addr / 256 % 256)

/-- A write into a space. -/
def spaceWrite (s : State) (space addr value : Nat) : State :=
  match space with
  | 0 => debugWrite s addr value
  | 1 => { s with sram := writeBytes s.sram addr (leBytes 8 value) }
  | 2 => { s with nbu := { s.nbu with attic := writeBytes s.nbu.attic addr (leBytes 8 value) } }
  | _ => coreWrite s (addr % 4) (addr / 256 % 256) value

/-- The grant permits an operation: level 1 reads BAR0, level 2 everything. -/
def permits (s : State) (space : Nat) (write : Bool) : Bool := s.dbg.level = 2 || (s.dbg.level = 1 && space = 0 && !write)

/-- Keep the result of an operation for the next Capture-DR. -/
def keepResult (s : State) (st : Status) (v : Nat) : State := { s with dbg := { s.dbg with result := (st.code, v) } }

/-- DBG_ACCESS: the last result is captured, then the operation runs (R624). -/
def debugAccess (space addr rsv : Nat) (write : Bool) (f : State → State) (s : State) : State :=
  let s := loadIr s 0x11 none false
  if !running s then emit s (.tdo 136 0)
  else
    let s := emit s (.tdo 136 (s.dbg.result.1 + s.dbg.result.2 * 2 ^ 72))
    let s := bump s Reg.DBG_COUNT.accesses
    if !permits s space write then keepResult s .protection 0
    else if rsv ≠ 0 || !spaceHas s space addr then keepResult s .versionMismatch 0
    else f s

/-- DBG_ACCESS_READ (R624). -/
def execDbgAccessRead (space addr rsv : Nat) (s : State) : Host.Outcome State Fault Refusal :=
  let space := space % 4
  let addr := addr % 2 ^ 64
  run s (onTap (debugAccess space addr rsv false fun s => let (s, v) := spaceRead s space addr; keepResult s .ok v))

/-- DBG_ACCESS_WRITE (R624). -/
def execDbgAccessWrite (space addr value rsv : Nat) (s : State) : Host.Outcome State Fault Refusal :=
  let space := space % 4
  let addr := addr % 2 ^ 64
  run s (onTap (debugAccess space addr rsv true fun s => settleHost (keepResult (spaceWrite s space addr (value % 2 ^ 64)) .ok 0)))

end Sys2Proof.Machine
end

