-- ==== Sys2Proof/Machine/Dispatch.lean ====
section
/-! DEFINITION. The meaning of every command, one arm each. -/
namespace Sys2Proof.Machine

/-- The effect of a command on everything but the queue. -/
def exec (i : Instr) (s : State) : Host.Outcome State Fault Refusal :=
  match i with
  | .submissionTail r size value => Sys2Proof.Machine.execSubmissionTail r size value s
  | .completionHead r size value => Sys2Proof.Machine.execCompletionHead r size value s
  | .outputHead o size value => Sys2Proof.Machine.execOutputHead o size value s
  | .eventHead size value => Sys2Proof.Machine.execEventHead size value s
  | .badDoorbell off size value => Sys2Proof.Machine.execBadDoorbell off size value s
  | .invalidOpcode sub => Sys2Proof.Machine.execInvalidOpcode sub s
  | .attach sub minLevel maxLevel required rsv => Sys2Proof.Machine.execAttach sub minLevel maxLevel required rsv s
  | .detach sub rsv => Sys2Proof.Machine.execDetach sub rsv s
  | .queryCap sub rsv => Sys2Proof.Machine.execQueryCap sub rsv s
  | .ctxCreate sub part rsv block rot ssm layers blob => Sys2Proof.Machine.execCtxCreate sub part rsv block rot ssm layers blob s
  | .ctxDestroy sub rsv => Sys2Proof.Machine.execCtxDestroy sub rsv s
  | .sesOpen sub a => Sys2Proof.Machine.execSesOpen sub a s
  | .sesResume sub a => Sys2Proof.Machine.execSesResume sub a s
  | .sesCancel sub rsv => Sys2Proof.Machine.execSesCancel sub rsv s
  | .sesQuery sub rsv => Sys2Proof.Machine.execSesQuery sub rsv s
  | .stepSubmit sub d len resultAddr rsv => Sys2Proof.Machine.execStepSubmit sub d len resultAddr rsv s
  | .stepKill sub ref rsv => Sys2Proof.Machine.execStepKill sub ref rsv s
  | .pfxInsert sub maxChunks flags rsv => Sys2Proof.Machine.execPfxInsert sub maxChunks flags rsv s
  | .pfxRemove sub nodeRef flags rsv => Sys2Proof.Machine.execPfxRemove sub nodeRef flags rsv s
  | .trunkCut sub handles store rsv => Sys2Proof.Machine.execTrunkCut sub handles store rsv s
  | .trunkRestore sub store resultAddr rsv manifest shard shardOk log => Sys2Proof.Machine.execTrunkRestore sub store resultAddr rsv manifest shard shardOk log s
  | .tblSwapLoad sub slot flags length rsv img => Sys2Proof.Machine.execTblSwapLoad sub slot flags length rsv img s
  | .tblSwapBind sub flags length rsv block => Sys2Proof.Machine.execTblSwapBind sub flags length rsv block s
  | .tblSwapFree sub op slot flags rsv => Sys2Proof.Machine.execTblSwapFree sub op slot flags rsv s
  | .camWriteInsert sub bank width priority action blocks rsv => Sys2Proof.Machine.execCamWriteInsert sub bank width priority action blocks rsv s
  | .camWriteDelete sub bank width priority blocks rsv => Sys2Proof.Machine.execCamWriteDelete sub bank width priority blocks rsv s
  | .camWriteModify sub bank width priority action blocks rsv => Sys2Proof.Machine.execCamWriteModify sub bank width priority action blocks rsv s
  | .camWriteClear sub bank width rsv => Sys2Proof.Machine.execCamWriteClear sub bank width rsv s
  | .camDrain sub g rsv => Sys2Proof.Machine.execCamDrain sub g rsv s
  | .vsrQuery sub indexId k beam flags vec resultAddr all any maxVisits rsv => Sys2Proof.Machine.execVsrQuery sub indexId k beam flags vec resultAddr all any maxVisits rsv s
  | .semAcquire sub sem cls rsv => Sys2Proof.Machine.execSemAcquire sub sem cls rsv s
  | .semRelease sub sem rsv => Sys2Proof.Machine.execSemRelease sub sem rsv s
  | .protFence sub pd g rsv => Sys2Proof.Machine.execProtFence sub pd g rsv s
  | .semGrant sem => Sys2Proof.Machine.execSemGrant sem s
  | .camDrainDone => Sys2Proof.Machine.execCamDrainDone s
  | .protFenceDone => Sys2Proof.Machine.execProtFenceDone s
  | .atnQkv half q => Sys2Proof.Machine.execAtnQkv half q s
  | .atnQkvEarlyHoldExpiry id => Sys2Proof.Machine.execAtnQkvEarlyHoldExpiry id s
  | .dlgBlock half m => Sys2Proof.Machine.execDlgBlock half m s
  | .dlgOut m => Sys2Proof.Machine.execDlgOut m s
  | .dlgTimeout request => Sys2Proof.Machine.execDlgTimeout request s
  | .nbuJobEnd nbu thread ran cycles ecc => Sys2Proof.Machine.execNbuJobEnd nbu thread ran cycles ecc s
  | .cmdEntryWrite nbu thread value => Sys2Proof.Machine.execCmdEntryWrite nbu thread value s
  | .cmdStatusAbort nbu thread ran cycles => Sys2Proof.Machine.execCmdStatusAbort nbu thread ran cycles s
  | .cycleLimit nbu thread ran cycles => Sys2Proof.Machine.execCycleLimit nbu thread ran cycles s
  | .tileCommandEnd tile code nbu page macs cycles => Sys2Proof.Machine.execTileCommandEnd tile code nbu page macs cycles s
  | .tileCycleLimit tile cycles => Sys2Proof.Machine.execTileCycleLimit tile cycles s
  | .tileDispatch tile => Sys2Proof.Machine.execTileDispatch tile s
  | .denTestCtlGo tile => Sys2Proof.Machine.execDenTestCtlGo tile s
  | .stpDesc d => Sys2Proof.Machine.execStpDesc d s
  | .partStart ref => Sys2Proof.Machine.execPartStart ref s
  | .creditWaitExpiry ref => Sys2Proof.Machine.execCreditWaitExpiry ref s
  | .stpPrepared m => Sys2Proof.Machine.execStpPrepared m s
  | .stpSeal m => Sys2Proof.Machine.execStpSeal m s
  | .stpSealMirror m => Sys2Proof.Machine.execStpSealMirror m s
  | .stpSealAck m => Sys2Proof.Machine.execStpSealAck m s
  | .stpKilled m => Sys2Proof.Machine.execStpKilled m s
  | .stpAbort m => Sys2Proof.Machine.execStpAbort m s
  | .stpDone m => Sys2Proof.Machine.execStpDone m s
  | .sealRetryExpiry ref => Sys2Proof.Machine.execSealRetryExpiry ref s
  | .prepQueryExpiry ref entry => Sys2Proof.Machine.execPrepQueryExpiry ref entry s
  | .semReq src op sub sem cls => Sys2Proof.Machine.execSemReq src op sub sem cls s
  | .semInheritLimit sem => Sys2Proof.Machine.execSemInheritLimit sem s
  | .contextSlotFree ctx => Sys2Proof.Machine.execContextSlotFree ctx s
  | .logits m rsv => Sys2Proof.Machine.execLogits m rsv s
  | .samplerDraw => Sys2Proof.Machine.execSamplerDraw s
  | .tokenizeComplete => Sys2Proof.Machine.execTokenizeComplete s
  | .invProbe r => Sys2Proof.Machine.execInvProbe r s
  | .invCommit r => Sys2Proof.Machine.execInvCommit r s
  | .invPublish r => Sys2Proof.Machine.execInvPublish r s
  | .invWithdraw r => Sys2Proof.Machine.execInvWithdraw r s
  | .invRsp src r => Sys2Proof.Machine.execInvRsp src r s
  | .invProbeTimeout handle => Sys2Proof.Machine.execInvProbeTimeout handle s
  | .invPinExpiry src request => Sys2Proof.Machine.execInvPinExpiry src request s
  | .vsrReq r => Sys2Proof.Machine.execVsrReq r s
  | .vsrRsp r => Sys2Proof.Machine.execVsrRsp r s
  | .vsrShardTimeout request shard => Sys2Proof.Machine.execVsrShardTimeout request shard s
  | .vsrLoad slot ctx shared length img => Sys2Proof.Machine.execVsrLoad slot ctx shared length img s
  | .vsrFree slot ctx shared length => Sys2Proof.Machine.execVsrFree slot ctx shared length s
  | .camLookupCtlGo width => Sys2Proof.Machine.execCamLookupCtlGo width s
  | .camShiftComplete bank => Sys2Proof.Machine.execCamShiftComplete bank s
  | .mirrorOpen q d toks => Sys2Proof.Machine.execMirrorOpen q d toks s
  | .mirrorState q toks => Sys2Proof.Machine.execMirrorState q toks s
  | .mirrorNote q token index hold => Sys2Proof.Machine.execMirrorNote q token index hold s
  | .mirrorPrep q c => Sys2Proof.Machine.execMirrorPrep q c s
  | .mirrorAck q => Sys2Proof.Machine.execMirrorAck q s
  | .mirrorRetire q => Sys2Proof.Machine.execMirrorRetire q s
  | .mirrorSync q valid bytes => Sys2Proof.Machine.execMirrorSync q valid bytes s
  | .mirrorPull q count => Sys2Proof.Machine.execMirrorPull q count s
  | .mirrorHandover q => Sys2Proof.Machine.execMirrorHandover q s
  | .prepResendExpiry handle home => Sys2Proof.Machine.execPrepResendExpiry handle home s
  | .lostReport lost observer link => Sys2Proof.Machine.execLostReport lost observer link s
  | .roleClaim src lost epoch first last m idx => Sys2Proof.Machine.execRoleClaim src lost epoch first last m idx s
  | .shadowPromote => Sys2Proof.Machine.execShadowPromote s
  | .sessionDemoted handle epoch => Sys2Proof.Machine.execSessionDemoted handle epoch s
  | .mirrorDropped handle home cause => Sys2Proof.Machine.execMirrorDropped handle home cause s
  | .trunkReqCut r => Sys2Proof.Machine.execTrunkReqCut r s
  | .trunkReqAbort r => Sys2Proof.Machine.execTrunkReqAbort r s
  | .trunkReqRestore r shard shardOk => Sys2Proof.Machine.execTrunkReqRestore r shard shardOk s
  | .trunkRspReserved q => Sys2Proof.Machine.execTrunkRspReserved q s
  | .trunkRspRestored q => Sys2Proof.Machine.execTrunkRspRestored q s
  | .trunkRspTaken q => Sys2Proof.Machine.execTrunkRspTaken q s
  | .trunkRspDrained q => Sys2Proof.Machine.execTrunkRspDrained q s
  | .fastCopyComplete home request handle => Sys2Proof.Machine.execFastCopyComplete home request handle s
  | .trunkDrainComplete home request digest ok => Sys2Proof.Machine.execTrunkDrainComplete home request digest ok s
  | .tokenLogFlush => Sys2Proof.Machine.execTokenLogFlush s
  | .ckpHandoverGo device => Sys2Proof.Machine.execCkpHandoverGo device s
  | .ckpTrunkDel serial context => Sys2Proof.Machine.execCkpTrunkDel serial context s
  | .rmWrite m ecc => Sys2Proof.Machine.execRmWrite m ecc s
  | .rmWriteImm m ecc => Sys2Proof.Machine.execRmWriteImm m ecc s
  | .rmRead m ecc => Sys2Proof.Machine.execRmRead m ecc s
  | .rmReadRsp m => Sys2Proof.Machine.execRmReadRsp m s
  | .rmSend m ecc => Sys2Proof.Machine.execRmSend m ecc s
  | .rmAck a => Sys2Proof.Machine.execRmAck a s
  | .roceRequestPacket port named p ecc => Sys2Proof.Machine.execRoceRequestPacket port named p ecc s
  | .roceResponsePacket p => Sys2Proof.Machine.execRoceResponsePacket p s
  | .cnp conn => Sys2Proof.Machine.execCnp conn s
  | .ccRatePeriod conn => Sys2Proof.Machine.execCcRatePeriod conn s
  | .rdmaRetryTimer conn => Sys2Proof.Machine.execRdmaRetryTimer conn s
  | .rnrWaitExpiry conn => Sys2Proof.Machine.execRnrWaitExpiry conn s
  | .connCreate => Sys2Proof.Machine.execConnCreate s
  | .connDestroy conn => Sys2Proof.Machine.execConnDestroy conn s
  | .connRead conn => Sys2Proof.Machine.execConnRead conn s
  | .connSpillComplete conn => Sys2Proof.Machine.execConnSpillComplete conn s
  | .connFetchComplete conn => Sys2Proof.Machine.execConnFetchComplete conn s
  | .rmaMrCtlGo index => Sys2Proof.Machine.execRmaMrCtlGo index s
  | .pfcPause port priority quanta => Sys2Proof.Machine.execPfcPause port priority quanta s
  | .pfcRenewal port priority bytes => Sys2Proof.Machine.execPfcRenewal port priority bytes s
  | .pfcStorm port priority => Sys2Proof.Machine.execPfcStorm port priority s
  | .rmaEngineFatal half => Sys2Proof.Machine.execRmaEngineFatal half s
  | .hello link h => Sys2Proof.Machine.execHello link h s
  | .resume link last epoch => Sys2Proof.Machine.execResume link last epoch s
  | .retry link h seq => Sys2Proof.Machine.execRetry link h seq s
  | .creditSync link h pools => Sys2Proof.Machine.execCreditSync link h pools s
  | .creditSyncTimer link => Sys2Proof.Machine.execCreditSyncTimer link s
  | .tsync link h t => Sys2Proof.Machine.execTsync link h t s
  | .tsyncTimer link => Sys2Proof.Machine.execTsyncTimer link s
  | .heartbeat link h number time => Sys2Proof.Machine.execHeartbeat link h number time s
  | .expressSuspend link h => Sys2Proof.Machine.execExpressSuspend link h s
  | .expressResume link h => Sys2Proof.Machine.execExpressResume link h s
  | .expressResumeTimer link => Sys2Proof.Machine.execExpressResumeTimer link s
  | .keyNonce link h k => Sys2Proof.Machine.execKeyNonce link h k s
  | .keyConfirm link h k => Sys2Proof.Machine.execKeyConfirm link h k s
  | .keyRekey link h k => Sys2Proof.Machine.execKeyRekey link h k s
  | .keyRekeyAck link h k => Sys2Proof.Machine.execKeyRekeyAck link h k s
  | .keyFail link h k => Sys2Proof.Machine.execKeyFail link h k s
  | .rekeyStart port dev => Sys2Proof.Machine.execRekeyStart port dev s
  | .rekeyResendTimer port dev => Sys2Proof.Machine.execRekeyResendTimer port dev s
  | .oldKeyExpiry port dev => Sys2Proof.Machine.execOldKeyExpiry port dev s
  | .dataFlit link fl => Sys2Proof.Machine.execDataFlit link fl s
  | .replayTimeout link => Sys2Proof.Machine.execReplayTimeout link s
  | .frameReceive port f => Sys2Proof.Machine.execFrameReceive port f s
  | .tack src entries => Sys2Proof.Machine.execTack src entries s
  | .retxTimer dest txid => Sys2Proof.Machine.execRetxTimer dest txid s
  | .epochHoldExpiry src txid => Sys2Proof.Machine.execEpochHoldExpiry src txid s
  | .linkSignalDetect link lanes reversed => Sys2Proof.Machine.execLinkSignalDetect link lanes reversed s
  | .linkDownDetected port fec => Sys2Proof.Machine.execLinkDownDetected port fec s
  | .linkHoldExpiry link => Sys2Proof.Machine.execLinkHoldExpiry link s
  | .linkTrainRetry port => Sys2Proof.Machine.execLinkTrainRetry port s
  | .lnkCtlRetrain link => Sys2Proof.Machine.execLnkCtlRetrain link s
  | .lnkCtlEnableWrite link w => Sys2Proof.Machine.execLnkCtlEnableWrite link w s
  | .shaperConfigWrite port q w => Sys2Proof.Machine.execShaperConfigWrite port q w s
  | .shaperRefill => Sys2Proof.Machine.execShaperRefill s
  | .tunnelSegment port src g => Sys2Proof.Machine.execTunnelSegment port src g s
  | .reassemblyTimeout port src frameNo => Sys2Proof.Machine.execReassemblyTimeout port src frameNo s
  | .ethernetFrameReceive port k bytes body => Sys2Proof.Machine.execEthernetFrameReceive port k bytes body s
  | .ptpMessage port m => Sys2Proof.Machine.execPtpMessage port m s
  | .ethHoldExpiry port => Sys2Proof.Machine.execEthHoldExpiry port s
  | .regulatorRefill => Sys2Proof.Machine.execRegulatorRefill s
  | .tallyReplenish => Sys2Proof.Machine.execTallyReplenish s
  | .hatTallyAdd tally tokens subtract => Sys2Proof.Machine.execHatTallyAdd tally tokens subtract s
  | .ladderMoveStart engine => Sys2Proof.Machine.execLadderMoveStart engine s
  | .raiseComplete move crcOk => Sys2Proof.Machine.execRaiseComplete move crcOk s
  | .sinkComplete move => Sys2Proof.Machine.execSinkComplete move s
  | .moveFailed move => Sys2Proof.Machine.execMoveFailed move s
  | .tierDeadlineExpiry move => Sys2Proof.Machine.execTierDeadlineExpiry move s
  | .writebackComplete move => Sys2Proof.Machine.execWritebackComplete move s
  | .faultyTargetExpiry remote number => Sys2Proof.Machine.execFaultyTargetExpiry remote number s
  | .cellarTargetLost remote number => Sys2Proof.Machine.execCellarTargetLost remote number s
  | .spillComplete handle => Sys2Proof.Machine.execSpillComplete handle s
  | .fetchComplete handle => Sys2Proof.Machine.execFetchComplete handle s
  | .sessionFree handle => Sys2Proof.Machine.execSessionFree handle s
  | .tableSwitch => Sys2Proof.Machine.execTableSwitch s
  | .embDecay => Sys2Proof.Machine.execEmbDecay s
  | .embCfgWrite w => Sys2Proof.Machine.execEmbCfgWrite w s
  | .layLoad img => Sys2Proof.Machine.execLayLoad img s
  | .layProgramSlot img => Sys2Proof.Machine.execLayProgramSlot img s
  | .fastRecompQuiesceExpiry => Sys2Proof.Machine.execFastRecompQuiesceExpiry s
  | .microprogReloadDone stack => Sys2Proof.Machine.execMicroprogReloadDone stack s
  | .maintActivityDone no target => Sys2Proof.Machine.execMaintActivityDone no target s
  | .mntAtticScrub stack => Sys2Proof.Machine.execMntAtticScrub stack s
  | .mntSpareIn bankPair => Sys2Proof.Machine.execMntSpareIn bankPair s
  | .mntLinkRetrain bay => Sys2Proof.Machine.execMntLinkRetrain bay s
  | .mntNvmeFwActivate drive slot => Sys2Proof.Machine.execMntNvmeFwActivate drive slot s
  | .warnIntervalEnd kind counts => Sys2Proof.Machine.execWarnIntervalEnd kind counts s
  | .windowClose source code epoch => Sys2Proof.Machine.execWindowClose source code epoch s
  | .allowanceTick => Sys2Proof.Machine.execAllowanceTick s
  | .irqTimer ring => Sys2Proof.Machine.execIrqTimer ring s
  | .ringFault ring pcie => Sys2Proof.Machine.execRingFault ring pcie s
  | .ringCfg r w => Sys2Proof.Machine.execRingCfg r w s
  | .oRingCfg o w => Sys2Proof.Machine.execORingCfg o w s
  | .topSnapFreeze block => Sys2Proof.Machine.execTopSnapFreeze block s
  | .topSnapRelease block => Sys2Proof.Machine.execTopSnapRelease block s
  | .hatHistSnap cls metric => Sys2Proof.Machine.execHatHistSnap cls metric s
  | .hatHistClear cls metric => Sys2Proof.Machine.execHatHistClear cls metric s
  | .hatTrkSelWrite handle => Sys2Proof.Machine.execHatTrkSelWrite handle s
  | .secMeasSnap index => Sys2Proof.Machine.execSecMeasSnap index s
  | .bar0ReadLowHalf off size => Sys2Proof.Machine.execBar0ReadLowHalf off size s
  | .registerWrite w => Sys2Proof.Machine.execRegisterWrite w s
  | .lockdown w => Sys2Proof.Machine.execLockdown w s
  | .setDomainKey session index key => Sys2Proof.Machine.execSetDomainKey session index key s
  | .setLinkKey session index key => Sys2Proof.Machine.execSetLinkKey session index key s
  | .setTrunkKey session index d => Sys2Proof.Machine.execSetTrunkKey session index d s
  | .clearKey session byte => Sys2Proof.Machine.execClearKey session byte s
  | .enrollSlot session k x y a r t => Sys2Proof.Machine.execEnrollSlot session k x y a r t s
  | .revokeSlot session k a r t => Sys2Proof.Machine.execRevokeSlot session k a r t s
  | .getVersion => Sys2Proof.Machine.execGetVersion s
  | .getCapabilities version => Sys2Proof.Machine.execGetCapabilities version s
  | .negotiateAlgorithms ecdsa sha dhe aead => Sys2Proof.Machine.execNegotiateAlgorithms ecdsa sha dhe aead s
  | .getDigests session => Sys2Proof.Machine.execGetDigests session s
  | .getCertificate session slot offset length => Sys2Proof.Machine.execGetCertificate session slot offset length s
  | .challenge session slot kind => Sys2Proof.Machine.execChallenge session slot kind s
  | .getMeasurements session index signed => Sys2Proof.Machine.execGetMeasurements session index signed s
  | .keyExchange slot kind => Sys2Proof.Machine.execKeyExchange slot kind s
  | .finish session good => Sys2Proof.Machine.execFinish session good s
  | .spdmHeartbeat session => Sys2Proof.Machine.execSpdmHeartbeat session s
  | .keyUpdate session op tag => Sys2Proof.Machine.execKeyUpdate session op tag s
  | .endSession session => Sys2Proof.Machine.execEndSession session s
  | .secIslandResync half => Sys2Proof.Machine.execSecIslandResync half s
  | .islandReset island => Sys2Proof.Machine.execIslandReset island s
  | .pwrOkRise devid sysRstN perstN mfgMode => Sys2Proof.Machine.execPwrOkRise devid sysRstN perstN mfgMode s
  | .pwrOkFall ns => Sys2Proof.Machine.execPwrOkFall ns s
  | .sysRstNFall => Sys2Proof.Machine.execSysRstNFall s
  | .sysRstNRise => Sys2Proof.Machine.execSysRstNRise s
  | .perstNAssert => Sys2Proof.Machine.execPerstNAssert s
  | .perstNDeassert => Sys2Proof.Machine.execPerstNDeassert s
  | .clkResetWarm key => Sys2Proof.Machine.execClkResetWarm key s
  | .clkResetCold key => Sys2Proof.Machine.execClkResetCold key s
  | .firmwareWatchdogExpiry => Sys2Proof.Machine.execFirmwareWatchdogExpiry s
  | .warmSaveComplete us => Sys2Proof.Machine.execWarmSaveComplete us s
  | .warmSaveTimeout => Sys2Proof.Machine.execWarmSaveTimeout s
  | .warmStart trainOk canaryOk dimmsSame recordOk copyOk => Sys2Proof.Machine.execWarmStart trainOk canaryOk dimmsSame recordOk copyOk s
  | .rejoinTimeout handle => Sys2Proof.Machine.execRejoinTimeout handle s
  | .referenceMonitorWindow refs plls => Sys2Proof.Machine.execReferenceMonitorWindow refs plls s
  | .oscMonitorWindow count => Sys2Proof.Machine.execOscMonitorWindow count s
  | .pllUnlockExpiry pll => Sys2Proof.Machine.execPllUnlockExpiry pll s
  | .thermalThrottleTick readings prochotN power up => Sys2Proof.Machine.execThermalThrottleTick readings prochotN power up s
  | .thermTrip => Sys2Proof.Machine.execThermTrip s
  | .critiHelp => Sys2Proof.Machine.execCritiHelp s
  | .critiVer => Sys2Proof.Machine.execCritiVer s
  | .critiStat => Sys2Proof.Machine.execCritiStat s
  | .critiCap => Sys2Proof.Machine.execCritiCap s
  | .critiTemp => Sys2Proof.Machine.execCritiTemp s
  | .critiRails => Sys2Proof.Machine.execCritiRails s
  | .critiClk => Sys2Proof.Machine.execCritiClk s
  | .critiLink link => Sys2Proof.Machine.execCritiLink link s
  | .critiEvt n => Sys2Proof.Machine.execCritiEvt n s
  | .critiRd addr n => Sys2Proof.Machine.execCritiRd addr n s
  | .critiBaud rate => Sys2Proof.Machine.execCritiBaud rate s
  | .critiAuth level slot r t => Sys2Proof.Machine.execCritiAuth level slot r t s
  | .critiExit => Sys2Proof.Machine.execCritiExit s
  | .critiWr addr value => Sys2Proof.Machine.execCritiWr addr value s
  | .critiReset cold => Sys2Proof.Machine.execCritiReset cold s
  | .critiBadLine => Sys2Proof.Machine.execCritiBadLine s
  | .jtagTestLogicReset => Sys2Proof.Machine.execJtagTestLogicReset s
  | .extest => Sys2Proof.Machine.execExtest s
  | .samplePreload => Sys2Proof.Machine.execSamplePreload s
  | .idcode => Sys2Proof.Machine.execIdcode s
  | .clamp => Sys2Proof.Machine.execClamp s
  | .highz => Sys2Proof.Machine.execHighz s
  | .extestPulse => Sys2Proof.Machine.execExtestPulse s
  | .extestTrain => Sys2Proof.Machine.execExtestTrain s
  | .bypass => Sys2Proof.Machine.execBypass s
  | .dbgAuth level slot rsv r t => Sys2Proof.Machine.execDbgAuth level slot rsv r t s
  | .dbgAccessRead space addr rsv => Sys2Proof.Machine.execDbgAccessRead space addr rsv s
  | .dbgAccessWrite space addr value rsv => Sys2Proof.Machine.execDbgAccessWrite space addr value rsv s
  | .stpEntryEarlyHoldExpiry ref entry => Sys2Proof.Machine.execStpEntryEarlyHoldExpiry ref entry s
  | .fenceLimitExpiry pd gen => Sys2Proof.Machine.execFenceLimitExpiry pd gen s
  | .pfcStormEnd port priority => Sys2Proof.Machine.execPfcStormEnd port priority s
  | .flitBoundary port => Sys2Proof.Machine.execFlitBoundary port s
  | .idleFlit link h => Sys2Proof.Machine.execIdleFlit link h s
  | .ethTrainingComplete port => Sys2Proof.Machine.execEthTrainingComplete port s
  | .islandReturn island => Sys2Proof.Machine.execIslandReturn island s
  | .droopEvent rail mv => Sys2Proof.Machine.execDroopEvent rail mv s
  | .periodicScrub stack => Sys2Proof.Machine.execPeriodicScrub stack s

end Sys2Proof.Machine
end

