-- ==== Sys2Proof/Machine/Idle.lean ====
section
/-! DEFINITION. What the block does while no command waits: TIMEBASE counts, and what the units can go on with goes on. -/
namespace Sys2Proof.Machine

/-- One cycle of TIMEBASE without a command. -/
def idleStep (s : State) : Host.Outcome State Fault Refusal :=
  run s (whenLive fun s => settleHost (tickTime s))

end Sys2Proof.Machine
end

