-- ==== Sys2Proof/Safety.lean ====
section
/-! DEFINITION. What a safe run of the block is, and the conditions in which commands are stated. -/
namespace Sys2Proof.Machine

/-- A step that neither faults nor is refused. -/
def stepOk (s : State) : Prop := ∃ t, step s = .next t

/-- `k` steps in a row that neither fault nor are refused. -/
def runOk : Nat → State → Prop
  | 0, _ => True
  | k + 1, s => ∃ t, step s = .next t ∧ runOk k t

/-- What a command starts from: the outputs of the last command are gone. -/
abbrev cleared (s : State) : State := { s with out := [] }

/-- What a write of the host to BAR0 starts from: the read shadow is gone too (R570). -/
abbrev written (s : State) : State := dropShadow (cleared s)

/-- Full service (R36, R545). -/
abbrev serving (s : State) : Prop := s.clk.phase = .service

/-- Full service or the save of a warm start: links and register accesses are served (R543). -/
abbrev live (s : State) : Prop := s.clk.phase = .service ∨ s.clk.phase = .saving

/-- The host's accesses reach the block (R36, R542). -/
abbrev hostReaches (s : State) : Prop := live s ∧ s.host.inReset = false

/-- A submission entry whose verb needs a contract level runs: full service, the host port out of reset, its tag
not in use, the level agreed (R36, R37, R47, R51). -/
abbrev accepts (level : Nat) (s : State) (sub : Sub) : Prop :=
  s.clk.phase = .service ∧ s.host.inReset = false ∧ (ringOf s sub.ring).tags.contains sub.tag = false ∧ level ≤ s.attached

/-- The state in which a verb runs: its entry is read (R580). -/
abbrev taken (s : State) (sub : Sub) : State := takeEntry (cleared s) sub

/-- Everything that waits for something, in every unit, goes on as far as it can: the links and the engines included. -/
abbrev settleWhole (s : State) : State := settleAll (settleRma (settleLinks s))

end Sys2Proof.Machine
end

