-- ==== Sys2Proof/Certificates/Slice0/Obligations.lean ====
section
/-! DEFINITION. The statements for the provers. -/
open Sys2Proof Sys2Proof.Machine

/-- For every state s, command c and list rest with s.pending = c :: rest, step s is exec c on s with its queue replaced
by rest; and that outcome, where it is a next state, holds exactly rest as its queue. The queue itself is the model's
(log entry 1). -/
def Obligations.StepRunsQueueFront : Prop :=
  ∀ (s : State) (c : Instr) (rest : List Instr), s.pending = c :: rest →
    step s = exec c { s with pending := rest } ∧ ∀ t, step s = .next t → t.pending = rest

/-- For every state s with an empty queue: while the block is live (full service or a save), step s answers the state that
tickTime and settleHost give on s with its outputs gone, the queue, part and stepping as they were; otherwise it
answers s with its outputs gone. The idle cycle is the model's choice (log entry 2). -/
def Obligations.EmptyQueueCountsTime : Prop :=
  ∀ s : State, s.pending = [] →
    (live s → step s = .next (keepFixed s (settleHost (tickTime (cleared s))))) ∧
    (¬ live s → step s = .next (cleared s))

/-- For every command c and state s: either exec c s answers a next state, or c is PWR_OK_RISE with MFG_MODE high, the
block is off, and the answer is the fault manufacturingMode. No command is ever refused. The rule says that no rule of
the manual applies in that mode; the stop is log entry 6. -/
def Obligations.OnlyManufacturingModeStops : Prop :=
  ∀ (c : Instr) (s : State),
    (∃ t, exec c s = .next t) ∨
    (exec c s = .fault .manufacturingMode ∧ s.clk.phase = .off ∧ ∃ devid rst perst, c = .pwrOkRise devid rst perst true)

/-- In every state whose phase is off, PWR_OK_RISE with MFG_MODE high answers the fault manufacturingMode, whatever the
other pins: no rule of the manual applies there (log entry 6). -/
def Obligations.ManufacturingModeStopsThere : Prop :=
  ∀ (s : State) (devid : Nat) (rst perst : Bool), s.clk.phase = .off →
    exec (.pwrOkRise devid rst perst true) s = .fault .manufacturingMode

/-- For every part p and stepping k, let Inv s say that s is a controller of part p and stepping k whose TOP_ID fields
(live, as read outside a freeze) are the part's PCI device ID, the vendor ID, the part's code and k. For every s with
Inv s, every step that answers a next state t, of whatever command, reset or start, gives Inv t, and IDCODE's word is
the same. -/
def Obligations.IdentityReadsSameAfterEveryStep : Prop :=
  ∀ (p : Part) (k : Nat) (s t : State),
    (s.part = p ∧ s.stepping = k ∧ liveField s Reg.TOP_ID.pci_device [] = pciDevice p % 2 ^ 16 ∧
      liveField s Reg.TOP_ID.pci_vendor [] = Config.pciVendor % 2 ^ 16 ∧
      liveField s Reg.TOP_ID.part [] = (match p with | .rb4816 => 1 | .rb4812 => 2 | .rb4808 => 3) ∧
      liveField s Reg.TOP_ID.stepping [] = k % 2 ^ 8) →
    step s = .next t →
    (t.part = p ∧ t.stepping = k ∧ liveField t Reg.TOP_ID.pci_device [] = pciDevice p % 2 ^ 16 ∧
      liveField t Reg.TOP_ID.pci_vendor [] = Config.pciVendor % 2 ^ 16 ∧
      liveField t Reg.TOP_ID.part [] = (match p with | .rb4816 => 1 | .rb4812 => 2 | .rb4808 => 3) ∧
      liveField t Reg.TOP_ID.stepping [] = k % 2 ^ 8) ∧ idcode t = idcode s

/-- In the reset state TOP_ID's fields are those of the part modelled: its PCI device ID, the vendor ID, its part code and
stepping. The part and the stepping of the reset state are the model's choice (log entry 3). -/
def Obligations.IdentityOfTheResetState : Prop :=
  liveField State.reset Reg.TOP_ID.pci_device [] = pciDevice State.reset.part % 2 ^ 16 ∧
  liveField State.reset Reg.TOP_ID.pci_vendor [] = Config.pciVendor % 2 ^ 16 ∧
  liveField State.reset Reg.TOP_ID.part [] = 1 ∧ liveField State.reset Reg.TOP_ID.stepping [] = 0

/-- Let Off r s say: the phase of s is off, no PWR_OK_RISE waits in its queue, and s is r in every field but the queue,
the outputs, the pins and the entropy count. For every r and s with Off r s, a step that answers t gives Off r t:
SYS_RST_N, PROCHOT_N, PERST_N, every host command, link flit, register access, monitor and JTAG command leave every
register, memory, session and key as it was. And the commands of SYS_RST_N, PERST_N and the PROCHOT_N tick leave the
pins too. (The filter's entropy count is the model's.) -/
def Obligations.PowerOffChangesNothing : Prop :=
  (∀ r s t : State,
    (s.clk.phase = .off ∧ (∀ a b c d, Instr.pwrOkRise a b c d ∉ s.pending) ∧
      { s with pending := r.pending, out := r.out, clk := { s.clk with pins := r.clk.pins }, link := { s.link with entropy := r.link.entropy } } = r) →
    step s = .next t →
    (t.clk.phase = .off ∧ (∀ a b c d, Instr.pwrOkRise a b c d ∉ t.pending) ∧
      { t with pending := r.pending, out := r.out, clk := { t.clk with pins := r.clk.pins }, link := { t.link with entropy := r.link.entropy } } = r)) ∧
  (∀ s : State, s.clk.phase = .off →
    exec .sysRstNFall s = .next (cleared s) ∧ exec .sysRstNRise s = .next (cleared s) ∧
    exec .perstNAssert s = .next (cleared s) ∧ exec .perstNDeassert s = .next (cleared s) ∧
    ∀ readings prochotN power up, exec (.thermalThrottleTick readings prochotN power up) s = .next (cleared s))

/-- Let Tripped s say: phase tripped, THERM_TRIP_N asserted, every PLL off, all 24 islands and the host port in reset, and
no PWR_OK_FALL waiting. For every s with Tripped s, a step that answers t gives Tripped t. And THERM_TRIP establishes
it in every state with power on whose queue holds no PWR_OK_FALL; the fall of PWR_OK releases the pin. -/
def Obligations.ThermalTripHoldsUntilPowerFalls : Prop :=
  (∀ s t : State,
    (s.clk.phase = .tripped ∧ s.clk.pins.thermTripN = false ∧ s.clk.plls = allPlls .off ∧ s.clk.inReset = List.range 24 ∧
      s.host.inReset = true ∧ ∀ n, Instr.pwrOkFall n ∉ s.pending) → step s = .next t →
    (t.clk.phase = .tripped ∧ t.clk.pins.thermTripN = false ∧ t.clk.plls = allPlls .off ∧ t.clk.inReset = List.range 24 ∧
      t.host.inReset = true ∧ ∀ n, Instr.pwrOkFall n ∉ t.pending)) ∧
  (∀ s : State, s.clk.phase ≠ .off → ∃ t, exec .thermTrip s = .next t ∧
      t.clk.phase = .tripped ∧ t.clk.pins.thermTripN = false ∧ t.clk.plls = allPlls .off ∧ t.clk.inReset = List.range 24 ∧
      t.host.inReset = true ∧ t.pending = s.pending) ∧
  (∀ (s : State) (ns : Nat), s.clk.phase ≠ .off → 2000 ≤ ns → ∃ t, exec (.pwrOkFall ns) s = .next t ∧
      t.clk.phase = .off ∧ t.clk.pins.pwrOk = false ∧ t.clk.pins.thermTripN = true)

/-- For every state, fields f and g, index tuples and value v: after storing v into f, f reads v modulo 2 to its width; a
field g at any other key reads as before; and where the register file's keys rise strictly (its canonical form), they
still do. -/
def Obligations.FieldReadsWhatWasStored : Prop :=
  ∀ (s : State) (f g : Field) (is js : List Nat) (v : Nat),
    fldAt (setFldAt s f is v) f is = v % 2 ^ f.width ∧
    (keyOf g js ≠ keyOf f is → fldAt (setFldAt s f is v) g js = fldAt s g js) ∧
    (keysRise s.regs = true → keysRise (setFldAt s f is v).regs = true)

/-- For every memory in canonical form, address and list of byte values: after writing the list at the address, byte i of
it reads back at the address plus i (modulo 256); every address outside the written range reads as before; the memory
is in canonical form still. What an unlisted address reads as is log entry 4. -/
def Obligations.StagingMemoryReadsBack : Prop :=
  ∀ (m : Mem) (a : Nat) (l : List Nat), Mem.wf m = true →
    (∀ i (h : i < l.length), readByte (writeBytes m a l) (a + i) = BitVec.ofNat 8 l[i]) ∧
    (∀ b, b < a ∨ a + l.length ≤ b → readByte (writeBytes m a l) b = readByte m b) ∧
    Mem.wf (writeBytes m a l) = true

/-- In the reset state the block is in full service with an empty queue; no contract is attached, no context, session,
crate object, semaphore or waiting command exists; memories and the register file are in canonical form; and every
register field but TOP_INT_CAUSE.fatal and CLK_START.cause reads the reset value of its table. That the state after
reset is the end of a cold start, and those two fields, are log entry 5. -/
def Obligations.ResetStateHoldsResetValues : Prop :=
  State.reset.clk.phase = .service ∧ State.reset.pending = [] ∧ State.reset.attached = 0 ∧ State.reset.contexts = [] ∧
  State.reset.sess.table = [] ∧ State.reset.tier.objs = [] ∧ State.reset.steps.sems = [] ∧ State.reset.steps.parts = [] ∧
  Mem.wf State.reset.sram = true ∧ Mem.wf State.reset.nbu.attic = true ∧ keysRise State.reset.regs = true ∧
  fld State.reset Reg.TOP_INT_CAUSE.fatal = 1 ∧ fld State.reset Reg.CLK_START.cause = 1 ∧
  ∀ (f : Field) (is : List Nat), keyOf f is ≠ keyOf Reg.TOP_INT_CAUSE.fatal [] → keyOf f is ≠ keyOf Reg.CLK_START.cause [] →
    fldAt State.reset f is = f.reset

/-- Commands SUBMISSION_TAIL_DOORBELL, COMPLETION_HEAD_DOORBELL, OUTPUT_RING_HEAD_DOORBELL, EVENT_RING_HEAD_DOORBELL. In
every state the host reaches, a well-formed value within an enabled ring: the tail doorbell stores the tail and reads
k entries, k the lesser of those posted and the completion slots neither used nor reserved, reserving a slot for each
(on a faulted ring it only stores the tail); the completion head stores the head, re-arms, sends the vector where it
is due, and lets reading resume; the output ring's and the event ring's heads store the head, re-arm, send the vector
where due and let held entries be written. The next state is exactly that: nothing else changes. -/
def Obligations.DoorbellsMoveRingIndices : Prop :=
  (∀ (s : State) (r size value : Nat), hostReaches s → doorbellMalformed (r * 0x1000) size value = false → ringEnabled s r = true →
    value < sqSize s r →
    (let x := ringOf s r
     let k := Nat.min (ringUsed (sqSize s r) x.sqHead value) (cqSize s r - 1 - (cqUsed s r + x.reserved))
     exec (.submissionTail r size value) s = .next (keepFixed s (setRing (cleared s) r
       (if x.fault then { x with sqTail := value }
        else { x with sqTail := value, sqHead := (x.sqHead + k) % sqSize s r, reserved := x.reserved + k, outstanding := x.outstanding + k,
                      unstarted := x.unstarted + k }))))) ∧
  (∀ (s : State) (r size value : Nat), hostReaches s → doorbellMalformed (r * 0x1000 + 8) size value = false → ringEnabled s r = true →
    value < cqSize s r → ringUsed (cqSize s r) (ringOf s r).cqHead value ≤ cqUsed s r →
    exec (.completionHead r size value) s =
      .next (keepFixed s (readEntries (ringIrq (setRing (cleared s) r { ringOf s r with cqHead := value, armed := true }) r) r))) ∧
  (∀ (s : State) (o size value : Nat), hostReaches s → doorbellMalformed (0x400000 + o * 0x1000) size value = false →
    fldAt s Reg.TOP_ORING_CFG.enable [o] ≠ 0 → value < orSize s o →
    ringUsed (orSize s o) (oringOf s o).head value ≤ ringUsed (orSize s o) (oringOf s o).head (oringOf s o).tail →
    (let x := { oringOf s o with head := value, armed := true }
     exec (.outputHead o size value) s = .next (keepFixed s (drainRing
       (if irqDue true (fldAt s Reg.TOP_ORING_CFG.irq_count [o]) (ringUsed (orSize s o) value x.tail) then
          sendVector (setORing (cleared s) o { x with armed := false, unsignalled := 0 }) (fldAt s Reg.TOP_ORING_CFG.vector [o])
        else setORing (cleared s) o x) o)))) ∧
  (∀ (s : State) (size value : Nat), hostReaches s → doorbellMalformed 0x800000 size value = false → fld s Reg.TOP_EVT_CFG.enable ≠ 0 →
    value < evtSize s → ringUsed (evtSize s) s.host.evtRing.head value ≤ ringUsed (evtSize s) s.host.evtRing.head s.host.evtRing.tail →
    (let x := { s.host.evtRing with head := value, armed := true }
     exec (.eventHead size value) s = .next (keepFixed s (flushEvents
       (if irqDue true (fld s Reg.TOP_EVT_CFG.irq_count) (ringUsed (evtSize s) value x.tail) then
          sendVector { cleared s with host := { s.host with evtRing := { x with armed := false, unsignalled := 0 } } } (fld s Reg.TOP_EVT_CFG.vector)
        else { cleared s with host := { s.host with evtRing := x } })))))

/-- Commands BAD_DOORBELL, IRQ_COALESCE_TIMER, RING_ACCESS_FAULT, TOP_RING_CFG_WRITE, TOP_ORING_CFG_WRITE. A malformed
doorbell is ignored but for being counted as a bad access; one at a reserved offset does nothing. A due, armed ring
with unsignalled entries sends its vector once and disarms, for each of the three kinds of ring. A memory fault sets
the ring's fault bit, reports RING_FAULT (0x0002) with kind, number and PCIe status and raises cause 2. A write that
enables a disabled ring pair with sizes 4 to 16, the completion ring at least the submission ring, leaves it enabled,
its indices 0, its phase 1, armed; one that enables an output ring or the event ring leaves a ring at its start, then
lets held entries go. -/
def Obligations.RingSetupAndFaults : Prop :=
  (∀ (s : State) (off size value : Nat), hostReaches s → off < 0x400000 → off % 0x1000 < 16 → doorbellMalformed off size value = true →
    exec (.badDoorbell off size value) s = .next (keepFixed s (badAccess (cleared s) off true true))) ∧
  (∀ (s : State) (off size value : Nat), hostReaches s → off < 0x800000 → 16 ≤ off % 0x1000 →
    exec (.badDoorbell off size value) s = .next (cleared s)) ∧
  (∀ (s : State) (r : Nat), serving s → (ringOf s r).armed = true → 0 < (ringOf s r).unsignalled → 0 < cqUsed s r →
    0 < fldAt s Reg.TOP_RING_CFG.irq_count [r] →
    exec (.irqTimer (.pair r)) s = .next (keepFixed s (sendVector (setRing (cleared s) r { ringOf s r with armed := false, unsignalled := 0 })
      (fldAt s Reg.TOP_RING_CFG.vector [r])))) ∧
  (∀ (s : State) (o : Nat), serving s → (oringOf s o).armed = true → 0 < (oringOf s o).unsignalled →
    0 < ringUsed (orSize s o) (oringOf s o).head (oringOf s o).tail → 0 < fldAt s Reg.TOP_ORING_CFG.irq_count [o] →
    exec (.irqTimer (.out o)) s = .next (keepFixed s (sendVector (setORing (cleared s) o { oringOf s o with armed := false, unsignalled := 0 })
      (fldAt s Reg.TOP_ORING_CFG.vector [o])))) ∧
  (∀ s : State, serving s → s.host.evtRing.armed = true → 0 < s.host.evtRing.unsignalled →
    0 < ringUsed (evtSize s) s.host.evtRing.head s.host.evtRing.tail → 0 < fld s Reg.TOP_EVT_CFG.irq_count →
    exec (.irqTimer .evt) s = .next (keepFixed s (sendVector
      { cleared s with host := { s.host with evtRing := { s.host.evtRing with armed := false, unsignalled := 0 } } } (fld s Reg.TOP_EVT_CFG.vector)))) ∧
  (∀ (s : State) (r pcie : Nat), serving s →
    exec (.ringFault (.pair r) pcie) s =
      .next (keepFixed s (raiseCause (report (setRing (cleared s) r { ringOf s r with fault := true }) 0x0002 r 0 [0, r, pcie]) 2))) ∧
  (∀ (s : State) (o pcie : Nat), serving s →
    exec (.ringFault (.out o) pcie) s =
      .next (keepFixed s (raiseCause (report (setORing (cleared s) o { oringOf s o with fault := true }) 0x0002 o 0 [1, o, pcie]) 2))) ∧
  (∀ (s : State) (pcie : Nat), serving s →
    exec (.ringFault .evt pcie) s = .next (keepFixed s (raiseCause (report
      { cleared s with host := { s.host with evtRing := { s.host.evtRing with fault := true } } } 0x0002 0 0 [2, 0, pcie]) 2))) ∧
  (∀ (s : State) (r v : Nat) (w : RegWrite), hostReaches s → ringEnabled s r = false → wget w Reg.TOP_RING_CFG.enable = some 1 →
    wget w Reg.TOP_RING_CFG.fault = some 0 → wgetD w Reg.TOP_RING_CFG.cq_log2 (fldAt s Reg.TOP_RING_CFG.cq_log2 [r]) = v → v ≤ 16 →
    4 ≤ wgetD w Reg.TOP_RING_CFG.sq_log2 (fldAt s Reg.TOP_RING_CFG.sq_log2 [r]) →
    wgetD w Reg.TOP_RING_CFG.sq_log2 (fldAt s Reg.TOP_RING_CFG.sq_log2 [r]) ≤ v →
    ∃ t, exec (.ringCfg r w) s = .next t ∧ ringEnabled t r = true ∧
      ringOf t r = { ringOf s r with sqHead := 0, sqTail := 0, cqTail := 0, cqHead := 0, phase := true, armed := true, unsignalled := 0 }) ∧
  (∀ (s : State) (o v : Nat) (w : RegWrite), hostReaches s → fldAt s Reg.TOP_ORING_CFG.enable [o] = 0 → wget w Reg.TOP_ORING_CFG.enable = some 1 →
    wget w Reg.TOP_ORING_CFG.fault = some 0 → wget w Reg.TOP_ORING_CFG.log2 = some v → 4 ≤ v → v ≤ 16 →
    exec (.oRingCfg (some o) w) s = .next (keepFixed s (drainRing (setORing (setFldAt (setFldAt (storeFields (written s) w [o]
      [Reg.TOP_ORING_CFG.kind, Reg.TOP_ORING_CFG.vector, Reg.TOP_ORING_CFG.irq_count, Reg.TOP_ORING_CFG.irq_us])
      Reg.TOP_ORING_CFG.log2 [o] v) Reg.TOP_ORING_CFG.enable [o] 1) o {}) o))) ∧
  (∀ (s : State) (v : Nat) (w : RegWrite), hostReaches s → fld s Reg.TOP_EVT_CFG.enable = 0 → wget w Reg.TOP_EVT_CFG.enable = some 1 →
    wget w Reg.TOP_EVT_CFG.fault = some 0 → wget w Reg.TOP_EVT_CFG.log2 = some v → 4 ≤ v → v ≤ 16 →
    exec (.oRingCfg none w) s =
      (let u := setFld (setFldAt (storeFields (written s) w [] [Reg.TOP_EVT_CFG.vector, Reg.TOP_EVT_CFG.irq_count, Reg.TOP_EVT_CFG.irq_us])
        Reg.TOP_EVT_CFG.log2 [] v) Reg.TOP_EVT_CFG.enable 1
       .next (keepFixed s (flushEvents { u with host := { u.host with evtRing := {} }, events := { u.events with setUp := true } }))))

/-- Commands COALESCE_WINDOW_CLOSE, EVENT_ALLOWANCE_TICK. Closing the window of an entry of the aggregation table frees
the entry; with a count of 2 or more its summary record is posted, with less nothing more happens. The tick adds a
thousandth of each class's rate to its allowance, held at one second's worth, and changes nothing else. -/
def Obligations.EventTableCounts : Prop :=
  (∀ (s : State) (source code epoch : Nat) (a : AggEntry), serving s →
    s.events.agg.find? (fun a => a.source = source && a.code = code && a.epoch = epoch) = some a →
    (let u := { cleared s with events := { s.events with agg := dropFirst (fun a => a.source = source && a.code = code && a.epoch = epoch) s.events.agg } }
     exec (.windowClose source code epoch) s = .next (keepFixed s (if 2 ≤ a.count then postRecord u (summaryOf a false) else u)))) ∧
  (∀ s : State, serving s →
    exec .allowanceTick s = .next { cleared s with events := { s.events with
      allow1 := Nat.min (s.events.allow1 + fld s Reg.EVT_RATE.c1) (fld s Reg.EVT_RATE.c1 * 1000)
      allow2 := Nat.min (s.events.allow2 + fld s Reg.EVT_RATE.c2) (fld s Reg.EVT_RATE.c2 * 1000)
      allow3 := Nat.min (s.events.allow3 + fld s Reg.EVT_RATE.c3) (fld s Reg.EVT_RATE.c3 * 1000) } })

/-- Commands INVALID_OPCODE, ATTACH, QUERY_CAP, DETACH, for an entry that passes the first checks (R36, R37, R47, R51). An
unlisted opcode completes with VERSION_MISMATCH (0x2). ATTACH on ring pair 0, its levels meeting 1 to 3, no required
capability missing and no other level attached, attaches at the lesser of max_level and 3 and completes OK with level,
1, 3, the capability word and 0. QUERY_CAP completes OK with the level attached, 1, 3 and the capability word. DETACH
waits behind those already waiting, tears down every context in order, and ends the attachment once none is torn; with
no context it ends at once: level 0, OK. An entry before ATTACH whose verb needs an attachment completes with
VERSION_MISMATCH (0x1): shown for SEM_ACQUIRE. -/
def Obligations.AttachmentVerbs : Prop :=
  (∀ (s : State) (sub : Sub), accepts 0 s sub →
    exec (.invalidOpcode sub) s = .next (keepFixed s (complete (taken s sub) sub .versionMismatch 0x2 []))) ∧
  (∀ (s : State) (sub : Sub) (minLevel maxLevel required : Nat), accepts 0 s sub → sub.ring = 0 → 1 ≤ maxLevel → minLevel ≤ 3 →
    missingCaps (taken s sub) required = 0 → (s.attached = 0 ∨ s.attached = Nat.min maxLevel 3) →
    exec (.attach sub minLevel maxLevel required 0) s = .next (keepFixed s
      (complete { taken s sub with attached := Nat.min maxLevel 3 } sub .ok 0
        [Nat.min maxLevel 3, 1, 3, capWord { taken s sub with attached := Nat.min maxLevel 3 }, 0]))) ∧
  (∀ (s : State) (sub : Sub), accepts 0 s sub →
    exec (.queryCap sub 0) s = .next (keepFixed s (complete (taken s sub) sub .ok 0 [s.attached, 1, 3, capWord (taken s sub)]))) ∧
  (∀ (s : State) (sub : Sub), accepts 1 s sub →
    exec (.detach sub 0) s = .next (keepFixed s (settleAll (endDetach ((tkeys s.contexts).foldl
      (fun s c => teardown s c { trigger := 3, unit := 0, code := 0 } none) { taken s sub with detaching := s.detaching ++ [sub] }))))) ∧
  (∀ (s : State) (sub : Sub), accepts 1 s sub → s.contexts = [] → s.detaching = [] →
    exec (.detach sub 0) s = .next (keepFixed s (settleAll (complete { taken s sub with detaching := [], attached := 0 } sub .ok 0 [])))) ∧
  (∀ (s : State) (sub : Sub) (sem cls rsv : Nat), accepts 0 s sub → s.attached = 0 →
    exec (.semAcquire sub sem cls rsv) s = .next (keepFixed s (complete (taken s sub) sub .versionMismatch 0x1 [])))

/-- Commands CTX_CREATE, CTX_DESTROY, CONTEXT_SLOT_FREE. Where the parameter block and its tables keep their rules, the
context number is free, the partition is enabled with a context left, the shared step space holds the record and the
slab fits its span, CTX_CREATE unwraps the blob under its domain key; where that succeeds it writes the context
(partition, parameters, key identifier, key), zeroes its three HAT_CTX limits and completes OK with the key
identifier; where it fails, it completes with PROTECTION, counting a failed unwrap. CTX_DESTROY of a context that is
there and not torn tears it down (trigger 2) and completes when the slot is freed. Freeing the slot of a torn context
is the step the last of its work allows. -/
def Obligations.ContextVerbs : Prop :=
  (∀ (s : State) (sub : Sub) (part pn : Nat) (block rot ssm layers blob : List Nat) (p : Params), accepts 1 s sub →
    (part ≤ 15 ∧ pn = part ∨ part = 0xFF ∧ pn = 0) → blobOk blob = true →
    parseParams s.attached block rot ssm layers = some p → tget? s.contexts sub.context = none →
    (partEntry s pn).enable = true → ctxsIn s pn < (partEntry s pn).maxContexts → recordKib p ≤ stepSharedFree (taken s sub) →
    (p.layers.any (·.ssm) && decide (1024 < slabSpan (slabSize p) s.lay.active.attic.slabKib)) = false →
    exec (.ctxCreate sub part 0 block rot ssm layers blob) s = .next (keepFixed s (settleAll (match unwrapKey s blob with
      | .ok key => complete (setFldAt (setFldAt (setFldAt
          { taken s sub with contexts := tset s.contexts sub.context { partition := pn, params := p, keyId := leAt blob 4 4, dkIndex := leAt blob 1 1, key := key } }
          Reg.HAT_CTX.max_sessions [sub.context] 0) Reg.HAT_CTX.max_c0 [sub.context] 0) Reg.HAT_CTX.class_floor [sub.context] 0)
          sub .ok 0 [leAt blob 4 4]
      | .error d => complete (if d = 0x11 then bump (taken s sub) Reg.SEC_COUNT.unwrap_fail else taken s sub) sub .protection d [])))) ∧
  (∀ (s : State) (sub : Sub), accepts 1 s sub → ctxBad (taken s sub) sub.context = none →
    exec (.ctxDestroy sub 0) s = .next (keepFixed s (settleAll (teardown (taken s sub) sub.context { trigger := 2, unit := 0, code := 0 } (some sub))))) ∧
  (∀ (s : State) (ctx : Nat), serving s → exec (.contextSlotFree ctx) s = .next (keepFixed s (freeContext (cleared s) ctx)))

/-- Commands SES_OPEN, SES_RESUME, SES_CANCEL, SES_QUERY, PFX_INSERT. Where no check of its row fails, a SES_OPEN that the
hatch admits takes the next serial and a shelf (or waits for one) with the handle, mirror and record of the rules,
holds its headroom, ledger costs and tally draw, posts the OPENED chunk, and starts its input; a SES_RESUME of a
PARKED or DORMANT session that the hatch admits makes it RESUMING with its measures begun anew, holds again what it
needs, requests the raise of what it keeps, and starts its input; SES_CANCEL marks the session, refuses with CANCELLED
what waited behind it and tries to end it; SES_QUERY completes OK with the descriptor's fields; PFX_INSERT leaves the
publication pending for the session's next step boundary. Each verb but SES_OPEN first promotes a shadow of a lost
home that it names. After it, what waits elsewhere goes on. -/
def Obligations.SessionVerbsRun : Prop :=
  (∀ (s : State) (sub : Sub) (a : OpenArgs) (c : Ctx) (serial gen draw : Nat) (room : Headroom) (cost : List LedgerCost) (outside : Bool), accepts 1 s sub →
    (let u := taken s sub
     let h := mkHandle u.device sub.context serial gen
     let x := openRecord u h c.partition a
     let t := estimateT u (isTokenInput a) a.inLen
     openArgsBad u true sub.context a = none → tget? s.contexts sub.context = some c → c.torn = none → (hasCap u 0 || hasCap u 1) = true →
     s.steps.paused = false → swapping u sub.context = false → nextSerial u = some (serial, gen) →
     (countedSess u).length < sessionLimit u → shelfComes u = true → decideVerb u x c.params true t = .accept room cost outside draw →
     (let v := holdVerb (setSess (takeSerial u) { x with
        place := if shelvesUsed u < shelves u then Place.shelf else .waiting
        mirrorDev := match chooseMirror u serial [] with | some m => m.1 | none => 0x7FF
        verb := some { sub := sub, resume := false } }) h room cost outside t draw
      exec (.sesOpen sub a) s = .next (keepFixed s (settleAll (startInput (checkSpill
        (postChunk (assignTrack v h false) h (mkChunk .opened h 0 0 false false [] [sub.tag, sub.ring]))) h a)))))) ∧
  (∀ (s : State) (sub : Sub) (a : OpenArgs) (x : Session) (p : Params) (draw : Nat) (room : Headroom) (cost : List LedgerCost) (outside : Bool), accepts 2 s sub →
    (let u := loseGone (promoteIfLost (taken s sub) sub.handle) sub.handle
     let t := estimateT u (isTokenInput a) a.inLen
     openArgsBad u false sub.context a = none → verbSession u sub = .ok x → (x.state = .parked ∨ x.state = .dormant) → mustWait x = false →
     (hasCap u 0 || hasCap u 1) = true → u.steps.paused = false → swapping u sub.context = false → paramsOf u sub.context = some p →
     decideVerb u x p false t = .accept room cost outside draw →
     (let v := modTrack (setSess u { x with verb := some { sub := sub, resume := true }, tStart := u.timebase, tTouch := u.timebase, supplied := 0, inTokens := [],
                                            latency := { x.latency with ttftOpen := true, outside := false, tbtMaxNs := 0, resMaxNs := 0 }, state := .resuming })
        x fun k => { k with tbtMax := 0, resMax := 0 }
      let v := rehold (holdVerb v x.handle room cost outside t draw) x.handle
      exec (.sesResume sub a) s = .next (keepFixed s (settleAll (startInput ((keepSet v x).foldl (fun s id => match objOf s id with
        | some o => if o.state = .home && !hasMove s id then requestRaise s id (qDemand x.cls) else s
        | none => s) v) x.handle a)))))) ∧
  (∀ (s : State) (sub : Sub) (x : Session), accepts 1 s sub →
    (let u := promoteIfLost (taken s sub) sub.handle
     verbSession u sub = .ok x → x.rejoin = false → x.state ≠ .retiring →
     (let v := x.waiting.foldl (fun s w => complete s w.sub .cancelled 0 []) (setSess u { x with cancelPending := true, cancels := x.cancels ++ [sub], waiting := [] })
      exec (.sesCancel sub 0) s = .next (keepFixed s (settleAll (tryCancel (if x.place = .spilled then startFetch v sub.handle else v) sub.handle)))))) ∧
  (∀ (s : State) (sub : Sub) (x : Session), accepts 1 s sub →
    (let u := promoteIfLost (taken s sub) sub.handle
     tget? u.mir.shadows (hKey sub.handle) = none → verbSession u sub = .ok x → mustWait x = false →
     exec (.sesQuery sub 0) s = .next (keepFixed s (settleAll (complete u sub .ok 0
       [x.state.code, x.cls, flagsByte x, x.fault.code, x.step, x.length, if x.step = 0 then 0xFFFFFFFF else x.step - 1,
        x.homeDev, x.homeEpoch, x.mirrorDev + 65536 * x.mirrorEpoch]))))) ∧
  (∀ (s : State) (sub : Sub) (x : Session) (maxChunks flags : Nat), accepts 2 s sub → flags < 2 →
    (let u := promoteIfLost (taken s sub) sub.handle
     verbSession u sub = .ok x → hasCap u 6 = true → mustWait x = false → (x.state = .active ∨ x.state = .parked ∨ x.state = .dormant) →
     (let v := setSess u { x with publish := some (sub, maxChunks, flags = 1) }
      exec (.pfxInsert sub maxChunks flags 0) s =
        .next (keepFixed s (settleAll (if inFlight v sub.handle then v else startPublish v sub.handle))))))

/-- Commands PFX_REMOVE, INV_PROBE, INV_COMMIT, INV_PUBLISH, INV_WITHDRAW, INV_RSP, INV_PROBE_TIMEOUT, INV_PIN_EXPIRY.
PFX_REMOVE of a node of the context withdraws it here and at every controller of the context; with ALL it withdraws
the whole context. A probe takes pins and answers OK with the longest stored prefix; a commit takes the pinned tokens
over into the session's record and answers; a publication and a withdrawal answer with what they indexed and how many
nodes went. An answer to a lookup removes the sender from those waited for and, when none is left, commits or
completes; a lookup whose answers do not come ends (and a probe reports INV_NO_ANSWER); pins that expire are dropped. -/
def Obligations.InventoryVerbAndMessages : Prop :=
  (∀ (s : State) (sub : Sub) (ref : Nat) (c : Ctx) (n : Nat × InvNode), accepts 2 s sub → ref ≠ 0 → sub.handle = 0 →
    (let u := promoteIfLost (taken s sub) 0
     tget? u.contexts sub.context = some c → removeNode u sub.context ref none = .ok n → hasCap u 6 = true → c.torn = none →
     exec (.pfxRemove sub ref 0 0) s = .next (keepFixed s (settleAll (withdrawAll u sub (some n)))))) ∧
  (∀ (s : State) (sub : Sub) (c : Ctx), accepts 2 s sub → sub.handle = 0 →
    (let u := promoteIfLost (taken s sub) 0
     tget? u.contexts sub.context = some c → hasCap u 6 = true → c.torn = none →
     exec (.pfxRemove sub 0 1 0) s = .next (keepFixed s (settleAll (withdrawAll u sub none))))) ∧
  (∀ (s : State) (r : InvReq) (p : Params), serving s → ctxBad (cleared s) r.context = none → paramsOf (cleared s) r.context = some p →
    (let a := localLookup (cleared s) r.src r.request r.handle p r.tokens r.fmt
     exec (.invProbe r) s = .next (keepFixed s (settleAll (sendMsg a.1 r.src
       (.invRsp { op := r.op, status := .ok, detail := 0, request := r.request, value := a.2.1, points := a.2.2, slabPoint := false, handle := r.handle })))))) ∧
  (∀ (s : State) (r : InvReq), serving s → ctxBad (cleared s) r.context = none → r.value ≠ 0 →
    (let toks := match pinsOf (cleared s) r.src r.request with | some q => q.tokens | none => []
     let a := commitLocal (invGuest (cleared s) r toks) r.src r.request r.handle r.value
     exec (.invCommit r) s = .next (keepFixed s (settleAll (sendMsg a.1 r.src
       (.invRsp { op := r.op, status := a.2.1, detail := a.2.2, request := r.request, value := 0, points := none, slabPoint := false, handle := r.handle })))))) ∧
  (∀ (s : State) (r : InvReq), serving s → ctxBad (cleared s) r.context = none →
    (let a := publishLocal (cleared s) r.handle r.value r.pin
     exec (.invPublish r) s = .next (keepFixed s (settleAll (sendMsg a.1 r.src
       (.invRsp { op := r.op, status := a.2.1, detail := 0, request := r.request, value := a.2.2.indexed, points := none, slabPoint := a.2.2.slabPoint,
                  handle := r.handle })))))) ∧
  (∀ (s : State) (r : InvReq) (n : Nat × InvNode), serving s → r.all = false →
    (s.inv.nodes.find? fun n => n.2.indexed && n.2.ctx = r.context && n.2.fmt = r.fmt && n.2.depth = r.value && n.2.hash = r.hash) = some n →
    (let a := countWithdrawn (withdrawNode (cleared s) n.1)
     exec (.invWithdraw r) s = .next (keepFixed s (settleAll (sendMsg a.1 r.src
       (.invRsp { op := r.op, status := .ok, detail := 0, request := r.request, value := a.2, points := none, slabPoint := false, handle := r.handle })))))) ∧
  (∀ (s : State) (src : Nat) (r : InvRsp) (l : Lookup), serving s → r.op = 1 → r.status = .ok → (sessOf s r.handle).bind (·.lookup) = some l →
    l.req = r.request → l.waitingFor.contains src = true → l.committing = false →
    (let l' := { l with waitingFor := l.waitingFor.erase src, answers := l.answers ++ [(src, r.value, r.points)] }
     let u := modSess (cleared s) r.handle fun x => { x with lookup := some l' }
     exec (.invRsp src r) s = .next (keepFixed s (settleAll (if (l.waitingFor.erase src).isEmpty then lookupCommit u r.handle else u))))) ∧
  (∀ (s : State) (src : Nat) (r : InvRsp) (l : Lookup), serving s → r.op = 2 → r.status = .ok → (sessOf s r.handle).bind (·.lookup) = some l →
    l.req = r.request → l.waitingFor.contains src = true → l.committing = true →
    (let l' := { l with waitingFor := l.waitingFor.erase src }
     let u := modSess (cleared s) r.handle fun x => { x with lookup := some l' }
     exec (.invRsp src r) s = .next (keepFixed s (settleAll (if (l.waitingFor.erase src).isEmpty then lookupDone u r.handle l.t else u))))) ∧
  (∀ (s : State) (src : Nat) (r : InvRsp) (o : InvOp), serving s → (r.op = 3 ∧ o.publish = true ∨ r.op = 4 ∧ o.publish = false) →
    invOp s r.request = some o → o.waitingFor.contains src = true → r.status = .ok →
    (let o' := { o with waitingFor := o.waitingFor.erase src }
     let u := setInvOp (cleared s) o'
     exec (.invRsp src r) s = .next (keepFixed s (settleAll (if o'.waitingFor.isEmpty then finishInvOp u o' else u))))) ∧
  (∀ (s : State) (h : Nat) (l : Lookup), serving s → (sessOf s h).bind (·.lookup) = some l →
    exec (.invProbeTimeout h) s = .next (keepFixed s (settleAll (if l.committing then lookupFails (cleared s) h else lookupZero (noAnswer (cleared s)) h)))) ∧
  (∀ (s : State) (src request : Nat), serving s →
    exec (.invPinExpiry src request) s = .next (keepFixed s (settleAll (dropPins (cleared s) src request))))

/-- Commands TBL_SWAP_LOAD, TBL_SWAP_BIND, TBL_SWAP_FREE, TABLE_SWITCH, EMB_DECAY, EMB_CFG_WRITE. For a context that is
there and not torn, a unit that is present and no reserved bit: LOAD into a slot that is empty or the context's own,
with room, admits the swap of the parsed table, or refuses with the status of the parse (VERSION_MISMATCH 0x10,
DIGEST_MISMATCH) or of a clash with an open session's use; BIND of a valid block admits its swap; FREE of a table that
no context binds admits its swap, FREE of an empty slot completes OK. TABLE_SWITCH finishes the first swap that
nothing keeps. The decay halves each row's use count and changes nothing else. A write of EMB_CFG with values in range
stores them, and a change of mode empties the cache. -/
def Obligations.TableSwapsAndEmbeddingCache : Prop :=
  (∀ (s : State) (sub : Sub) (slot flags length : Nat) (img : List Nat) (c : Ctx), accepts 2 s sub →
    (let u := taken s sub
     let old := slotTable s slot
     let own : Bool := match old with | some t => t.owner.isNone || t.owner = some sub.context | none => true
     (8 ≤ slot → 3 ≤ s.attached) → slot < 16 → flags < 2 → tget? s.contexts sub.context = some c → c.torn = none → hasCap u (slotCap slot) = true →
     own = true → tableFits u slot (tableSpace slot length) = true →
     exec (.tblSwapLoad sub slot flags length 0 img) s = .next (keepFixed s (settleAll
       (match parseTable slot img length ((vocabOf u sub.context).map (·.strings.length)) with
        | .error .structure_ => complete u sub .versionMismatch 0x10 []
        | .error .digest => complete u sub .digestMismatch 0x1 []
        | .ok (body, dig) =>
          if (match old with | some t => bodyClash t.body body && (bindersOf u slot).any (hasOpen u) | none => false) then
            complete u sub .versionMismatch 0xF []
          else admitSwap u sub (.load slot { body := body, digest := dig, shared := flags = 1, owner := some sub.context, space := tableSpace slot length })
            (if old.isSome then bindersOf u slot else [])))))) ∧
  (∀ (s : State) (sub : Sub) (block : List Nat) (c : Ctx) (b : Binding), accepts 2 s sub →
    (let u := taken s sub
     tget? s.contexts sub.context = some c → c.torn = none → hasCap u 8 = true → parseBind u block = some b → bindVocabOk u b = true →
     (b.constr.isSome = true → 3 ≤ s.attached) →
     ([b.vocab, b.embed, b.constr].all fun i => match i.bind (slotTable s) with
       | some t => t.shared || t.owner.isNone || t.owner = some sub.context | none => true) = true →
     bindClash u sub.context b = false →
     exec (.tblSwapBind sub 0 64 0 block) s = .next (keepFixed s (settleAll
       (admitSwap u sub (.bind sub.context b) (if hasOpen u sub.context then [sub.context] else [])))))) ∧
  (∀ (s : State) (sub : Sub) (slot : Nat) (c : Ctx), accepts 2 s sub → slot < 16 →
    (let u := taken s sub
     tget? s.contexts sub.context = some c → c.torn = none → hasCap u (slotCap slot) = true →
     (slotTable s slot = none → exec (.tblSwapFree sub 3 slot 0 0) s = .next (keepFixed s (settleAll (complete u sub .ok 0 [])))) ∧
     (∀ t, slotTable s slot = some t → (t.owner = none ∨ t.owner = some sub.context) → bindersOf u slot = [] →
       exec (.tblSwapFree sub 3 slot 0 0) s = .next (keepFixed s (settleAll (admitSwap u sub (.free slot) [])))))) ∧
  (∀ (s : State) (w : Swap), serving s → (s.tok.swaps.find? fun w => !swapBusy (cleared s) w) = some w →
    exec .tableSwitch s = .next (keepFixed s (settleAll (finishSwap (cleared s) w)))) ∧
  (∀ s : State, serving s →
    exec .embDecay s = .next { cleared s with tok := { s.tok with cache := s.tok.cache.map fun r => { r with uses := r.uses / 2 } } }) ∧
  (∀ (s : State) (w : RegWrite) (m d k : Nat), hostReaches s → wget w Reg.EMB_CFG.mode = some m → limOk Reg.EMB_CFG.mode.lim m = true →
    wget w Reg.EMB_CFG.decay_us = some d → limOk Reg.EMB_CFG.decay_us.lim d = true → wget w Reg.EMB_CFG.depth = some k →
    limOk Reg.EMB_CFG.depth.lim k = true →
    (let u := setFld (setFld (setFld (written s) Reg.EMB_CFG.mode m) Reg.EMB_CFG.decay_us d) Reg.EMB_CFG.depth k
     exec (.embCfgWrite w) s = .next (keepFixed s (if fld u Reg.EMB_CFG.mode = fld s Reg.EMB_CFG.mode then u
       else { u with tok := { u.tok with cache := [] } }))))

/-- SEM_ACQUIRE, SEM_RELEASE, SEM_GRANT, SEM_REQ, SEM_INHERIT_LIMIT. For an entry that is accepted, a context that is
there and not torn, a semaphore below 4,096 and a class below 4: an acquire of a free semaphore makes the caller its
holder, clears an abandonment mark and completes OK, or ABANDONED with the mark's cause, context and device; an
acquire by its holder completes OK; else the caller waits and the holder's context inherits the least class of a
waiter below its own. A release by the holder passes the semaphore to the first waiter in class order, then by
arrival, and completes OK; a release by anyone else is refused BAD_HANDLE 0x7. SEM_GRANT completes the oldest waiter
that was passed the semaphore, with the time it waited. SEM_REQ of another device does for that device what the two
verbs do. SEM_INHERIT_LIMIT posts the event with the semaphore and the context, abandons what that context holds and,
for a context here, tears it down with trigger 4. A waiter passed a semaphore becomes its holder, stands in the
granted list and leaves the waiters. -/
def Obligations.SemaphoreCommands : Prop :=
  (∀ (s : State) (sub : Sub) (sem cls : Nat), accepts 1 s sub → sem < 4096 → cls < 4 → ctxBad s sub.context = none →
    (let u := taken s sub
     let x := semOf s sem
     exec (.semAcquire sub sem cls 0) s = .next (keepFixed s
       (match x.holder with
        | none =>
          let v := setSem u sem { x with holder := some ⟨s.device, sub.context, cls⟩, mark := none }
          match x.mark with
          | none => complete v sub .ok 0 [0, 0, 0, 0]
          | some k => complete v sub .abandoned 0 [k.cause, k.ctx, k.dev, 0]
        | some h =>
          if h.dev = s.device ∧ h.ctx = sub.context then complete u sub .ok 0 [0, 0, 0, 0]
          else
            let y : Sem := { x with waiters := x.waiters ++ [{ dev := s.device, ctx := sub.context, cls := cls, sub := sub, since := s.timebase }] }
            setSem u sem { y with inherit := inheritOf y })))) ∧
  (∀ (s : State) (sub : Sub) (sem : Nat), accepts 1 s sub → sem < 4096 → ctxBad s sub.context = none →
    exec (.semRelease sub sem 0) s = .next (keepFixed s (settleAll
      (if (semOf s sem).holder.any (fun h => h.dev = s.device && h.ctx = sub.context) then complete (passSem (taken s sub) sem none) sub .ok 0 []
       else complete (taken s sub) sub .badHandle 0x7 [])))) ∧
  (∀ (s : State) (sem : Nat) (w : SemWaiter) (m : Option SemMark) (t : List (SemWaiter × Option SemMark)), serving s → (semOf s sem).granted = (w, m) :: t →
    exec (.semGrant sem) s = .next (keepFixed s (complete (setSem (cleared s) sem { semOf s sem with granted := t }) w.sub
      (if m.isSome then .abandoned else .ok) 0
      [m.elim 0 (·.cause), m.elim 0 (·.ctx), m.elim 0 (·.dev), s.timebase - w.since]))) ∧
  (∀ (s : State) (src : Nat) (sub : Sub) (sem cls : Nat), serving s → sem < 4096 → cls < 4 →
    exec (.semReq src 0x80 sub sem cls) s =
      .next (keepFixed s (settleAll (semAcquire (cleared s) { sub with ring := remoteRing + src } src sem cls))) ∧
    exec (.semReq src 0x81 sub sem cls) s =
      .next (keepFixed s (settleAll (semRelease (cleared s) { sub with ring := remoteRing + src } src sem)))) ∧
  (∀ (s : State) (sem : Nat) (h : SemHolder) (k : Nat), serving s → (semOf s sem).holder = some h → (semOf s sem).inherit = some k →
    exec (.semInheritLimit sem) s = .next (keepFixed s (settleAll
      (let u := abandonAll (report (cleared s) 0x0806 sem 0 [sem, h.ctx]) 4 fun y => y.dev = h.dev && y.ctx = h.ctx
       if h.dev = u.device then teardown u h.ctx { trigger := 4, unit := 0, code := 0 } none else u)))) ∧
  (∀ (s : State) (i : Nat) (m : Option SemMark) (w : SemWaiter), nextWaiter (semOf s i).waiters = some w →
    (let y := semOf (passSem s i m) i
     y.holder = some ⟨w.dev, w.ctx, w.cls⟩ ∧ y.mark = none ∧ y.granted = (semOf s i).granted ++ [(w, m)] ∧
     y.waiters = dropFirst (fun v => v = w) (semOf s i).waiters ∧ ∀ j, j ≠ i → semOf (passSem s i m) j = semOf s j))

/-- Commands ATN_QKV and ATN_QKV_EARLY_HOLD_EXPIRY. A message enters the list of works with its arrival time, its source
is noted in its part, and the checks decide it: taken, its coverage is counted, the layer's last arrival kept, its
objects held, and the work goes on as far as it can; held, it waits under the reason; answered, it goes back with that
status and detail; stale, it is dropped without an answer and counted. The checks: a header that breaks the layout is
VERSION_MISMATCH 0x7 before anything else; then a handle that names nothing is BAD_HANDLE 0x1; then, in a context that
is there and not torn, a message whose part is not here yet is held for the descriptor, or, once the hold is over,
BAD_HANDLE 0x6. A hold for the descriptor or for a seal that expires decides the message again, as late: an answer
then goes to the source. -/
def Obligations.AttentionMessages : Prop :=
  (∀ (s : State) (half : Nat) (q : AtnQkv), serving s →
    (let u := promoteIfLost (cleared s) q.handle
     let w : AtnWork := { id := u.atn.nextWork, msg := q, arrival := u.timebase, hold := .descriptor, half := half }
     let v := modPart { u with atn := { u.atn with work := u.atn.work ++ [w], nextWork := u.atn.nextWork + 1 } } q.stepRef fun p =>
       { p with senders := if p.senders.contains q.src then p.senders else p.senders ++ [q.src] }
     (∀ i t, checkQkv v q false = .take i t → exec (.atnQkv half q) s = .next (keepFixed s (settleAll
       (let t := modPart (coverMsg t q.handle q.stepRef q) q.stepRef fun p => { p with layerIn := tset p.layerIn q.layer (Nat.max w.arrival (tget 0 p.layerIn q.layer)) }
        let t := modWork t w.id fun w => { w with hold := .no }
        advanceWork (match sessOf t q.handle, paramsOf t (hCtx q.handle) with
          | some x, some p => pinObjs t q.stepRef i x.cls (stageOne t x p q)
          | _, _ => t) w.id)))) ∧
     (∀ h, checkQkv v q false = .hold h →
       exec (.atnQkv half q) s = .next (keepFixed s (settleAll (modWork v w.id fun w => { w with hold := h })))) ∧
     (∀ st d, checkQkv v q false = .answer st d → exec (.atnQkv half q) s = .next (keepFixed s (settleAll (refuseWork v w st d)))) ∧
     (checkQkv v q false = .stale →
       exec (.atnQkv half q) s = .next (keepFixed s (settleAll (bump (dropOneWork v w.id) Reg.ATN_COUNT.stale)))))) ∧
  (∀ (s : State) (q : AtnQkv) (late : Bool), headerOk q = false → checkQkv s q late = .answer .versionMismatch 0x7) ∧
  (∀ (s : State) (q : AtnQkv) (late : Bool) (c : Ctx), tget? s.contexts (hCtx q.handle) = some c → messageOk c.params q = true → handleCurrent s q.handle = false →
    checkQkv s q late = .answer .badHandle 0x1) ∧
  (∀ (s : State) (q : AtnQkv) (late : Bool) (c : Ctx), tget? s.contexts (hCtx q.handle) = some c → messageOk c.params q = true → handleCurrent s q.handle = true →
    c.torn = none → partOf s q.stepRef = none → checkQkv s q late = if late then .answer .badHandle 0x6 else .hold .descriptor) ∧
  (∀ (s : State) (w : AtnWork) (st : Status) (d : Nat), serving s → workOf s w.id = some w → (w.hold = .descriptor ∨ w.hold = .seal) →
    checkQkv (cleared s) w.msg true = .answer st d →
    exec (.atnQkvEarlyHoldExpiry w.id) s = .next (keepFixed s (settleAll (refuseWork (cleared s) w st d))))

/-- Commands DLG_BLOCK, DLG_OUT, DLG_TIMEOUT. A DLG_BLOCK is answered UNIT_ABSENT where the full tile array is absent or
DEN_DLG.accept is 0, else NO_CAPACITY where the shared step buffers lack the payload's room, else VERSION_MISMATCH 0x7
where it breaks the limits; else it is served: a record of its pieces and its room, and one tile command for each
piece, in the class max(cls, class_max). A DLG_OUT under the request, the epoch and the handle of an outstanding
request hands over its payload with the place it belongs to, and the work goes on; with a status other than OK the
work is answered with that status and detail and the failure is counted. A request without an answer in time ends the
work with LINK_DOWN, detail 0x3. -/
def Obligations.DelegatedBlocks : Prop :=
  (∀ (s : State) (half : Nat) (m : DlgBlock), serving s →
    (let u := cleared s
     let kib := ceilDiv (dlgBytes m) 4096 * 4
     let n := (piecesOf m.chunk m.crates).length
     exec (.dlgBlock half m) s = .next (keepFixed s (settleAll
       (if !hasCap s 0 || !flag s Reg.DEN_DLG.accept then answerDlg u m .unitAbsent 0 []
        else if stepSharedFree s < kib then answerDlg u m .noCapacity 0 []
        else if !dlgOk m then answerDlg u m .versionMismatch 0x7 []
        else
          queueTiles { u with den := { s.den with serving := s.den.serving ++ [{ id := s.den.nextServe, msg := m, left := n, kib := kib }], nextServe := s.den.nextServe + 1 } }
            (List.replicate n { work := s.den.nextServe, half := half, cls := Nat.max m.cls (fld s Reg.DEN_DLG.class_max), ctx := hCtx m.handle,
                                handle := m.handle, serve := true })))))) ∧
  (∀ (s : State) (m : DlgOut) (w : AtnWork) (ep h sb st part : Nat) (r : Role), serving s → dlgWork s m.request = some (w, (m.request, ep, h, sb, st, part)) →
    delegateOf s = some r → ep = m.epoch → r.epoch = m.epoch → w.msg.handle = m.handle →
    exec (.dlgOut m) s = .next (keepFixed s (settleAll
      (if m.status = .ok then
         checkWork (modWork (cleared s) w.id fun w => { w with dlg := w.dlg.filter (·.1 ≠ m.request), rows := w.rows ++ [(h, sb, st, part, m.payload)] }) w.id
       else dlgFail (refuseWork (cleared s) w m.status m.detail))))) ∧
  (∀ (s : State) (req : Nat) (w : AtnWork) (d : Nat × Nat × Nat × Nat × Nat × Nat), serving s → dlgWork s req = some (w, d) →
    exec (.dlgTimeout req) s = .next (keepFixed s (settleAll (dlgFail (refuseWork (cleared s) w .linkDown 0x3)))))

/-- Commands TILE_DISPATCH, TILE_COMMAND_END, TILE_CYCLE_LIMIT, DEN_TEST_CTL_GO. A free tile takes the command that the
order of the queues gives: the command leaves its queue for the tile, and its bytes are charged to its partition
unless it belongs to a delegated block. The end of a queued command with code 0 frees the tile, counts the command and
its multiply-accumulates, and is reported to what issued it; code 0x04 marks the tile failed, puts the command back at
the front of its queue and posts the fault; a cycle limit posts the fault and ends the message the command belongs to
with a job fault of code 0x05. The end of the host's command, with code 0, runs it on the staging memory and its code
is that of the run; with another code it ends with that code, and at a cycle limit with 0x05. A write of DEN_TEST_CTL
with go starts the host's command on a usable tile where host commands are allowed and none is in progress. -/
def Obligations.TileCommands : Prop :=
  (∀ (s : State) (t k : Nat) (c : TileCmd), serving s → tileFree s t = true → nextCmd s (tileHalf t) = some (k, c) →
    (let rest := dropFirst (fun x => x = c) (tget [] s.den.queues k)
     let u := { cleared s with den := { s.den with queues := if rest.isEmpty then tdel s.den.queues k else tset s.den.queues k rest, running := tset s.den.running t c } }
     exec (.tileDispatch t) s = .next (keepFixed s (if c.serve then u else charge u (ctxPart s c.ctx) resAttic c.bytes)))) ∧
  (∀ (s : State) (t nbu page macs cycles : Nat) (c : TileCmd), serving s → s.den.hostCmd = none → tget? s.den.running t = some c →
    (let u := { cleared s with den := { s.den with running := tdel s.den.running t } }
     exec (.tileCommandEnd t 0 nbu page macs cycles) s = .next (keepFixed s (settleAll
       (if c.serve then serveDone (countCmd u macs) c.work else tileDone (countCmd u macs) c.work))) ∧
     (let f := denFault u t 0x04 c
      let f := setFld f Reg.DEN_TILES.failed (putBit (fld f Reg.DEN_TILES.failed) t true)
      let q := 4 * c.half + c.cls
      let f := { f with den := { f.den with queues := tset f.den.queues q (c :: tget [] f.den.queues q) } }
      usableTiles f ≠ [] → exec (.tileCommandEnd t 0x04 nbu page macs cycles) s = .next (keepFixed s (settleAll f))) ∧
     (∀ w, c.serve = false → workOf (denFault u t 0x05 c) c.work = some w →
       exec (.tileCycleLimit t cycles) s = .next (keepFixed s (settleAll (workTorn (denFault u t 0x05 c) w t 0x05)))))) ∧
  (∀ (s : State) (t code nbu page macs cycles : Nat) (b : List Nat), serving s → s.den.hostCmd = some (t, b) →
    exec (.tileCommandEnd t 0 nbu page macs cycles) s = .next (keepFixed s (settleAll
      (let r := runTile (cleared s) b
       endHostCmd (if r.2 = 0 then countCmd r.1 macs else r.1) r.2 cycles))) ∧
    (code ≠ 0 → code ≠ 4 → exec (.tileCommandEnd t code nbu page macs cycles) s = .next (keepFixed s (settleAll (endHostCmd (cleared s) code cycles)))) ∧
    exec (.tileCycleLimit t cycles) s = .next (keepFixed s (settleAll (endHostCmd (cleared s) 0x05 cycles)))) ∧
  (∀ (s : State) (t : Nat), hostReaches s → flag s Reg.DEN_TEST_CTL.busy = false → partTiles s.part ≠ [] →
    (let u := setFld (written s) Reg.DEN_TEST_CTL.tile t
     flag u Reg.DEN_TEST_CTL.busy = false → flag u Reg.DEN_CFG.host_cmds = true → (usableTiles u).contains (fld u Reg.DEN_TEST_CTL.tile) = true →
     exec (.denTestCtlGo t) s = .next (keepFixed s
       (let v := setFld u Reg.DEN_TEST_CTL.busy 1
        { v with den := { v.den with hostCmd := some (fld u Reg.DEN_TEST_CTL.tile, testBytes v) } }))))

/-- Commands STP_DESC, PART_START, CREDIT_WAIT_EXPIRY. A descriptor that the checks of a whole descriptor pass makes a
part in arrival order, with the records of its sessions where this controller is the home, and its entries are checked
in order; one that they refuse is answered for all its sessions with that status; a malformed one is VERSION_MISMATCH
0x7 before anything else, one of a step reference in use VERSION_MISMATCH 0xA. PART_START of a part that may start
takes the next start number, gives every entry that may start its step slots, out of the partition's reserve first and
the shared pool for the rest, and starts it. A wait for credits that is over pre-empts the shortest run of victims
that hold what the link lacks. -/
def Obligations.StepDescriptorsAndStarts : Prop :=
  (∀ (s : State) (d : StepDesc), serving s → s.lay.fast = none →
    (let u := (d.entries.map (·.handle)).foldl promoteIfLost (cleared s)
     u.lay.fast = none →
     (∀ st detail, descBad u d = some (st, detail) → exec (.stpDesc d) s = .next (keepFixed s (settleAll (refuseDesc u d st detail)))) ∧
     (descBad u d = none → exec (.stpDesc d) s = .next (keepFixed s (settleAll
       (let u := d.entries.foldl (fun s e => makeGuest s d e) u
        let home : Bool := d.home = u.device
        let p : StepPart :=
          { stepRef := d.stepRef, submitter := d.src, home := d.home, cls := d.cls, first := d.first, last := d.last, context := d.context, tokens := d.tokens,
            block := d.block, noRerun := d.noRerun
            entries := d.entries.map fun e => { handle := e.handle, step := e.step, homeEpoch := e.homeEpoch, tokens := d.tokens }
            homeRec := if home then d.entries.map fun _ => {} else []
            participants := if home then stepParticipants u (hSerial (d.entries.headD ⟨0, 0, 0⟩).handle) d.first d.last d.home else [] }
        dropDone ((List.range d.entries.length).foldl (fun s i => checkEntry s d.stepRef i) (addPart u p)) d.stepRef)))))) ∧
  (∀ (s : State) (d : StepDesc), descMalformed d = true → descBad s d = some (.versionMismatch, 0x7)) ∧
  (∀ (s : State) (d : StepDesc) (p : StepPart), descMalformed d = false → partOf s d.stepRef = some p → descBad s d = some (.versionMismatch, 0xA)) ∧
  (∀ (s : State) (ref : Nat) (p : StepPart) (q : Params), serving s → partOf s ref = some p → canStart s p = true → paramsOf s p.context = some q →
    (let ix := startable s p
     let kib (i : Nat) : Nat := entryKib q p.block ((p.entries[i]?).elim 1 (·.tokens))
     exec (.partStart ref) s = .next (keepFixed s (settleAll
       (let u := modPart (cleared s) ref fun p => { p with startOrder := s.steps.nextStart }
        let u := { u with steps := { u.steps with nextStart := s.steps.nextStart + 1 } }
        let u := ix.foldl (fun u i =>
          modEntry u ref i fun e => { e with started := true, ownKib := Nat.min (kib i) (ownFree u p), sharedKib := kib i - Nat.min (kib i) (ownFree u p) }) u
        ix.foldl (fun u i => maybePrepared u ref i) u))))) ∧
  (∀ (s : State) (ref n need : Nat) (p : StepPart) (vs : List StepPart), serving s → partOf s ref = some p → creditShort s ref = some (n, need) →
    coverVictims (fun v => sharedCredits s v.stepRef n) (victims s (partClass s p)) need = some vs →
    (let cls (u : State) := partClass u p
     exec (.creditWaitExpiry ref) s = .next (keepFixed s (settleAll
       (vs.foldl (fun u v => killPart (modPart (bump (report u 0x0801 0 0 [v.stepRef, partClass u v, cls u]) Reg.STP_COUNT.preempted) v.stepRef
         fun p => { p with preempts := p.preempts + 1 }) v.stepRef .preempted 0) (cleared s))))))

/-- Commands STEP_SUBMIT, STP_DONE, STEP_KILL. An accepted STEP_SUBMIT whose length fits 1 to 4,096 sessions takes this
controller's next step reference, keeps the descriptor with the indices of its sessions, and submits it with this
device as source. STP_DONE under one of its references adds the results of sessions that have none yet, under their
original indices; when every session has one, the status bytes are written to result_addr and the verb completes with
the status of the lowest index that failed, or OK, the number sealed, that index, and the attempts. STEP_KILL at the
home lets no attempt follow, ends the sessions before their decision point with PREEMPTED, and completes OK; for a
reference that is no part homed here it completes BAD_HANDLE 0x8. -/
def Obligations.StepVerbsAtTheSubmitter : Prop :=
  (∀ (s : State) (sub : Sub) (d : StepDesc) (len addr : Nat), accepts 1 s sub → 0 < d.count → d.count ≤ 4096 → len = 64 + 16 * d.count → d.entries.length = d.count →
    (let u := (d.entries.map (·.handle)).foldl promoteIfLost (taken s sub)
     let ref := u.device * 2 ^ 21 + u.steps.nextSeq % 2 ^ 21
     let e : StepDesc := { d with src := u.device, stepRef := ref, noRerun := sub.noRerun }
     exec (.stepSubmit sub d len addr 0) s = .next (keepFixed s (settleAll
       (submitDesc { u with steps := { u.steps with nextSeq := (u.steps.nextSeq + 1) % 2 ^ 21,
                                                    submitted := u.steps.submitted ++ [{ sub := sub, resultAddr := addr, desc := e, refs := [(ref, List.range d.count)] }] } } e))))) ∧
  (∀ (s : State) (m : StepMsg) (t : Submitted), serving s → (s.steps.submitted.find? fun t => t.refs.any (·.1 = m.stepRef)) = some t →
    (let ix := match t.refs.find? (·.1 = m.stepRef) with | some r => r.2 | none => []
     let new := m.entries.filterMap fun e => match ix[e.index]? with
       | some i => if t.results.any (·.1 = i) then none else some (i, e.status, e.detail)
       | none => none
     let t' := { t with results := t.results ++ new, attempts := Nat.max t.attempts (m.attempt + 1) }
     let n := t.desc.entries.length
     let v := emit { cleared s with steps := { s.steps with submitted := s.steps.submitted.filter fun x => x.sub ≠ t.sub } } (.hostWrite t.resultAddr (statusBytes n t'.results))
     let sealed := (t'.results.filter fun r => r.2.1 = .ok).length
     (t'.results.length < n → exec (.stpDone m) s = .next (keepFixed s (settleAll
       { cleared s with steps := { s.steps with submitted := modFirst (fun x => x.sub = t.sub) (fun _ => t') s.steps.submitted } }))) ∧
     (n ≤ t'.results.length → firstFail t'.results = none →
       exec (.stpDone m) s = .next (keepFixed s (settleAll (complete v t.sub .ok 0 [sealed, 0xFFFFFFFF, t'.attempts])))) ∧
     (∀ i st d, n ≤ t'.results.length → firstFail t'.results = some (i, st, d) →
       exec (.stpDone m) s = .next (keepFixed s (settleAll (complete v t.sub st d [sealed, i, t'.attempts])))))) ∧
  (∀ (s : State) (sub : Sub) (ref : Nat), accepts 1 s sub →
    (let u := taken s sub
     (∀ p, partOf s ref = some p → isHome s p = true → exec (.stepKill sub ref 0) s = .next (keepFixed s (settleAll
       (complete (homeAbort (modPart u ref fun p => { p with noMore := true }) ref .preempted 0 false) sub .ok 0 [])))) ∧
     ((∀ p, partOf s ref = some p → isHome s p = false) →
       exec (.stepKill sub ref 0) s = .next (keepFixed s (settleAll (complete u sub .badHandle 0x8 []))))))

/-- Commands STP_PREPARED, STP_SEAL, STP_SEAL_MIRROR, STP_SEAL_ACK, SEAL_RETRY_EXPIRY, PREP_QUERY_EXPIRY; a message acts
entry by entry. STP_PREPARED at the home: an entry past its decision point gets its STP_SEAL again; one in the attempt
of the message is recorded as prepared by the sender, and the seal goes as far as it can; for a part that is not here
the sender gets STP_ABORT. STP_SEAL at a participant: one answer for all entries; an older home_epoch is STALE_ROLE
with the epoch recorded here, a committed entry is acknowledged again, a prepared one of the attempt is committed and
acknowledged OK. STP_SEAL with MIRROR is answered for the entries that are no notes. STP_SEAL_ACK: the mirror's OK is
the decision point of a session; a participant's OK adds it to those that have acknowledged. Where every session of a
part is past its decision point, the retry sends each its STP_SEAL again, to those that have not answered. A query of
a prepared entry sends STP_PREPARED again, counts, and the eighth posts STEP_IN_DOUBT. -/
def Obligations.PrepareAndSealMessages : Prop :=
  (∀ (s : State) (m : StepMsg) (en : StepEntry), serving s → m.entries = [en] →
    (let u := cleared s
     (∀ p e r, partOf s m.stepRef = some p → p.entries[en.index]? = some e → p.homeRec[en.index]? = some r →
       (r.decided = true → exec (.stpPrepared m) s = .next (keepFixed s (settleAll (sendSeal u p en.index e [m.src])))) ∧
       (r.decided = false → r.ended = none → r.resubmitted = false → m.attempt = e.attempt → exec (.stpPrepared m) s = .next (keepFixed s (settleAll
         (trySeal (modHome u m.stepRef en.index fun r => { r with preparedBy := if r.preparedBy.contains m.src then r.preparedBy else r.preparedBy ++ [m.src] })
           m.stepRef en.index))))) ∧
     (partOf s m.stepRef = none → exec (.stpPrepared m) s = .next (keepFixed s (settleAll (sendMsg u m.src (.stpAbort
       { m with mirror := false, resubmit := false, hasNext := false, next := 0, epoch := peerEpoch u m.src, src := s.device, entries := [{ en with status := .ok, detail := 0 }] })))))))  ∧
  (∀ (s : State) (m : StepMsg), live s →
    (let r := m.entries.foldl (fun acc en => let r := sealOne acc.1 m.stepRef m.attempt m.src en; (r.1, acc.2 ++ [r.2])) (cleared s, [])
     exec (.stpSeal m) s = .next (keepFixed s (settleAll (sendMsg r.1 m.src (.stpSealAck { m with mirror := false, epoch := 0, src := r.1.device, entries := r.2 })))))) ∧
  (∀ (s : State) (ref attempt src : Nat) (en : StepEntry) (p : StepPart) (e : PartEntry) (x : Session), partOf s ref = some p → p.entries[en.index]? = some e →
    sessOf s e.handle = some x →
    (serialLt 16 en.homeEpoch x.homeEpoch = true →
      sealOne s ref attempt src en = (s, { en with status := .staleRole, detail := x.homeEpoch % 256, homeEpoch := x.homeEpoch })) ∧
    (serialLt 16 en.homeEpoch x.homeEpoch = false → (e.committed = true → sealOne s ref attempt src en = (s, { en with status := .ok, detail := 0 })) ∧
      (e.committed = false → serialLt 32 e.step x.step = false → e.prepared = true → e.ended = none → e.attempt = attempt →
        sealOne s ref attempt src en = (commitPart s ref en.index en.homeEpoch, { en with status := .ok, detail := 0 })))) ∧
  (∀ (s : State) (m : StepMsg), serving s →
    (let u := ((sealedCopies (cleared s) m.src m.stepRef ((m.entries.headD ⟨0, .ok, 0, 0, 0, 0⟩).index) m.attempt).map (·.1)).foldl promoteIfLost (cleared s)
     let r := m.entries.foldl (fun acc en => let r := sealMirrorOne acc.1 m en; (r.1, acc.2 ++ r.2.toList)) (u, [])
     exec (.stpSealMirror m) s = .next (keepFixed s (settleAll
       (if r.2.isEmpty then r.1 else sendMsg r.1 m.src (.stpSealAck { m with mirror := true, epoch := 0, src := r.1.device, entries := r.2.map fun en => { en with step := 0, token := 0 } })))))) ∧
  (∀ (s : State) (m : StepMsg) (en : StepEntry) (p : StepPart) (e : PartEntry) (r : HomeEntry) (x : Session), serving s → m.entries = [en] →
    partOf s m.stepRef = some p → p.entries[en.index]? = some e → p.homeRec[en.index]? = some r → sessOf s e.handle = some x → en.status = .ok →
    (r.mirrorSent = true → r.decided = false → r.ended = none → m.src = x.mirrorDev →
      exec (.stpSealAck m) s = .next (keepFixed s (settleAll (decide_ (cleared s) m.stepRef en.index)))) ∧
    (r.decided = true → exec (.stpSealAck m) s = .next (keepFixed s (settleAll (checkDone (modHome (cleared s) m.stepRef en.index fun r =>
      { r with acked := if r.acked.contains m.src then r.acked else r.acked ++ [m.src], behind := r.behind.filter (· ≠ m.src) }) m.stepRef))))) ∧
  (∀ (s : State) (ref : Nat) (p : StepPart), serving s → partOf s ref = some p → (∀ r ∈ p.homeRec, r.decided = true) →
    exec (.sealRetryExpiry ref) s = .next (keepFixed s (settleAll
      (p.entries.zipIdx.foldl (fun u e => match p.homeRec[e.2]? with
        | some r => sendSeal u p e.2 e.1 (p.participants.filter fun d => d ≠ u.device && !r.acked.contains d && !r.behind.contains d)
        | none => u) (cleared s))))) ∧
  (∀ (s : State) (ref i : Nat) (p : StepPart) (e : PartEntry), serving s → partOf s ref = some p → p.entries[i]? = some e → e.prepared = true →
    liveEntry e = true → isHome s p = false →
    (let u := sendPrepared (modEntry (cleared s) ref i fun e => { e with queries := e.queries + 1 }) ref i
     exec (.prepQueryExpiry ref i) s = .next (keepFixed s (settleAll
       (if e.queries = 8 then report u 0x0803 (ref % 2 ^ 24) 0 [ref, e.attempt] else u)))))

/-- Commands STP_KILLED, STP_ABORT, STP_ENTRY_EARLY_HOLD_EXPIRY. STP_KILLED at the home, of a session before its decision
point: a cause of attempt scope of the part's attempt aborts the attempt, with a re-run unless the descriptor forbids
one after a pre-emption; a cause of session scope ends that session with its status. STP_ABORT of the entry's attempt
at a participant: with NEXT the entry gives back what it holds, queues for the attempt named, and the part's attempt
is that one; without NEXT it ends. At the submitter NEXT raises the attempts counted. An entry still one step ahead of
its session when its hold is over is refused BAD_HANDLE 0x6. -/
def Obligations.KillsAbortsAndEntryHolds : Prop :=
  (∀ (s : State) (m : StepMsg) (en : StepEntry) (p : StepPart) (r : HomeEntry) (e : PartEntry), serving s → m.entries = [en] → partOf s m.stepRef = some p →
    isHome s p = true → p.homeRec[en.index]? = some r → p.entries[en.index]? = some e → r.decided = false →
    (attemptScope en.status en.detail = true → m.attempt = p.attempt → exec (.stpKilled m) s = .next (keepFixed s (settleAll
      (homeAbort (cleared s) m.stepRef en.status en.detail (!(p.noRerun && en.status = .preempted)))))) ∧
    (attemptScope en.status en.detail = true → m.attempt ≠ p.attempt → exec (.stpKilled m) s = .next (keepFixed s (settleAll (cleared s)))) ∧
    (attemptScope en.status en.detail = false → exec (.stpKilled m) s = .next (keepFixed s (settleAll
      (homeEnd (cleared s) m.stepRef en.index en.status en.detail))))) ∧
  (∀ (s : State) (m : StepMsg) (en : StepEntry) (p : StepPart) (e : PartEntry), serving s → m.resubmit = false → m.entries = [en] → partOf s m.stepRef = some p →
    isHome s p = false → p.entries[en.index]? = some e → e.attempt = m.attempt →
    (let up (t : Submitted) : Submitted :=
       if m.hasNext && t.refs.any (·.1 = m.stepRef) then { t with attempts := Nat.max t.attempts (m.next + 1) } else t
     let u := { cleared s with steps := { s.steps with submitted := s.steps.submitted.map up } }
     let u := modSess u e.handle fun x => if x.guest && serialLt 16 x.homeEpoch en.homeEpoch then { x with homeEpoch := en.homeEpoch, homeDev := m.src } else x
     exec (.stpAbort m) s = .next (keepFixed s (settleAll
       (if m.hasNext then dropDone (modPart (requeueEntry u m.stepRef en.index m.next) m.stepRef fun p => { p with attempt := m.next }) m.stepRef
        else dropDone (endEntry u m.stepRef en.index .cancelled 0) m.stepRef))))) ∧
  (∀ (s : State) (ref i : Nat) (p : StepPart) (e : PartEntry) (x : Session), serving s → partOf s ref = some p → p.entries[i]? = some e → e.admitted = false →
    liveEntry e = true → entryCheck s p e ((p.entries.take i).any fun y => y.handle = e.handle) = .wait → sessOf s e.handle = some x →
    e.step = (x.step + 1) % 2 ^ 32 →
    exec (.stpEntryEarlyHoldExpiry ref i) s = .next (keepFixed s (settleAll (failEntry (cleared s) ref i .badHandle 0x6))))

/-- Commands TOKENIZE_COMPLETE, LOGITS, SAMPLER_DRAW, with the token services out of reset. The end of tokenizing of the
next input gives its session the tokens of the context's vocabulary, and the tokenizer takes the input after it. A
LOGITS message of a session homed here, of the started attempt of its step, is kept as a slice; when the slices cover
the vocabulary the session is marked covered, in order of coverage, and the time of the last logits is kept; a
malformed message ends the session's part VERSION_MISMATCH 0x7, one that overlaps VERSION_MISMATCH 0x9, one of another
step BAD_HANDLE 0x6; one of no such part or attempt is counted as stale and nothing else. SAMPLER_DRAW chooses the
token of the covered session first in class order, counts it and a fall-back, fixes it, and takes the seal as far as
it goes; a token that is fixed stands. -/
def Obligations.TokenizingLogitsAndSampling : Prop :=
  (∀ (s : State) (h : Nat) (i : Input) (v : Vocab), serving s → s.clk.inReset.contains 18 = false → nextInputOf s = some (h, i) → vocabOf s (hCtx h) = some v →
    exec .tokenizeComplete s = .next (keepFixed s (settleAll
      (serveNext (inputReady (cleared s) h (tokenizeText v (fld s Reg.TOK_CFG.head) (fld s Reg.TOK_CFG.tail) i.inLen i.data) (decide (textLimit < i.inLen))))))) ∧
  (∀ (s : State) (m : LogitsMsg) (rsv i : Nat) (x : Session) (p : StepPart) (e : PartEntry), serving s →
    (let u := promoteIfLost (cleared s) m.handle
     let v := (vocabOf u (hCtx m.handle)).elim 0 (·.strings.length)
     let sl := x.logits ++ [{ first := m.first, fmt := m.fmt, values := m.values }]
     sessOf u m.handle = some x → partOf u m.stepRef = some p → x.guest = false → isHome u p = true → entryIndex p m.handle = some i →
     p.entries[i]? = some e → liveEntry e = true → e.started = true → e.attempt = m.attempt →
     (∀ st d, logitsBad x m rsv v = some (st, d) → exec (.logits m rsv) s = .next (keepFixed s (settleAll (failEntry u m.stepRef i st d)))) ∧
     (logitsBad x m rsv v = none → logitsCovered sl v = false →
       exec (.logits m rsv) s = .next (keepFixed s (settleAll (setSess u { x with logits := sl, covered := false })))) ∧
     (logitsBad x m rsv v = none → logitsCovered sl v = true → exec (.logits m rsv) s = .next (keepFixed s (settleAll
       (let w := setSess u { x with logits := sl, covered := true, coveredAt := some u.tok.nextInput }
        modPart { w with tok := { w.tok with nextInput := w.tok.nextInput + 1 } } m.stepRef fun p => { p with logitsAt := some w.timebase })))))) ∧
  (∀ (s : State) (m : LogitsMsg) (rsv : Nat), serving s → (let u := promoteIfLost (cleared s) m.handle
     partOf u m.stepRef = none → exec (.logits m rsv) s = .next (keepFixed s (settleAll (bump u Reg.SMP_COUNT.stale))))) ∧
  (∀ (x : Session) (m : LogitsMsg) (rsv v : Nat),
    (rsv ≠ 0 ∨ 3 ≤ m.fmt ∨ m.count = 0 ∨ m.count ≠ m.values.length ∨ v < m.first + m.count → logitsBad x m rsv v = some (.versionMismatch, 0x7)) ∧
    (rsv = 0 → m.fmt < 3 → 0 < m.count → m.count = m.values.length → m.first + m.count ≤ v →
      ((∃ g ∈ x.logits, m.first < g.first + g.values.length ∧ g.first < m.first + m.count) → logitsBad x m rsv v = some (.versionMismatch, 0x9)) ∧
      ((∀ g ∈ x.logits, g.first + g.values.length ≤ m.first ∨ m.first + m.count ≤ g.first) →
        logitsBad x m rsv v = if m.step = x.step then none else some (.badHandle, 0x6)))) ∧
  (∀ (s : State) (x : Session) (v : Vocab), serving s → s.clk.inReset.contains 18 = false → nextSample s = some x →
    (let h := x.handle
     let u := modSess (cleared s) h fun x => { x with coveredAt := none }
     let draw := chooseToken u x v
     let c := bump u Reg.SMP_COUNT.samples
     let w := if x.fixed then u else fixToken (if draw.2 then report (bump c Reg.SMP_COUNT.fallback) 0x0B02 (hSerial h) 0 [h, x.step] else c) h draw.1 v
     vocabOf u (hCtx h) = some v → exec .samplerDraw s = .next (keepFixed s (settleAll (trySeal w (flightOf w h).1 (flightOf w h).2)))))

/-- Commands CAM_WRITE_INSERT, CAM_WRITE_DELETE, CAM_WRITE_MODIFY, CAM_WRITE_CLEAR, CAM_SHIFT_COMPLETE, CAM_DRAIN,
CAM_DRAIN_DONE, CAM_LOOKUP_CTL_GO. A write of a context that is there and not torn waits behind its bank's writes; on
an idle bank one that no check refuses is in progress, one refused completes with its status. The completion of a
bank's write gives it the generation after the last, applies it (an insert after the last entry of equal or greater
priority, a removal, a change of the action, a clearing with the bank's new width), counts it, completes it with the
generation, the position and the entries moved, and starts the bank's next write. A drain completes at once where no
older item is held, else it waits; the drains whose last older item has gone complete. A lookup of the host is counted
and its registers hold the winning entry, or zeros. -/
def Obligations.CamCommands : Prop :=
  (∀ (s : State) (sub : Sub) (w : CamWrite), accepts 3 s sub → ctxBad s sub.context = none → w.sub = sub →
    (let u := taken s sub
     let after :=
       if (tget? s.cam.writes w.bank).isSome then setCamWrites u w.bank (tget [] s.cam.writes w.bank ++ [w])
       else match camWriteBad u w with
         | none => setCamWrites u w.bank [w]
         | some (st, d) => setCamWrites (camRefuse u w st d) w.bank []
     (∀ blocks rsv, w.op = 1 → camKey w.width blocks = (w.key, w.mask, w.rsv - rsv) → rsv ≤ w.rsv →
       exec (.camWriteInsert sub w.bank w.width w.priority w.action blocks rsv) s = .next (keepFixed s after)) ∧
     (∀ blocks rsv, w.op = 2 → w.action = 0 → camKey w.width blocks = (w.key, w.mask, w.rsv - rsv) → rsv ≤ w.rsv →
       exec (.camWriteDelete sub w.bank w.width w.priority blocks rsv) s = .next (keepFixed s after)) ∧
     (∀ blocks rsv, w.op = 3 → camKey w.width blocks = (w.key, w.mask, w.rsv - rsv) → rsv ≤ w.rsv →
       exec (.camWriteModify sub w.bank w.width w.priority w.action blocks rsv) s = .next (keepFixed s after)) ∧
     (w.op = 4 → w.priority = 0 → w.action = 0 → w.key = 0 → w.mask = 0 → exec (.camWriteClear sub w.bank w.width w.rsv) s = .next (keepFixed s after)))) ∧
  (∀ (s : State) (b : Nat) (w : CamWrite) (t : List CamWrite), serving s → tget [] s.cam.writes b = w :: t →
    (let l := camBank s b
     let i := (camMoves s w).1
     let gen := wrapAdd 32 s.cam.gen 1
     let l' := if w.op = 1 then l.take i ++ [{ key := w.key, mask := w.mask, priority := w.priority, action := w.action, gen := gen }] ++ l.drop i
       else if w.op = 2 then l.take i ++ l.drop (i + 1)
       else if w.op = 3 then modAt (fun e => { e with action := w.action, gen := gen }) i l
       else []
     let u := setCamBank { cleared s with cam := { s.cam with gen := gen } } b l'
     let u := bump (if w.op = 4 then setFldAt u Reg.CAM_BANK.width [b] w.width else u) Reg.CAM_COUNT.writes
     exec (.camShiftComplete b) s = .next (keepFixed s (camNext t b (complete u w.sub .ok 0 [gen, i, (camMoves s w).2]))))) ∧
  (∀ (s : State) (sub : Sub) (g : Nat), accepts 3 s sub → ctxBad s sub.context = none → (g = 0 ∨ serialLt 32 s.cam.gen g = false) →
    (let n := if g = 0 then s.cam.gen else g
     exec (.camDrain sub g 0) s = .next (keepFixed s
       (if camDrained s n then complete (taken s sub) sub .ok 0 [n]
        else { taken s sub with cam := { s.cam with drains := s.cam.drains ++ [(sub, n)] } })))) ∧
  (∀ s : State, serving s → exec .camDrainDone s = .next (keepFixed s
    ((s.cam.drains.filter fun d => camDrained s d.2).foldl (fun u d => complete u d.1 .ok 0 [d.2])
      { cleared s with cam := { s.cam with drains := s.cam.drains.filter fun d => !camDrained s d.2 } }))) ∧
  (∀ (s : State) (width : Nat), hostReaches s → (width = 1 ∨ width = 2 ∨ width = 4) →
    (let u := setFld (written s) Reg.CAM_LOOKUP_CTL.width width
     let r := camLookup u 3 (fld u Reg.CAM_LOOKUP_MASK.banks) width (hostKey u width)
     let z := r.getD (0, 0, ⟨0, 0, 0, 0, 0⟩)
     let v := setFld (setFld (bump u Reg.CAM_COUNT.lookups) Reg.CAM_LOOKUP_RES0.action z.2.2.action) Reg.CAM_LOOKUP_RES0.generation z.2.2.gen
     let v := setFld (setFld v Reg.CAM_LOOKUP_RES1.hit (b2n r.isSome)) Reg.CAM_LOOKUP_RES1.bank z.1
     exec (.camLookupCtlGo width) s = .next (keepFixed s
       (setFld (setFld v Reg.CAM_LOOKUP_RES1.index z.2.1) Reg.CAM_LOOKUP_RES1.priority z.2.2.priority))))

/-- Commands CMD_ENTRY_WRITE, NBU_JOB_END, CMD_STATUS_ABORT, CYCLE_LIMIT. With host jobs allowed and a present unit, a
write of CMD_ENTRY on an idle thread takes entry, tag, context, base and length from the value, clears the status, and
starts the thread under the store of its stack; a near section that is empty or too long ends it with code 0x04, an
entry point that holds nothing with 0x03; on a busy thread the write only sets COLLIDE. The end of a host job keeps
what its program left in its memories and arguments after the instructions it ran, and records its code: the program's
where it has stopped; else 0x06 with the page of a bank error, 0x0B of an abort, 0x0A at the cycle limit, each at the
instruction reached. The end of a front end's job by its program, or by its limit, goes back to the message it belongs
to. -/
def Obligations.NbuJobCommands : Prop :=
  (∀ (s : State) (nbu t v : Nat), hostReaches s → flag s Reg.NBU_CTL.host_jobs = true → nbuPresent s nbu = true →
    (let u := written s
     let x := threadOf s nbu t
     let y : NbuThread := { x with entry := bitsOf v 0 3, tag := bitsOf v 8 8, ctx := bitsOf v 16 10, nearBase := bitsOf v 32 16, nearLen := bitsOf v 48 16, inexact := false,
                                   poison := false, code := 0, pc := 0, detail := 0, cycles := 0, issuer := Issuer.host }
     let z := setThread u nbu t { y with busy := true }
     (x.busy = true → exec (.cmdEntryWrite nbu t v) s = .next (keepFixed s (setThread u nbu t { x with collide := true }))) ∧
     (x.busy = false → (y.nearLen = 0 ∨ 2048 < y.nearBase + y.nearLen) → exec (.cmdEntryWrite nbu t v) s = .next (keepFixed s (endThread z nbu t 0x04 0 0 0 false false))) ∧
     (x.busy = false → 0 < y.nearLen → y.nearBase + y.nearLen ≤ 2048 → storeFor s nbu y.entry = none →
       exec (.cmdEntryWrite nbu t v) s = .next (keepFixed s (endThread z nbu t 0x03 0 0 0 false false))) ∧
     (∀ code pc b, x.busy = false → 0 < y.nearLen → y.nearBase + y.nearLen ≤ 2048 → storeFor s nbu y.entry = some (code, pc, b) →
       exec (.cmdEntryWrite nbu t v) s = .next (keepFixed s (setThread z nbu t { y with busy := true, startPc := pc, store := code, builtin := b }))))) ∧
  (∀ (s : State) (nbu t ran cycles : Nat) (x : NbuThread), threadOf s nbu t = x → x.busy = true → x.issuer = Issuer.host →
    (let u := cleared s
     (∀ j code pc d, nbuRun x.store ran (jobStart s nbu x) = .stop j code pc d →
       (serving s → exec (.nbuJobEnd nbu t ran cycles none) s = .next (keepFixed s (settleAll (endThread (keepJob u nbu t j) nbu t code pc d cycles j.inexact j.poison))))) ∧
     (∀ j, nbuRun x.store ran (jobStart s nbu x) = .go j →
       (∀ page, serving s → exec (.nbuJobEnd nbu t ran cycles (some page)) s =
         .next (keepFixed s (settleAll (endThread (keepJob u nbu t j) nbu t 0x06 j.pc page cycles j.inexact j.poison)))) ∧
       (serving s → exec (.cycleLimit nbu t ran cycles) s =
         .next (keepFixed s (settleAll (endThread (keepJob u nbu t j) nbu t 0x0A j.pc 0 cycles j.inexact j.poison)))) ∧
       (hostReaches s → flag s Reg.NBU_CTL.host_jobs = true → nbuPresent s nbu = true → exec (.cmdStatusAbort nbu t ran cycles) s =
         .next (keepFixed s (settleAll (endThread (keepJob (written s) nbu t j) nbu t 0x0B j.pc 0 cycles j.inexact j.poison))))))) ∧
  (∀ (s : State) (nbu t ran cycles w : Nat), serving s → (threadOf s nbu t).busy = true → (threadOf s nbu t).issuer = Issuer.frontEnd w →
    exec (.nbuJobEnd nbu t ran cycles none) s =
      .next (keepFixed s (settleAll (jobDone (nbuStartAll 4 (endThread (cleared s) nbu t 0 0 0 cycles false false) nbu) w))) ∧
    (∀ y, workOf (endThread (cleared s) nbu t 0x0A 0 0 cycles false false) w = some y → exec (.cycleLimit nbu t ran cycles) s =
      .next (keepFixed s (settleAll (nbuStartAll 4 (workTorn (endThread (cleared s) nbu t 0x0A 0 0 cycles false false) y nbu 0x0A) nbu)))))

/-- Commands VSR_LOAD, VSR_FREE, VSR_QUERY, VSR_REQ, VSR_RSP, VSR_SHARD_TIMEOUT. On a part with the walker, VSR_LOAD of an
image whose header, length and nodes are right, under no digest mismatch, duplicate, foreign owner or conflict, and
with room, retires what the slot held, writes every node to its place, and records slot, index, sharing and owner with
status OK; VSR_FREE retires the slot and records OK. An accepted VSR_QUERY of a loaded index the context may use,
whose vector is finite, makes a query with its defaults filled in and asks every shard in order; an argument out of
range is VERSION_MISMATCH 0x7, a reserved bit VERSION_MISMATCH 0x2, an index that is not loaded BAD_HANDLE 0xD.
VSR_REQ of a shard held here starts a walk or is answered NO_CAPACITY 0x9; of one not held it is answered UNIT_ABSENT
0x2. VSR_RSP with OK adds a shard's results to its query, with UNIT_ABSENT makes the shard missing, with another
status ends the query; a shard's timeout makes it missing. -/
def Obligations.VectorSearchCommands : Prop :=
  (∀ (s : State) (slot ctx length : Nat) (shared : Bool) (img : List Nat), hostReaches s → partWalker s.part = true →
    (let u := vsrCtl (written s) 1 (slot % 64) (ctx % 1024) shared length
     let k := slot % 64
     let id := leAt img 10 2
     let n := vsrNodeSize (leAt img 8 2) (leAt img 5 1) (leAt img 7 1)
     let nodes := leAt img 20 4
     let e := 1024 * (liveStacks u).length
     let pages := ceilDiv (ceilDiv nodes e * n) 4096
     hasCap u 4 = true → vsrHeaderBad img = false → length = 128 + nodes * n → vsrBodyBad img = false →
     (u.vsr.slots.any fun v => v.1 ≠ k && v.2.index.id = id && v.2.index.shard = leAt img 16 2) = false →
     (tget? u.vsr.slots k).elim false (·.owner ≠ ctx % 1024) = false → conflictWith u { no := 6, scope := [scIndex k] } = none →
     ∀ page, lowestRun (vsrRuns u) (vsrPages u) pages = some page →
       (let x : VsrIndex := { id := id, elem := leAt img 5 1, metric := leAt img 6 1, degree := leAt img 7 1, dim := leAt img 8 2, first := leAt img 12 2,
                              count := leAt img 14 2, shard := leAt img 16 2, nodes := nodes, entry := leAt img 24 4, page := page, pages := pages,
                              pairs := e, b0 := k * 97 % e }
        let w := (List.range nodes).foldl (fun s i =>
          { s with nbu := { s.nbu with attic := writeBytes s.nbu.attic (vsrAddr s x i) (slice img (128 + i * n) n) } }) (vsrRetireSlot u k)
        exec (.vsrLoad slot ctx shared length img) s = .next (keepFixed s
          (if sha384 (slice img 128 (nodes * n)) ≠ slice img 32 48 then vsrStatus u k .digestMismatch 0x1 id
           else vsrStatus { w with vsr := { w.vsr with slots := tset w.vsr.slots k { index := x, shared := shared, owner := ctx % 1024 } } } k .ok 0 id))))) ∧
  (∀ (s : State) (slot ctx length : Nat) (shared : Bool), hostReaches s → partWalker s.part = true →
    (let u := vsrCtl (written s) 2 (slot % 64) (ctx % 1024) shared length
     exec (.vsrFree slot ctx shared length) s = .next (keepFixed s
       (vsrStatus (vsrRetireSlot u (slot % 64)) (slot % 64) .ok 0 ((tget? s.vsr.slots (slot % 64)).elim 0 (·.index.id)))))) ∧
  (∀ (s : State) (sub : Sub) (id k beam flags addr all any mv rsv : Nat) (vec : List Nat), accepts 3 s sub →
    (let u := taken s sub
     let run := exec (.vsrQuery sub id k beam flags vec addr all any mv rsv) s
     (vsrArgsBad k beam mv flags rsv = true → run = .next (keepFixed s (complete u sub .versionMismatch (if rsv ≠ 0 ∨ 4 ≤ flags then 0x2 else 0x7) []))) ∧
     (vsrArgsBad k beam mv flags rsv = false → ctxBad s sub.context = none → hasCap u 4 = true →
       ((s.vsr.slots.find? fun v => v.2.index.id = id) = none → run = .next (keepFixed s (complete u sub .badHandle 0xD []))) ∧
       (∀ i v, (s.vsr.slots.find? fun v => v.2.index.id = id) = some (i, v) → (v.shared = true ∨ v.owner = sub.context) →
         (let q := (List.range v.index.dim).map fun i => vec.getD i 0
          (q.any fun b => (match decode32 b with | .fin _ => false | _ => true)) = false →
          (let p : VsrParams := { k := k, beam := if beam = 0 then Nat.max k 64 else beam, maxVisits := if mv = 0 then fld s Reg.VSR_CFG.max_visits else mv,
                                  filter := bitOf flags 0, all := all, any := any, vec := q }
           let shards := (List.range v.index.count).map (v.index.first + ·)
           run = .next (keepFixed s (shards.foldl (fun s h => askShard s u.vsr.next h)
             { u with vsr := { u.vsr with next := u.vsr.next + 1, queries := u.vsr.queries ++
               [{ id := u.vsr.next, sub := sub, indexId := id, first := v.index.first, par := p, partial_ := bitOf flags 1, resultAddr := addr,
                  waits := shards.map fun h => (h, (shardRole u h).elim 0x7FF (·.device), false) }] } })))))))) ∧
  (∀ (s : State) (r : VsrReq), serving s → hasCap s 4 = true →
    (let answer (st : Status) (d : Nat) : State :=
       sendMsg (cleared s) r.src (.vsrRsp { status := st, detail := d, flags := 0, shard := r.shard, request := r.request, visited := 0, entries := [] })
     (shardSlot s r.indexId r.shard = none → exec (.vsrReq r) s = .next (keepFixed s (answer .unitAbsent 0x2))) ∧
     (∀ i v, shardSlot s r.indexId r.shard = some (i, v) → (v.shared = true ∨ v.owner = r.context) → r.dim = v.index.dim →
       exec (.vsrReq r) s = .next (keepFixed s
         ((walkAccept (cleared s) i v.index r.context (.remote r.src r.request)
            { k := r.k, beam := r.beam, maxVisits := r.maxVisits, filter := r.filter, all := r.all, any := r.any, vec := r.vec }).getD (answer .noCapacity 0x9)))))) ∧
  (∀ (s : State) (r : VsrRsp) (q : VsrQuery), serving s → (s.vsr.queries.find? (·.id = r.request)) = some q → q.waits.any (·.1 = r.shard) = true →
    (r.status = .ok → exec (.vsrRsp r) s = .next (keepFixed s (shardAnswer (cleared s) q r.shard r.entries r.visited r.flags))) ∧
    (r.status = .unitAbsent → exec (.vsrRsp r) s = .next (keepFixed s (shardMissing (cleared s) q r.shard))) ∧
    (r.status ≠ .ok → r.status ≠ .unitAbsent → r.status ≠ .staleRole → exec (.vsrRsp r) s = .next (keepFixed s (endQuery (cleared s) q r.status r.detail []))) ∧
    exec (.vsrShardTimeout r.request r.shard) s = .next (keepFixed s (shardMissing (cleared s) q r.shard)))

/-- A MIRROR_STATE, MIRROR_NOTE, MIRROR_PREP, MIRROR_RETIRE, MIRROR_PULL, MIRROR_HANDOVER or a MIRROR_SYNC toward a
shadow, whose handle has a shadow role of the sender here: with an epoch other than the role's it is acknowledged
STALE_ROLE; with the role's next number, and nothing early behind it, it has its effect, is acknowledged with the
status of that effect, and the role's next number moves on; with a number already passed it is acknowledged OK and has
no effect; with a later number it is kept until its turn. With no such role it is acknowledged STALE_ROLE where the
session is served here, else BAD_HANDLE. The effects: a state is recorded, and a parked or dormant session's copies
are applied; a note keeps the token, with the notes of its step and the one before; a copy commits those of earlier
steps and is kept where the store has room, NO_CAPACITY else; a retirement gives up the role; a synced object is
stored; a pull commits and applies through the step and sends the object back; a handover promotes a shadow that is
synced, BUSY_MAINT else. -/
def Obligations.MessagesTowardAShadow : Prop :=
  (∀ (s : State) (q : MirrorHdr) (b : MirrorBody) (c : Instr), serving s →
    ((∃ toks, b = .state toks ∧ c = .mirrorState q toks) ∨ (∃ t i h, b = .note t i h ∧ c = .mirrorNote q t i h) ∨ (∃ p, b = .prep p ∧ c = .mirrorPrep q p) ∨
     (b = .retire ∧ c = .mirrorRetire q) ∨ (∃ n, b = .pull n ∧ c = .mirrorPull q n) ∨ (b = .handover ∧ c = .mirrorHandover q) ∨
     (∃ v bytes, b = .sync v bytes ∧ c = .mirrorSync q v bytes ∧ ∀ l, mirLink s q.handle (!q.layers) = some l → l.dev ≠ q.src ∨ l.epoch ≠ q.epoch)) →
    (let u := promoteIfLost (cleared s) q.handle
     let role := (shadowOf u q.handle).bind fun d => roleOf d q.src (!q.layers)
     (role = none → exec c s = .next (keepFixed s (settleAll (mirAck u q (if (sessOf u q.handle).isSome then .staleRole else .badHandle))))) ∧
     (∀ r, role = some r →
       (q.epoch ≠ r.epoch → exec c s = .next (keepFixed s (settleAll (mirAck u q .staleRole)))) ∧
       (q.epoch = r.epoch → q.seq = r.nextSeq → r.early = [] → exec c s = .next (keepFixed s (settleAll
         (let z := processMirror u q b
          let w := mirAck z.1 q z.2
          match shadowOf w q.handle with
          | none => w
          | some d =>
            let d := modRole d q.src (!q.layers) fun r => { r with nextSeq := q.seq + 1 }
            match (roleOf d q.src (!q.layers)).bind fun r => r.early.find? fun e => e.1.seq = q.seq + 1 with
            | none => setShadow w d
            | some e => runMirror 0 (setShadow (setShadow w d) (modRole d q.src (!q.layers) fun r => { r with early := r.early.filter fun z => z.1.seq ≠ q.seq + 1 })) e.1 e.2)))) ∧
       (q.epoch = r.epoch → q.seq ≠ r.nextSeq → serialLt 32 q.seq r.nextSeq = true → exec c s = .next (keepFixed s (settleAll (mirAck u q .ok)))) ∧
       (∀ d, shadowOf u q.handle = some d → q.epoch = r.epoch → q.seq ≠ r.nextSeq → serialLt 32 q.seq r.nextSeq = false →
         exec c s = .next (keepFixed s (settleAll
           (setShadow u (modRole d q.src (!q.layers) fun r => { r with early := r.early ++ [(q, b)] })))))))) ∧
  (∀ (s : State) (q : MirrorHdr) (d : MirShadow), shadowOf s q.handle = some d →
    (∀ t i hold, processMirror s q (.note t i hold) = (setShadow s { d with
      notes := (d.notes.filter fun m => m.step ≠ q.step && decide (q.step ≤ m.step + 1)) ++ [{ step := q.step, token := t, index := i, hold := hold, ref := q.ref, idx := q.aux }]
      desc := { d.desc with fixed := true, pendingToken := t } }, .ok)) ∧
    (∀ r, homeRole d = some r → processMirror s q .handover = if r.synced then (promoteShadow s q.handle false, .ok) else (s, .busyMaint)) ∧
    (let u := commitCopies s q.handle q.src (!q.layers) fun y => serialLt 32 y.step q.step
     ∀ p, storeUnits u < storeUsed u + pagesOf (prepBytes p) → processMirror s q (.prep p) = (u, .noCapacity)))

/-- MIRROR_OPEN for a context that is there and not torn, with no shadow here yet and a shelf free, makes the shadow with
its role and, for a fixed token, the note, and is acknowledged OK; without a shelf NO_CAPACITY; without the context
PROTECTION. MIRROR_ACK with OK of a message awaited from the mirror takes it from what is awaited; a note's lets the
chunk and the seal go on, a retirement's closes the mirror; a refusal of a copy for room marks it refused.
PREP_RESEND_EXPIRY sends refused copies again under new numbers, or drops the mirror with NO_CAPACITY when one was
first sent prep_wait_us ago and its entry still waits. MIRROR_DROPPED posts the event with its cause, gives the mirror
up, lets what waited go on and opens another. LOST_REPORT of this device only posts the event; a first report of a
device named here is kept, a second of another observer and another quarter of the lost device's links within
witness_us makes the device lost. ROLE_CLAIM for another device is kept and posted. SHADOW_PROMOTE promotes the shadow
whose turn it is. SESSION_DEMOTED ends a session homed here without an END chunk, STALE_ROLE with the newer epoch for
what waited, SESSION_DEMOTED posted. -/
def Obligations.MirrorsAndPromotion : Prop :=
  (∀ (s : State) (q : MirrorHdr) (d : SessDesc) (toks : List Nat) (c : Ctx), serving s →
    (tget? s.contexts (hCtx q.handle) = none → exec (.mirrorOpen q d toks) s = .next (keepFixed s (settleAll (mirAck (cleared s) q .protection)))) ∧
    (tget? s.contexts (hCtx q.handle) = some c → c.torn = none → shadowOf s q.handle = none →
      exec (.mirrorOpen q d toks) s = .next (keepFixed s (settleAll
        (if shelfForShadow s then
           checkSpill (mirAck (setShadow (cleared s)
             { desc := { sessOfDesc d with shadowOf := d.state, state := .shadow, inTokens := toks, tTouch := s.timebase, guest := false }
               roles := [{ home := !q.layers, sender := q.src, first := q.first, lastLayer := q.lastLayer, epoch := q.epoch, m := bitsOf q.aux 0 8, i := bitsOf q.aux 8 8, synced := !q.sync }]
               notes := if d.fixed then [{ step := d.step, token := d.pendingToken, index := d.step, hold := d.holdBytes, ref := 0, idx := 0 }] else [] }) q .ok)
         else mirAck (cleared s) q .noCapacity))))) ∧
  (∀ (s : State) (q : MirrorHdr) (l : MirLink) (w : Nat × MirWait), serving s → mirLink s q.handle (!q.layers) = some l → (l.waits.find? (·.1 = q.ref)) = some w →
    l.dev = q.src → l.epoch = q.epoch →
    (let u := setLink (cleared s) { l with waits := l.waits.filter fun z => z.1 ≠ q.ref, copies := l.copies.filter fun c => c.seq ≠ q.ref }
     (q.status = .ok → w.2 = .state → exec (.mirrorAck q) s = .next (keepFixed s (settleAll u))) ∧
     (∀ step, q.status = .ok → w.2 = .note step → exec (.mirrorAck q) s = .next (keepFixed s (settleAll (noteAcked u q.handle step)))) ∧
     (q.status = .ok → w.2 = .retire → exec (.mirrorAck q) s = .next (keepFixed s (settleAll (dropLink u q.handle (!q.layers))))) ∧
     (∀ ref att, q.status = .noCapacity → w.2 = .prep ref att → exec (.mirrorAck q) s = .next (keepFixed s (settleAll
       (setLink (cleared s) { l with copies := l.copies.map fun c => if c.seq = q.ref then { c with refused := true } else c })))))) ∧
  (∀ (s : State) (h cause : Nat) (home : Bool) (l : MirLink), serving s → mirLink s h home = some l →
    (let u (cause : Nat) := dropLink (report (cleared s) 0x1606 (hSerial h) 0 [h, cause]) h home
     let v (cause : Nat) := if home then modSess (u cause) h fun x => { x with mirrorDev := 0x7FF } else u cause
     exec (.mirrorDropped h home cause) s = .next (keepFixed s (settleAll (replaceMirror (releaseMirror (v cause) h home) h home))) ∧
     ((∃ c ∈ l.copies, (c.refused || c.again) = true ∧ (copyFor s h l c).isSome = true ∧ c.sentAt + fld s Reg.CKP_MIR_CFG.prep_wait_us * 1000 ≤ s.timebase) →
       exec (.prepResendExpiry h home) s = .next (keepFixed s (settleAll (replaceMirror (releaseMirror (v Status.noCapacity.code) h home) h home)))) ∧
     ((∀ c ∈ l.copies, (c.refused || c.again) = true → (copyFor s h l c).isSome = true → s.timebase < c.sentAt + fld s Reg.CKP_MIR_CFG.prep_wait_us * 1000) →
       exec (.prepResendExpiry h home) s = .next (keepFixed s (settleAll ((l.copies.filter (·.refused)).foldl (fun s c => resendCopy s h home c) (cleared s))))))) ∧
  (∀ (s : State) (lost obs link : Nat), serving s →
    (lost = s.device → exec (.lostReport lost obs link) s = .next (keepFixed s (settleAll (report (cleared s) 0x1603 obs 0 [obs])))) ∧
    (lost ≠ s.device → (lostDevices s).contains lost = false → s.mir.oneByOne.contains lost = false → (rolesOf s 1 ++ rolesOf s 2).any (·.device = lost) = true →
      (let old := s.mir.reports.filter fun r => decide (s.timebase ≤ r.at_ + fld s Reg.CKP_MIR_CFG.witness_us * 1000)
       exec (.lostReport lost obs link) s = .next (keepFixed s (settleAll
         (match old.find? fun r => r.lost = lost && r.observer ≠ obs && r.link / 8 ≠ link / 8 with
          | some r => enterLost { cleared s with mir := { s.mir with reports := old.filter (·.lost ≠ lost) } } lost r.observer obs
          | none => { cleared s with mir := { s.mir with reports := old ++ [{ lost := lost, observer := obs, link := link, at_ := s.timebase }] } })))))) ∧
  (∀ (s : State) (src lost epoch first last m i : Nat), serving s → lost ≠ s.device →
    exec (.roleClaim src lost epoch first last m i) s = .next (keepFixed s (settleAll
      (report { cleared s with mir := { s.mir with claims := s.mir.claims ++
        [{ claimer := src, lost := lost, epoch := epoch, first := first, lastLayer := last, m := m, i := i }] } } 0x1605 lost 0 [lost, first, last, m, i])))) ∧
  (∀ (s : State) (h : Nat) (d : MirShadow) (r : ShadowRole), serving s → nextPromotion s = some h → shadowOf s h = some d → homeLost s d = true → homeRole d = some r →
    s.mir.oneByOne.contains r.sender = false → exec .shadowPromote s = .next (keepFixed s (settleAll (promoteShadow (cleared s) h true)))) ∧
  (∀ (s : State) (h e : Nat) (x : Session), serving s → sessOf s h = some x → x.guest = false →
    exec (.sessionDemoted h e) s = .next (keepFixed s (settleAll (leaveHome (cleared s) h .staleRole e fun s => report s 0x1604 (hSerial h) e [h, e]))))

/-- TRUNK_CUT, TRUNK_REQ_CUT, TRUNK_REQ_ABORT, TRUNK_RSP_RESERVED, TRUNK_RSP_TAKEN, TRUNK_RSP_DRAINED, FAST_COPY_COMPLETE,
TRUNK_DRAIN_COMPLETE. An accepted TRUNK_CUT of 1 to 4,096 sessions that pass the checks, with a trunk key and the
activity admitted, takes the context's next serial and a request number, reserves here, holds the sessions' next
steps, asks every other host with its epoch, and takes the cut points once all have reserved. At a participant a CUT
reserves, answers RESERVED and takes its cut points, or is answered NO_CAPACITY 0xC; an ABORT frees what the cut
holds. A RESERVED, TAKEN or DRAINED answer with OK is recorded at the home and lets the cut go on; another status
fails it. A complete fast copy counts as taken at the home and is reported TAKEN by a participant. A drained shard is
written; the home records it and finishes the cut when all are drained; a participant enters its trunk, answers
DRAINED and frees the cut; a failed drain fails the cut, or is answered TIER_FAULT 0x9. -/
def Obligations.TrunkCuts : Prop :=
  (∀ (s v : State) (sub : Sub) (hs : List Nat) (store n : Nat), accepts 2 s sub → store < 512 → hs ≠ [] → hs.length ≤ 4096 →
    (let u := hs.foldl promoteIfLost (taken s sub)
     ctxBad u sub.context = none → cutRefusal u sub.context hs = none → (tget? u.sec.trunk (fld u Reg.SEC_CFG.trunk_index)).isSome = true →
     admitActivity u { no := 5, scope := [scCtx sub.context, scStore store] } = .ok v →
     (let serial := (tget? v.contexts sub.context).elim 1 (·.trunkSerial)
      let hosts := cutHosts v sub.context hs
      let c : Cut := { home := v.device, request := v.trunk.nextReq, context := sub.context, serial := serial, store := store, extent := storeNext v store,
                       pages := 0, sub := some sub, hosts := hosts.map (·.1), since := v.timebase, sessions := hs.map fun h => { handle := h, want := cutStepOf v h } }
      let w := { v with trunk := { v.trunk with nextReq := v.trunk.nextReq + 1, cuts := v.trunk.cuts ++ [c] },
                        contexts := tmodIf v.contexts sub.context fun x => { x with trunkSerial := wrapAdd 32 x.trunkSerial 1 } }
      (canReserve w store hs = none → exec (.trunkCut sub hs store 0) s = .next (keepFixed s (settleAll (failCut w { c with hosts := [] } .noCapacity 0xC)))) ∧
      (canReserve w store hs = some n → exec (.trunkCut sub hs store 0) s = .next (keepFixed s (settleAll
        (let c := { c with pages := n }
         let w := setCut { w with mir := { w.mir with holding := w.mir.holding ++ hs } } c
         armCut (hosts.foldl (fun s d => sendMsg s d.1 (.trunkReq { op := 1, epoch := d.2, src := s.device, request := c.request, context := c.context, serial := serial, store := store, handles := c.sessions.map (fun y => (y.handle, y.want)), shard := none, pairs := [] })) w) c))))))) ∧
  (∀ (s : State) (r : TrunkReq), serving s → cutRec s r.src r.request = none →
    (let u := cleared s
     let hs := r.handles.filter fun q => (sessOf s q.1).isSome
     (canReserve u r.store (hs.map (·.1)) = none → exec (.trunkReqCut r) s = .next (keepFixed s (settleAll (trunkAnswer u r.src 1 r.request .noCapacity 0xC 0)))) ∧
     (∀ n v, canReserve u r.store (hs.map (·.1)) = some n → admitActivity u { no := 5, scope := [scCtx r.context, scStore r.store] } = .ok v →
       exec (.trunkReqCut r) s = .next (keepFixed s (settleAll
         (let c : Cut := { home := r.src, request := r.request, context := r.context, serial := r.serial, store := r.store, extent := storeNext v r.store,
                           pages := n, armed := true, since := v.timebase, sessions := hs.map fun q => { handle := q.1, want := q.2 } }
          let w := trunkAnswer { v with trunk := { v.trunk with cuts := v.trunk.cuts ++ [c] } } r.src 1 r.request .ok 0 0
          cutPoints ((r.handles.filter fun q => (sessOf w q.1).isNone).foldl (fun s q => trunkAnswer s r.src 4 r.request .ok 0 q.1) w))))))) ∧
  (∀ (s : State) (r : TrunkReq) (c : Cut), serving s → cutRec s r.src r.request = some c →
    (let u := endActivity (releaseCut (cleared s) c) 5 [scCtx c.context, scStore c.store]
     let mine := u.trunk.hosted.filter fun t => t.home = r.src && t.request = r.request
     exec (.trunkReqAbort r) s = .next (keepFixed s (settleAll
       (mine.foldl (fun s t => t.handles.foldl dropGuest s) { u with trunk := { u.trunk with hosted := u.trunk.hosted.filter fun t => !mine.contains t } }))))) ∧
  (∀ (s : State) (q : TrunkRsp) (c : Cut), serving s → cutRec s s.device q.request = some c → c.hosts.contains q.src = true →
    (let u := cleared s
     let res := { c with reserved := if c.reserved.contains q.src then c.reserved else c.reserved ++ [q.src] }
     (q.status = .ok → exec (.trunkRspReserved q) s = .next (keepFixed s (settleAll (armCut (setCut u res) res))) ∧
       exec (.trunkRspTaken q) s = .next (keepFixed s (settleAll (takenBy u c q.handle q.src))) ∧
       (c.drained.any (·.device = q.src) = false →
         (let rg := ((rolesOf s 1).find? (·.device = q.src)).elim (0, 0) fun r => (bitsOf r.key 0 8, bitsOf r.key 8 8)
          let d := { c with drained := c.drained ++ [{ device := q.src, first := rg.1, last := rg.2, home := false, extent := q.extent, length := q.length, digest := q.digest }] }
          exec (.trunkRspDrained q) s = .next (keepFixed s (settleAll (finishCut (setCut u d) d)))))) ∧
     (q.status ≠ .ok → exec (.trunkRspReserved q) s = .next (keepFixed s (settleAll (failCut u c .noCapacity 0xC))) ∧
       exec (.trunkRspTaken q) s = .next (keepFixed s (settleAll (failCut u c .tierFault 0x9))) ∧
       exec (.trunkRspDrained q) s = .next (keepFixed s (settleAll (failCut u c .tierFault 0x9)))))) ∧
  (∀ (s : State) (home req h : Nat) (c : Cut), serving s → cutRec s home req = some c → (c.sessions.any fun y => y.handle = h && y.cut && !y.taken) = true →
    (let d := { c with sessions := modFirst (fun y => y.handle = h) (fun y => { y with taken := true }) c.sessions }
     exec (.fastCopyComplete home req h) s = .next (keepFixed s (settleAll
       (if c.home = s.device then takenBy (setCut (cleared s) d) d h s.device else trunkAnswer (setCut (cleared s) d) c.home 4 c.request .ok 0 h))))) ∧
  (∀ (s : State) (home req digest : Nat) (c : Cut), serving s → cutRec s home req = some c → c.done = false → (c.sessions.all (·.taken)) = true →
    (let u := cleared s
     let len := shardBytes s c
     let rg := shardRange s c.context
     let v := emit u (.shard c.context c.serial c.extent (shardOf s c))
     (c.home = s.device → exec (.trunkDrainComplete home req digest false) s = .next (keepFixed s (settleAll (failCut u c .tierFault 0x9))) ∧
       (let e : ShardRef := { device := s.device, first := rg.1, last := rg.2, home := true, extent := c.extent, length := len, digest := digest }
        let d := { c with done := true, drained := c.drained ++ [e], pages := 0 }
        exec (.trunkDrainComplete home req digest true) s = .next (keepFixed s (settleAll (finishCut (setCut v d) d))))) ∧
     (c.home ≠ s.device →
       exec (.trunkDrainComplete home req digest false) s = .next (keepFixed s (settleAll
         (endActivity (releaseCut (trunkAnswer u c.home 5 c.request .tierFault 0x9 0) c) 5 [scCtx c.context, scStore c.store]))) ∧
       (let t : Trunk := { home := false, context := c.context, serial := c.serial, store := c.store, extent := c.extent, units := ceilDiv len 4096,
                           handles := c.sessions.map (·.handle), crates := shardFull v c }
        let w := addTrunk v t
        exec (.trunkDrainComplete home req digest true) s = .next (keepFixed s (settleAll
          (endActivity (releaseCut (sendMsg w c.home (.trunkRsp { op := 5, src := w.device, request := c.request, status := .ok, detail := 0, handle := 0, extent := c.extent, length := len, digest := digest })) c) 5 [scCtx c.context, scStore c.store])))))))

/-- An accepted TRUNK_RESTORE whose manifest and shard were read and verify, names the submission's context, finds every
shard's layers hosted and a handle and a shelf for every session, and has room, makes the sessions from the shard and
the log, writes their copies, sends RESTORE to every other host with the epoch and starts; where the manifest's
signature fails it completes DIGEST_MISMATCH 0x2. At a host TRUNK_REQ_RESTORE writes the shard and answers OK, or
answers NO_CAPACITY 0x5, DIGEST_MISMATCH 0x3 or TIER_FAULT 0x9. TRUNK_RSP_RESTORED with OK counts the host and starts
the restore steps when all have answered; another status fails the restore with it. TOKEN_LOG_FLUSH logs every cut
session's new context tokens. CKP_HANDOVER_GO with no mirrored session on the device sets moved to 0; otherwise it
sets busy, holds those sessions and hands over. CKP_TRUNK_DEL frees the trunk of a serial and context. -/
def Obligations.RestoresLogsAndHandovers : Prop :=
  (∀ (s s1 : State) (sub : Sub) (store addr : Nat) (m : Manifest) (secs : List ShardSess) (lg : List LogRecord) (pairs : List (Nat × Nat)) (p : Params), accepts 2 s sub → store < 512 →
    (let u := taken s sub
     ctxBad u sub.context = none → m.context = sub.context → (m.shards.all fun r => (shardHost u r).isSome) = true →
     restHandles u sub.context m.sessions = some (s1, pairs) → paramsOf u sub.context = some p →
     (let new (h : Nat) : Nat := ((pairs.find? (·.1 = h)).map (·.2)).getD 0
      let homeSecs := secs.filter fun q => q.desc.isSome && pairs.any (·.1 = q.handle)
      let recs := homeSecs.map fun q => (q, restoredSession s1 (q.desc.getD (descOf { handle := 0 })) (new q.handle) q.cutStep (logOf lg q.handle))
      let s3 := recs.foldl (fun s r => loadShard s { r.2 with length := r.1.length } p r.1) (recs.foldl (fun s r => setSess s { r.2 with length := r.1.length }) s1)
      let others := m.shards.filter fun r => (shardHost s3 r).elim false fun q => q.device ≠ s3.device
      let r : TrunkRest := { request := s3.trunk.nextReq, sub := sub, context := sub.context, resultAddr := addr, hosts := others.filterMap fun o => (shardHost s3 o).map (·.device),
                             shard := secs, log := lg, sessions := recs.map fun q => { old := q.1.handle, new := q.2.handle, step := if q.2.restoring.isSome then q.2.step + 1 else q.2.step, target := (q.1.desc.elim .active (·.state)) } }
      pairs.length ≤ homeSecs.length → restoreRoom s3 (recs.map (·.2.handle)) = true →
        exec (.trunkRestore sub store addr 0 (some m) (some secs) true (some lg)) s = .next (keepFixed s (settleAll
          (if manifestOk u m then startRest (others.foldl (fun s o => match shardHost s o with
             | some q => sendMsg s q.device (.trunkReq { op := 3, epoch := q.epoch, src := s.device, request := r.request, context := r.context, serial := m.serial, store := store, handles := m.sessions, shard := some o, pairs := pairs })
             | none => s) { s3 with trunk := { s3.trunk with nextReq := s3.trunk.nextReq + 1, rests := s3.trunk.rests ++ [r] } }) r
           else refuse u sub .digestMismatch 0x2)))))) ∧
  (∀ (s : State) (r : TrunkReq) (secs : List ShardSess) (p : Params), serving s → paramsOf s r.context = some p →
    (let mine := secs.filterMap fun q => ((r.pairs.find? (·.1 = q.handle)).map (·.2)).map fun h =>
       (q, ({ handle := h, state := .active, partition := ctxPart s r.context, homeDev := r.src, homeEpoch := 1, guest := true, tOpen := s.timebase, step := q.cutStep, length := q.length } : Session))
     let u := mine.foldl (fun s m => loadShard (setSess s m.2) m.2 p m.1) (cleared s)
     let answer (u : State) (st : Status) (d : Nat) : Host.Outcome State Fault Refusal := .next (keepFixed s (settleAll (trunkAnswer u r.src 3 r.request st d 0)))
     exec (.trunkReqRestore r (some secs) true) s = (if restoreRoom u (mine.map (·.2.handle))
       then answer { u with trunk := { u.trunk with hosted := u.trunk.hosted ++ [{ home := r.src, request := r.request, handles := mine.map (·.2.handle) }] } } .ok 0 else answer (cleared s) .noCapacity 0x5) ∧
     exec (.trunkReqRestore r (some secs) false) s = answer (cleared s) .digestMismatch 0x3 ∧
     exec (.trunkReqRestore r none true) s = answer (cleared s) .tierFault 0x9)) ∧
  (∀ (s : State) (q : TrunkRsp) (r : TrunkRest), serving s → restOf s q.request = some r → r.hosts.contains q.src = true → r.started = false →
    (let d := { r with restored := if r.restored.contains q.src then r.restored else r.restored ++ [q.src] }
     exec (.trunkRspRestored q) s = .next (keepFixed s (settleAll
       (if q.status = .ok then startRest (setRest (cleared s) d) d else failRest (cleared s) r q.status q.detail))))) ∧
  (∀ s : State, serving s → exec .tokenLogFlush s = .next (keepFixed s ((loggedSessions s).foldl logSession (cleared s)))) ∧
  (∀ (s : State) (d : Nat), hostReaches s →
    (let u := setFld (written s) Reg.CKP_HANDOVER.device d
     let hs := (s.mir.links.filter fun l => l.home && l.dev = fld u Reg.CKP_HANDOVER.device && l.counts).map (·.handle)
     let v := setFld u Reg.CKP_HANDOVER.moved 0
     let w := setFld v Reg.CKP_HANDOVER.busy 1
     flag u Reg.CKP_HANDOVER.busy = false → exec (.ckpHandoverGo d) s = .next (keepFixed s (settleAll
       (if hs.isEmpty then v else checkHandover (runHandovers { w with mir := { w.mir with handover := hs, holding := w.mir.holding ++ hs } })))))) ∧
  (∀ (s : State) (serial ctx : Nat), hostReaches s → exec (.ckpTrunkDel serial ctx) s = .next (keepFixed s
    (let u := written s
     { u with trunk := { u.trunk with trunks := u.trunk.trunks.filter fun t => !(t.serial = serial && t.context = ctx) } })))

/-- For a READY connection in the cache. The next native request that passes every check moves H and is done: RM_WRITE and
RM_WRITE_IMM write the region, the latter with a notification, RM_SEND fills a receive slot, each acknowledged;
RM_READ is answered with the region's bytes. A request up to 4,095 behind H is counted and a READ answered again,
others acknowledged; any other ID is answered with the sequence NAK of H + 1. RM_READ_RSP gives an outstanding READ of
its ID and length its bytes and ends it. RM_ACK ends the requests it covers, sends again, puts the connection in
ERROR, or waits. The next ROCE_REQUEST_PACKET that passes every check moves H past it and is done and acknowledged
where asked or a last packet; a repeat is counted and acknowledged, a gap answered with syndrome 0x60, another opcode
with 0x61 and ERROR. An Acknowledge ROCE_RESPONSE_PACKET ends what it covers; a READ answer adds its bytes to its
request. Without a connection, or in ERROR, any of them is dropped and counted. -/
def Obligations.RemoteMemoryRequestsAndAnswers : Prop :=
  (∀ (s u : State) (m : RmMsg) (ecc : Bool) (c : Conn), serving s → connOf s m.conn = some c → c.state = .ready → c.place = .cached →
    (let fin (t : State) : Host.Outcome State Fault Refusal := .next (keepFixed s (settleAll (settleRma t)))
     let next := wrapAdd 32 c.recvH 1
     let back := (c.recvH + 2 ^ 32 - m.id) % 2 ^ 32
     let d := { c with recvH := m.id, tTouch := u.timebase }
     let dup := bump (cleared s) Reg.RMA_COUNT.dup_acks
     (m.id = next → rmChecks (cleared s) c { m with type := 0x80 } ecc = (u, none) →
       exec (.rmWrite m ecc) s = fin (sendRmAck (areaWrite (setConn u d) m.key m.offset m.data) d 0 m.id .ok 0 0)) ∧
     (m.id = next → rmChecks (cleared s) c { m with type := 0x81 } ecc = (u, none) →
       exec (.rmWriteImm m ecc) s = fin (sendRmAck (notifyPost (areaWrite (setConn u d) m.key m.offset m.data) d 1 m.imm m.key m.offset m.length) d 0 m.id .ok 0 0)) ∧
     (m.id = next → rmChecks (cleared s) c { m with type := 0x84 } ecc = (u, none) →
       exec (.rmSend m ecc) s = fin (sendRmAck (takeSend (setConn u d) d m.data) d 0 m.id .ok 0 0)) ∧
     (m.id = next → rmChecks (cleared s) c { m with type := 0x82 } ecc = (u, none) →
       exec (.rmRead m ecc) s = fin (sendAs (setConn u d) d.device (.rm { m with type := 0x83, retry := false, epoch := 0, src := u.device, pool := 0xFFFF, conn := d.remote, key := 0, imm := 0, offset := 0, data := areaRead (setConn u d) m.key m.offset m.length }) none none)) ∧
     (m.id ≠ next → back < 4096 → exec (.rmWrite m ecc) s = fin (sendRmAck dup c 0 m.id .ok 0 0) ∧ exec (.rmWriteImm m ecc) s = fin (sendRmAck dup c 0 m.id .ok 0 0) ∧
       exec (.rmSend m ecc) s = fin (sendRmAck dup c 0 m.id .ok 0 0) ∧ exec (.rmRead m ecc) s = fin (rmServe dup c { m with type := 0x82 } ecc false)) ∧
     (m.id ≠ next → 4096 ≤ back → exec (.rmWrite m ecc) s = fin (sendRmAck (cleared s) c 1 m.id .ok 0 next) ∧
       exec (.rmWriteImm m ecc) s = fin (sendRmAck (cleared s) c 1 m.id .ok 0 next) ∧ exec (.rmSend m ecc) s = fin (sendRmAck (cleared s) c 1 m.id .ok 0 next) ∧
       exec (.rmRead m ecc) s = fin (sendRmAck (cleared s) c 1 m.id .ok 0 next)) ∧
     (let hit (r : RmReq) : Bool := r.op = 0x82 && r.id = m.id && r.length = m.data.length
      exec (.rmReadRsp m) s = fin (reqsDone (setConn (cleared s) { c with reqs := c.reqs.map fun r => if hit r then { r with got := m.data } else r }) m.conn hit)))) ∧
  (∀ (s : State) (a : RmAck) (c : Conn), serving s → connOf s a.conn = some c → c.state = .ready → c.place = .cached →
    exec (.rmAck a) s = .next (keepFixed s (settleAll (settleRma (match a.kind with
      | 0 => ackReqs (cleared s) a.conn a.id
      | 1 => resend (cleared s) a.conn
      | 2 => nakConn (cleared s) a.conn a.id (statusOf a.status) a.detail
      | _ => rnrConn (cleared s) a.conn))))) ∧
  (∀ (s u : State) (port : Nat) (named item : Option Nat) (p : RocePkt) (ecc : Bool) (c : Conn), serving s → connOf s p.qp = some c → roceDropped s p = false → c.place = .cached →
    (let fin (t : State) : Host.Outcome State Fault Refusal := .next (keepFixed s (settleAll (settleRma t)))
     let v := if p.ce then sendCnp (cleared s) c else cleared s
     let c := (connOf v p.qp).getD c
     let next := wrapAdd 32 c.recvH 1
     let id := extendPsn p.psn next
     let back := (c.recvH + 2 ^ 32 - id) % 2 ^ 32
     let d := { c with recvH := if p.op = 0x0C then wrapAdd 32 id (Nat.max 1 (ceilDiv p.length (mtuBytes c)) - 1) else id, tTouch := u.timebase }
     let done := roceApply (setConn u d) d id p item
     (roceRequest p.op = true → id = next → roceChecks v c named p ecc = (u, none, item) → exec (.roceRequestPacket port named p ecc) s = fin
       (if p.op = 0x0C || !(p.ackReq || [0x04, 0x08, 0x09, 0x0A, 0x0B].contains p.op) then done else sendAeth done d id (Config.aethCredit % 32))) ∧
     (roceRequest p.op = true → id ≠ next → back < 4096 → p.op ≠ 0x0C → exec (.roceRequestPacket port named p ecc) s =
       fin (sendAeth (bump v Reg.RMA_COUNT.dup_acks) c id (Config.aethCredit % 32))) ∧
     (roceRequest p.op = true → id ≠ next → 4096 ≤ back → exec (.roceRequestPacket port named p ecc) s = fin (sendAeth v c next 0x60)) ∧
     (roceRequest p.op = false → exec (.roceRequestPacket port named p ecc) s = fin (errConn (sendAeth v c id 0x61) c.num .versionMismatch id 7)))) ∧
  (∀ (s : State) (p : RocePkt) (c : Conn), serving s → connOf s p.qp = some c → roceDropped s p = false → c.place = .cached →
    (let fin (t : State) : Host.Outcome State Fault Refusal := .next (keepFixed s (settleAll (settleRma t)))
     let id := extendPsn p.psn ((c.reqs.head?).elim c.sendId (·.id))
     let hit (r : RmReq) : Bool := r.op = 0x0C && wrapAdd 32 r.id (r.got.length / mtuBytes c) = id && decide (r.got.length + p.data.length ≤ r.length)
     (p.op = 0x11 → p.syndrome < 32 → exec (.roceResponsePacket p) s = fin (ackReqs (cleared s) p.qp id)) ∧
     (p.op ≠ 0x11 → exec (.roceResponsePacket p) s = fin (reqsDone (setConn (cleared s) { c with reqs := c.reqs.map fun r => if hit r then { r with got := r.got ++ p.data } else r })
       p.qp fun r => r.op = 0x0C && r.got.length = r.length)))) ∧
  (∀ (s : State) (m : RmMsg) (ecc : Bool), serving s → (connOf s m.conn).elim true (·.state = .error) = true →
    (let gone : Host.Outcome State Fault Refusal := .next (keepFixed s (settleAll (settleRma (bump (cleared s) Reg.RMA_COUNT.dropped))))
     exec (.rmWrite m ecc) s = gone ∧ exec (.rmWriteImm m ecc) s = gone ∧ exec (.rmRead m ecc) s = gone ∧ exec (.rmSend m ecc) s = gone ∧ exec (.rmReadRsp m) s = gone))

/-- At full service. RDMA_RETRY_TIMER of a connection with requests that does not wait: with retries left it counts one
and sends them again, otherwise ERROR with LINK_DOWN and the oldest ID. RNR_WAIT_EXPIRY of a waiting connection ends
the wait, sends again and sends what waits. CNP for a READY connection under congestion control makes the rate its
target, cuts the rate by cut/256 but not below min_mbps, stage 0. CC_RATE_PERIOD raises the target by step_mbps to at
most 50,000 from stage 5 on, moves the rate half way and counts the stage. PFC_PAUSE on an enabled priority outside a
storm holds it, or with 0 releases it. PFC_RENEWAL with the pause in force sends it again and below the upper level
only that. PFC_STORM of a held priority discards and counts its queues' frames, ends the hold and posts RMA_PFC_STORM;
PFC_STORM_END ends the storm. RMA_ENGINE_FATAL puts every connection of its half in ERROR with TIER_FAULT and posts
the event. -/
def Obligations.RetriesRatesPausesAndEngineFaults : Prop :=
  (∀ (s : State) (n : Nat) (c : Conn), serving s → connOf s n = some c →
    (c.state = .ready → c.reqs ≠ [] → c.rnrWait = false → exec (.rdmaRetryTimer n) s = .next (keepFixed s (settleAll
      (if c.retries < c.retry then resend (setConn (cleared s) { c with retries := c.retries + 1 }) n
       else errConn (cleared s) n .linkDown ((c.reqs.head?).elim 0 (·.id)) 7)))) ∧
    (c.rnrWait = true → exec (.rnrWaitExpiry n) s = .next (keepFixed s (settleAll (pump (resend (setConn (cleared s) { c with rnrWait := false }) n) n)))) ∧
    (c.cc = true → c.state = .ready →
      exec (.cnp n) s = .next (keepFixed s (setConn (cleared s) { c with
        target := c.rate, rate := Nat.max (fld s Reg.RMA_CC.min_mbps) (c.rate * (256 - fld s Reg.RMA_CC.cut) / 256), stage := 0 })) ∧
      (let t := if c.stage < 5 then c.target else Nat.min 50000 (c.target + fld s Reg.RMA_CC.step_mbps)
       exec (.ccRatePeriod n) s = .next (keepFixed s (setConn (cleared s) { c with target := t, rate := (c.rate + t) / 2, stage := c.stage + 1 }))))) ∧
  (∀ (s : State) (p k n : Nat), serving s → p < 12 → k < 8 →
    (let x := prioOf s p k
     (pfcOn s p k = true → x.storm = false →
       exec (.pfcPause p k n) s = .next (keepFixed s (setPrio (cleared s) p k { x with paused := n ≠ 0 }))) ∧
     (pfcOn s p k = true → x.pausing = true → 1024 * fldAt s Reg.RMA_PFC.xon_kib [p] < n →
       exec (.pfcRenewal p k n) s = .next (keepFixed s (emit (cleared s) (.pfc p k 0xFFFF)))) ∧
     (pfcOn s p k = true → x.pausing = false → n < 1024 * fldAt s Reg.RMA_PFC.xoff_kib [p] → exec (.pfcRenewal p k n) s = .next (keepFixed s (cleared s))) ∧
     (x.paused = true → x.storm = false → fldAt s Reg.RMA_PFC.storm_ms [p] ≠ 0 →
       (let e := ethOf s p
        let qs := (List.range 8).filter fun q => bitsOf (fldAt s Reg.ETH_CTL.pcp_map [p]) (3 * q) 3 = k
        let u := setPrio (setEth (cleared s) p { e with queues := tfilter (fun q _ => !qs.contains q) e.queues }) p k { x with paused := false, storm := true }
        exec (.pfcStorm p k) s = .next (keepFixed s
          (report (bumpAt u Reg.ETH_STATUS.discard [p] (sumOf (qs.map fun q => (tget [] e.queues q).length))) 0x1505 p 0 [p, k])))) ∧
     exec (.pfcStormEnd p k) s = .next (keepFixed s (setPrio (cleared s) p k { x with storm := false })))) ∧
  (∀ (s : State) (half : Nat), serving s →
    (let mine := ((s.rma.conns.filter fun x => connHalf (cleared s) x.2 = half).map (·.1))
     exec (.rmaEngineFatal half) s = .next (keepFixed s (settleAll (settleRma
       (report (mine.foldl (fun s n => errConn s n .tierFault 0 0) (cleared s)) 0x1508 half 0 [half]))))))

/-- With the host's port in reach and no operation busy, CONN_CREATE of a valid unlisted connection with a cache slot free
makes it READY with code 0, and of a broken or a listed one fails with VERSION_MISMATCH 7 or BAD_HANDLE 0xF;
CONN_DESTROY ends its access, forgets it, fails its moves, lets a waiting CREATE in and raises its domain's
generation; CONN_READ gives its 256 bytes; either of an unknown one fails with BAD_HANDLE 0xE. CONN_SPILL_COMPLETE
writes the connection's bytes to its slot. CONN_FETCH_COMPLETE caches it and runs what was held, then sends what
waits. RMA_MR_CTL_GO writes the region, or takes it away, and raises the generations of the new and the old domain,
returning the first; a valid region outside the RMA area or of no valid domain fails. PROT_FENCE of the submission's
own domain completes with its generation where no older access is left and otherwise waits; PROT_FENCE_DONE completes
those whose accesses are gone; FENCE_LIMIT_EXPIRY puts the connections of older accesses in ERROR with PROTECTION 0xE,
counts them, posts RMA_FENCE_ABORT and completes. -/
def Obligations.ConnectionsRegionsAndFences : Prop :=
  (∀ (s : State), hostReaches s →
    (let u := written s
     let v := setFld u Reg.RMA_CONN_CTL.op 1
     let fin (t : State) : Host.Outcome State Fault Refusal := .next (keepFixed s (settleAll (refreshPools t)))
     fld u Reg.RMA_CONN_CTL.busy ≠ 1 →
       (connFrom v = none → exec .connCreate s = fin (connCtlFails v .versionMismatch 7)) ∧
       (∀ c, connFrom v = some c → pdValid v c.pd = true →
         ((connOf v c.num).isSome = true → exec .connCreate s = fin (connCtlFails v .badHandle 0xF)) ∧
         (connOf v c.num = none → v.rma.conns.length < 16384 + spillCount v → cacheUsed v < 16384 →
           (let w := setConn v { c with tTouch := v.timebase }
            let w := { w with rma := { w.rma with createWait := none } }
            exec .connCreate s = fin (keepFree (connCtlFails w .ok 0))))))) ∧
  (∀ (s : State) (n : Nat), hostReaches s → n < 2 ^ 24 →
    (let u (op : Nat) := setFld (setFld (written s) Reg.RMA_CONN_CTL.op op) Reg.RMA_CONN_CTL.conn n
     fld (written s) Reg.RMA_CONN_CTL.busy ≠ 1 →
       (connOf s n = none → exec (.connDestroy n) s = .next (keepFixed s (settleAll (refreshPools (connCtlFails (u 2) .badHandle 0xE)))) ∧
         exec (.connRead n) s = .next (keepFixed s (connCtlFails (u 3) .badHandle 0xE))) ∧
       (∀ c, connOf s n = some c →
         (let v := endAccess (u 2) c
          let w := { v with rma := { v.rma with conns := tdel v.rma.conns n, ended := v.rma.ended ++ (((c.reqs ++ c.waiting).map (·.move)).eraseDups.map fun m => (m, false)) } }
          exec (.connDestroy n) s = .next (keepFixed s (settleAll (refreshPools (connCtlFails (tryCreate (raiseGen w c.pd)) .ok 0))))) ∧
         (let v := { u 3 with link := { (u 3).link with entropy := (u 3).link.entropy + 184 } }
          exec (.connRead n) s = .next (keepFixed s
            (connCtlFails ((List.range 32).foldl (fun t w => setFldAt t Reg.RMA_CONN_DATA.word [w] (leAt (connBytes (u 3) c) (8 * w) 8)) v) .ok 0)))))) ∧
  (∀ (s : State) (n slot : Nat) (c : Conn), serving s → connOf s n = some c →
    (c.place = .spilling slot →
      (let u := setConn (cleared s) { c with place := .spilled slot }
       let v := emit u (.hostWrite (fld u Reg.RMA_SPILL_BASE.addr + 256 * slot) (connBytes u c))
       exec (.connSpillComplete n) s = .next (keepFixed s (settleAll (keepFree (tryCreate { v with link := { v.link with entropy := v.link.entropy + 184 } })))))) ∧
    (c.place = .fetching slot → cacheUsed s < 16384 →
      exec (.connFetchComplete n) s = .next (keepFixed s (settleAll (keepFree (pump (c.held.foldl releasePkt (setConn (cleared s) { c with place := .cached, held := [] })) n)))))) ∧
  (∀ (s : State) (i : Nat), hostReaches s → i < 2 ^ 16 →
    (let u := setFld (written s) Reg.RMA_MR_CTL.index i
     let valid := flag u Reg.RMA_MR_DATA.valid
     let pd := fld u Reg.RMA_MR_DATA.pd
     let off := fld u Reg.RMA_MR_DATA.offset
     let len := fld u Reg.RMA_MR_DATA.length
     let bad := valid = true ∧ (len = 0 ∨ fld u Reg.RMA_AREA.units * 16384 < off + len ∨ pdValid u pd = false)
     let r : Region := { read := flag u Reg.RMA_MR_DATA.read, write := flag u Reg.RMA_MR_DATA.write, pd := pd, tag := fld u Reg.RMA_MR_DATA.tag, offset := off, length := len }
     let pds := ((if valid then [pd] else []) ++ (match tget? u.rma.regions i with | some o => [o.pd] | none => [pd])).eraseDups
     let v := pds.foldl raiseGen { u with rma := { u.rma with regions := if valid then tset u.rma.regions i r else tdel u.rma.regions i } }
     exec (.rmaMrCtlGo i) s = .next (keepFixed s
       (if bad then setFld u Reg.RMA_MR_CTL.code Status.versionMismatch.code else setFld (setFld v Reg.RMA_MR_CTL.code 0) Reg.RMA_MR_CTL.gen (pdGen v (pds.headD pd)))))) ∧
  (∀ (s : State) (sub : Sub) (pd g : Nat), accepts 2 s sub → ctxBad (taken s sub) sub.context = none → pd ≠ 0 → pd < 256 → pdValid s pd = true →
    (g = 0 ∨ serialLt 32 (pdGen s pd) g = false) → fldAt (taken s sub) Reg.RMA_PD.owner [pd] = sub.context →
    (let u := taken s sub
     let g' := if g = 0 then pdGen s pd else g
     exec (.protFence sub pd g 0) s = .next (keepFixed s
       (if (olderAccesses u pd g').isEmpty then complete u sub .ok 0 [g', 0] else { u with rma := { u.rma with fences := u.rma.fences ++ [{ sub := some sub, pd := pd, gen := g' }] } })))) ∧
  (∀ s : State, serving s →
    (let u := cleared s
     let done := u.rma.fences.filter fun f => (olderAccesses u f.pd f.gen).isEmpty
     let v := { u with rma := { u.rma with fences := u.rma.fences.filter fun f => !(olderAccesses u f.pd f.gen).isEmpty } }
     exec .protFenceDone s = .next (keepFixed s (done.foldl (fun s f => match f.sub with | some x => complete s x .ok 0 [f.gen, f.aborted] | none => s) v)))) ∧
  (∀ (s : State) (pd g : Nat), serving s → (s.rma.fences.any fun f => f.pd = pd && f.gen = g) = true →
    (let old := olderAccesses s pd g
     let u := old.foldl (fun s n => errConn s n .protection ((connOf s n).elim 0 (·.recvH)) 0xE) (cleared s)
     let v := { u with rma := { u.rma with fences := u.rma.fences.map fun f => if f.pd = pd && f.gen = g then { f with aborted := f.aborted + old.length } else f } }
     exec (.fenceLimitExpiry pd g) s = .next (keepFixed s (settleAll (settleRma (fencesDone (if old.isEmpty then v else report v 0x1507 pd 0 [pd, old.length])))))))

/-- In a live block, for link n. HELLO while training or held that agrees (a common version, the same crypto mode, five
pools of 16 or more) takes the partner's identity, version, pools and rank, clears key setup and queues RESUME of its
last flit with the epoch, the next one from training; otherwise training fails with VERSION_MISMATCH, PROTECTION or
NO_CAPACITY. RESUME on a held agreed link of its epoch brings it back; in training it takes the greater epoch and
sends NONCE. LINK_SIGNAL_DETECT on four lanes starts training, fast within 100 ms of kept coefficients.
LINK_DOWN_DETECTED counts FEC errors and holds an UP link or port. LINK_HOLD_EXPIRY and ETH_HOLD_EXPIRY take a held
link or port down. LINK_TRAIN_RETRY starts training of an enabled link not UP; on an Ethernet port it lets failed key
setups start anew. LNK_CTL_RETRAIN retrains an enabled link, holding an UP one. LNK_CTL_ENABLE_WRITE stores the fields
and takes the link down with enable 0, or retrains it. ETH_TRAINING_COMPLETE brings an enabled port UP. -/
def Obligations.LinkTrainingLossAndReturn : Prop :=
  (∀ (s : State) (n : Nat), live s → n < 48 →
    (let fin (t : State) : Host.Outcome State Fault Refusal := .next (keepFixed s (settleWhole t))
     let u := cleared s
     let l := lnkOf s n
     (∀ h : Hello, l.st = .training ∨ l.st = .held →
       (let mine := helloOf u n
        let v := setLnk u n { l with partner := h.device % 2 ^ 11, partnerKind := h.kind, partnerLink := h.link, partnerStart := h.startEpoch, rank := h.rank }
        let w := if h.crypto = 1 then setSticky v 5 else v
        let resume : Ctl := .resume l.lastIn (if l.st = .held then l.epoch else (l.epoch + 1) % 2 ^ 16)
        exec (.hello n h) s = fin
          (if Nat.min mine.verMax h.verMax < Nat.max mine.verMin h.verMin then trainFails v n .versionMismatch
           else if h.crypto ≠ mine.crypto then trainFails v n .protection
           else if h.credits.length ≠ 5 ∨ (h.credits.any fun c => decide (c < 16)) = true then trainFails v n .noCapacity
           else modLnk w n fun x => { x with agreed := true, resumed := false, version := Nat.min mine.verMax h.verMax, crypto := h.crypto, pools := h.credits,
                                             keys := { x.keys with mine := none, theirs := none, derived := none },
                                             ctl := x.ctl ++ (if l.agreed then [.hello mine] else []) ++ [resume] }))) ∧
     (∀ last epoch, l.agreed = true →
       (l.st = .held → exec (.resume n last epoch) s = fin (if epoch = l.epoch then lnkReturns u n last else startTraining (lnkGoDown u n) n false)) ∧
       (l.st = .training → ¬ (epoch = l.epoch ∧ epoch ≠ 0 ∧ l.partnerStart = l.upStart) → exec (.resume n last epoch) s = fin
         (sendNonce (setLnk u n { l with epoch := Nat.max ((l.epoch + 1) % 2 ^ 16) (epoch % 2 ^ 16), resumed := true }) n l.partner))) ∧
     (∀ reversed, lnkEnabled s n = true → l.st ≠ .up → exec (.linkSignalDetect n 15 reversed) s = fin (modLnk (startTraining u n
       (match l.coeffAt with | some t => decide (s.timebase < t + 100000000) | none => false)) n fun x => { x with reversed := reversed })) ∧
     (∀ fec, (lnkOf (bumpAt u Reg.LNK_ERR.fec_uncorr [n] fec) n).st = .up → exec (.linkDownDetected n fec) s = fin (lnkHeld (bumpAt u Reg.LNK_ERR.fec_uncorr [n] fec) n true)) ∧
     (l.st = .held → exec (.linkHoldExpiry n) s = fin (lnkGoDown u n)) ∧
     (lnkEnabled s n = true → l.st ≠ .up → exec (.linkTrainRetry n) s = fin (startTraining u n false)))) ∧
  (∀ (s : State) (n : Nat), hostReaches s → n < 48 →
    (let fin (t : State) : Host.Outcome State Fault Refusal := .next (keepFixed s (settleWhole t))
     let u := written s
     (lnkEnabled u n = true → exec (.lnkCtlRetrain n) s = fin (startTraining (if (lnkOf u n).st = .up then lnkHeld u n false else u) n false)) ∧
     (∀ w, portPresent s.part n = true →
       (let v := storeFields u w [n] [Reg.LNK_CTL.enable, Reg.LNK_CTL.express, Reg.LNK_CTL.shp_ovh]
        exec (.lnkCtlEnableWrite n w) s = fin
          (if fldAt v Reg.LNK_CTL.enable [n] = 0 then lnkGoDown v n else if wget w Reg.LNK_CTL.retrain = some 1 then retrainLink v n else v))))) ∧
  (∀ (s : State) (p : Nat), live s → p < 12 →
    (let fin (t : State) : Host.Outcome State Fault Refusal := .next (keepFixed s (settleWhole t))
     let u := cleared s
     ((ethOf s p).st = .up → exec (.linkDownDetected (48 + p) 0) s = fin (ethHeld u p)) ∧
     ((ethOf s p).st = .held → exec (.ethHoldExpiry p) s = fin (ethGoDown u p)) ∧
     (ethEnabled s p = true → exec (.ethTrainingComplete p) s = fin (ethUp u p)) ∧
     exec (.linkTrainRetry (48 + p)) s = fin (modEth u p fun e => { e with keys := tmap (fun _ k => if k.tx.isNone then { k with mine := none } else k) e.keys })))

/-- In a live block, for an UP link n below 48. A flit's header is taken first: ack and returned credits. The DATA_FLIT
next in sequence is accepted and a frame it completes is taken; an older one is counted as a copy; a gap, or a bad
CRC, which is counted, asks once for RETRY. RETRY and REPLAY_TIMEOUT replay. CREDIT_SYNC sets the five pools' counts;
CREDIT_SYNC_TIMER and HEARTBEAT queue a CREDIT_SYNC and the answer. TSYNC that opens an exchange is kept with its rank
and error and the parent chosen; TSYNC_TIMER chooses the parent and queues TSYNC. EXPRESS_SUSPEND demotes;
EXPRESS_RESUME ends that; EXPRESS_RESUME_TIMER of a suspended partner whose error is low ends the suspension, queues
EXPRESS_RESUME and posts the event. FLIT_BOUNDARY sends the first control flit, else the next flit to replay, else the
scheduler's choice, else an idle flit; of an Ethernet port a control segment, else its scheduler's choice.
SHAPER_CONFIG_WRITE stores the fields and, where it names rate or burst, fills or empties the bucket by the mode;
SHAPER_REFILL refills all. -/
def Obligations.FlitsCreditsTimeAndShapers : Prop :=
  (∀ (s : State) (n : Nat) (h : FlitHead), live s → n < 48 → (lnkOf s n).st = .up →
    (let fin (t : State) : Host.Outcome State Fault Refusal := .next (keepFixed s (settleWhole t))
     let u := cleared s
     let v := takeHead u n h
     let l := lnkOf s n
     exec (.idleFlit n h) s = fin v ∧
     (∀ q, exec (.retry n h q) s = fin (replayFrom v n (some q))) ∧ exec (.replayTimeout n) s = fin (replayFrom u n none) ∧
     (∀ pools, exec (.creditSync n h pools) s = fin (redraw (setLnk v n ((List.range 5).foldl (fun l p => setBack l p (pools.getD p 0 % 2 ^ 32)) (lnkOf v n))) n)) ∧
     exec (.creditSyncTimer n) s = fin (pushCtl u n (.creditSync l.gaveCr)) ∧
     (∀ k t, exec (.heartbeat n h k t) s = fin (pushCtl v n (.hbAnswer k t 0))) ∧
     exec (.expressSuspend n h) s = fin (suspendExpress v n) ∧ exec (.expressResume n h) s = fin (modLnk v n fun x => { x with suspended := false }) ∧
     (l.partnerSuspended = true → l.errLow.isSome = true → exec (.expressResumeTimer n) s = fin
       (report (setLnk u n { l with partnerSuspended := false, misses := [], ctl := l.ctl ++ [.expressResume] }) 0x1007 n l.epoch [n, 1])) ∧
     (let w := chooseParent u
      exec (.tsyncTimer n) s = fin (pushCtl w n (.tsync ⟨0, 0, 0, w.link.rank, w.link.err⟩))) ∧
     (∀ t : Tsync, t.rank ≠ 0 → t.t2 = 0 → t.t3 = 0 →
       (let x := lnkOf v n
        let low : Option Nat := if t.err < 20 then (match x.errLow with | some y => some y | none => some v.timebase) else none
        exec (.tsync n h t) s = fin (chooseParent (setLnk v n { x with rank := t.rank, err := t.err, synced := some (v.timebase, t.t1), errLow := low })))))) ∧
  (∀ (s : State) (n : Nat) (fl : Flit) (f : Frame) (i : Nat), live s → n < 48 → (lnkOf s n).st = .up → fl.body = .data f i →
    (let fin (t : State) : Host.Outcome State Fault Refusal := .next (keepFixed s (settleWhole t))
     let v := takeHead (cleared s) n ⟨fl.ack, fl.pool, fl.returned⟩
     let l := lnkOf v n
     let want := (l.lastIn + 1) % 2 ^ 16
     (fl.crcOk = false → exec (.dataFlit n fl) s = fin (askRetry (bumpAt (cleared s) Reg.LNK_ERR.crc [n] 1) n)) ∧
     (fl.crcOk = true → fl.seq = want →
       (let r := takeData (setLnk v n { l with lastIn := want, retrySent := false }) n fl f i
        exec (.dataFlit n fl) s = fin (match r.2 with | some x => frameDone r.1 n fl.vc x | none => r.1))) ∧
     (fl.crcOk = true → fl.seq ≠ want → exec (.dataFlit n fl) s = fin
       (if serialLt 16 fl.seq want then setLnk v n { l with dupFlits := (l.dupFlits + 1) % 2 ^ 32 } else askRetry v n)))) ∧
  (∀ (s : State) (n : Nat), live s → n < 48 → (lnkOf s n).st = .up →
    (let fin (t : State) : Host.Outcome State Fault Refusal := .next (keepFixed s (settleWhole t))
     let u := cleared s
     let l := lnkOf s n
     (∀ c cs, l.ctl = c :: cs →
       (let w := stampCtl (modLnk u n fun x => { x with ctl := cs }) n c
        exec (.flitBoundary n) s = fin (sendPlain w.1 n (.ctl w.2)))) ∧
     (∀ fl rest, l.ctl = [] → l.again = fl :: rest →
       (let w := nextHead { l with again := rest }
        exec (.flitBoundary n) s = fin (emit (setLnk u n w.1) (.flit n { fl with ack := w.2.ack, pool := w.2.pool, returned := w.2.returned })))) ∧
     (l.ctl = [] → l.again = [] → exec (.flitBoundary n) s = fin ((schedule u n (List.range 8)).getD (sendPlain u n .idle))))) ∧
  (∀ (s : State) (p : Nat), live s → p < 12 → (ethOf s p).st = .up →
    (let u := startTunnels (cleared s) p
     exec (.flitBoundary (48 + p)) s = .next (keepFixed s (settleWhole (match (ethOf u p).ctl with
       | (d, c) :: cs => emit (modEth u p fun e => { e with ctl := cs })
           (.segment p d { first := false, last := false, frameNo := 0, offset := 0, length := 244, frame := none, control := some c })
       | [] => ethSchedule u p (List.range 8)))))) ∧
  (∀ s : State, live s → exec .shaperRefill s = .next (keepFixed s (settleWhole (allPorts.foldl (fun s port => (List.range 8).foldl (fun s q => refillShaper s port q) s) (cleared s))))) ∧
  (∀ (s : State) (n q : Nat) (w : RegWrite), hostReaches s → n < 48 → q < 8 → portPresent s.part n = true →
    (let v := storeFields (written s) w [n, q] [Reg.LNK_SHP_CFG.rate, Reg.LNK_SHP_CFG.burst_kib, Reg.LNK_SHP_CFG.reset_mode]
     exec (.shaperConfigWrite n q w) s = .next (keepFixed s (settleWhole
       (if (wget w Reg.LNK_SHP_CFG.rate).isNone && (wget w Reg.LNK_SHP_CFG.burst_kib).isNone then v
        else setShaper v n q (if fldAt v Reg.LNK_SHP_CFG.reset_mode [n, q] = 1 then ((shaperBurst v n q : Nat) : Int) else 0))))))

/-- In a live block, on link n below 48. In training after RESUME: KEY_NONCE with this end's nonce sent and the master
keys held derives the key of each direction from the master key, the nonces, the device IDs, the link and the epoch,
and queues CONFIRM; naming a master key not held it queues FAIL and fails key setup with cause 2. KEY_CONFIRM whose
code matches installs the derived keys and brings the link UP at its epoch, otherwise it queues FAIL and fails with
cause 1. KEY_FAIL fails with cause 3. On an UP link: KEY_REKEY with the next sequence number derives the key of the
other phase, keeps the old one and queues REKEY_ACK; a copy is acknowledged again; KEY_REKEY_ACK of the sequence
number outstanding switches the sender to the new key. REKEY_START with a counter of 2^47 or more and no rekey
outstanding takes a nonce, derives the new key and queues REKEY; REKEY_RESEND_TIMER queues it again; OLD_KEY_EXPIRY
drops the receiver's old key. -/
def Obligations.LinkKeySetupAndRekeying : Prop :=
  (∀ (s : State) (n : Nat) (h : FlitHead) (k : KeyFlit) (dev : Nat), live s → n < 48 → (lnkOf s n).st = .training → (lnkOf s n).resumed = true → (lnkOf s n).partner = dev →
    (let fin (t : State) : Host.Outcome State Fault Refusal := .next (keepFixed s (settleWhole t))
     let u := cleared s
     let side := (lnkOf s n).keys
     let e := keyEnds u n dev
     (∀ mine lmk, side.mine = some mine → (tget? s.sec.lmk k.lmk).isSome = true → lmkOf u n dev k.lmk = some lmk →
       (let salt := nonceBytes e mine k.nonce
        let v := setKeySide u n dev { side with theirs := some k.nonce, derived := some (dirKey lmk salt e.own e.peer e.ownLink e.epoch, dirKey lmk salt e.peer e.own e.peerLink e.epoch),
                                                lmk := if e.own ≤ e.peer then side.lmk else k.lmk }
        exec (.keyNonce n h k) s = fin (sendCtl v n dev (keyFlit 2 k.lmk false 0 0 (confirmMac lmk salt e.own))))) ∧
     (tget? s.sec.lmk k.lmk = none → exec (.keyNonce n h k) s = fin (keyFail (sendCtl u n dev (keyFlit 5 k.lmk false 0 0 0)) n dev 2)) ∧
     (∀ mine theirs tx rx lmk, side.mine = some mine → side.theirs = some theirs → side.derived = some (tx, rx) → tget? s.sec.lmk side.lmk = some lmk →
       exec (.keyConfirm n h k) s = fin
         (if k.mac = confirmMac lmk (nonceBytes e mine theirs) e.peer then
            lnkUp (setKeySide u n dev { side with derived := none, tx := some tx, rx := some rx, old := none, rekey := none }) n (lnkOf s n).epoch
          else keyFail (sendCtl u n dev (keyFlit 5 side.lmk false 0 0 0)) n dev 1)) ∧
     exec (.keyFail n h k) s = fin (keyFail u n dev 3))) ∧
  (∀ (s : State) (n : Nat) (h : FlitHead) (k : KeyFlit), live s → n < 48 →
    (let fin (t : State) : Host.Outcome State Fault Refusal := .next (keepFixed s (settleWhole t))
     let v := takeHead (cleared s) n h
     let dev := (lnkOf s n).partner
     let side := (lnkOf v n).keys
     let ack := keyFlit 4 k.lmk k.phase k.seq 0 0
     (∀ rx, side.rx = some rx → ¬ (k.seq = rx.seq ∧ 0 < rx.seq) → k.seq = (rx.seq + 1) % 2 ^ 32 →
       exec (.keyRekey n h k) s = fin (sendCtl (setKeySide v n dev { side with rx := some (rekeyed rx k.nonce k.seq), old := some rx }) n dev ack)) ∧
     (∀ rx, side.rx = some rx → k.seq = rx.seq → 0 < rx.seq → exec (.keyRekey n h k) s = fin (sendCtl v n dev ack)) ∧
     (∀ nonce new, side.rekey = some (nonce, new) → k.seq = new.seq →
       exec (.keyRekeyAck n h k) s = fin (setKeySide v n dev { side with tx := some new, rekey := none })))) ∧
  (∀ (s : State) (n dev : Nat), live s → n < 48 →
    (let fin (t : State) : Host.Outcome State Fault Refusal := .next (keepFixed s (settleWhole t))
     let u := cleared s
     let side := (lnkOf s n).keys
     (∀ tx, side.tx = some tx → side.rekey = none → 2 ^ 47 ≤ tx.counter →
       (let v := { u with link := { u.link with entropy := u.link.entropy + 1 } }
        let nonce := Config.fresh s.link.entropy % 2 ^ 256
        let new := rekeyed tx nonce ((tx.seq + 1) % 2 ^ 32)
        exec (.rekeyStart n dev) s = fin (sendCtl (setKeySide v n dev { side with rekey := some (nonce, new) }) n dev (keyFlit 3 side.lmk new.phase new.seq nonce 0)))) ∧
     (∀ nonce new, side.rekey = some (nonce, new) → exec (.rekeyResendTimer n dev) s = fin (sendCtl u n dev (keyFlit 3 side.lmk new.phase new.seq nonce 0))) ∧
     exec (.oldKeyExpiry n dev) s = fin (setKeySide u n dev { side with old := none })))

/-- In a live block. FRAME_RECEIVE on an UP port: a frame for another device is counted; one whose tag fails is dropped as
a failed authentication; a TACK ends the transactions it names; a message of a source not seen before that passes its
role check is recorded, acknowledged OK and delivered, one of a stale epoch acknowledged STALE_ROLE and dropped, one
of a newer epoch held; a copy of a decided message is counted and acknowledged as before. TACK ends the transactions
it names with their status and lets waiting messages go. RETX_TIMER of a transaction that is all sent ends it with
LINK_DOWN 2 after retx_max sends, otherwise sends it again. EPOCH_HOLD_EXPIRY decides the held frame for good.
TUNNEL_SEGMENT on an UP port that completes a frame takes the frame, otherwise it is kept; REASSEMBLY_TIMEOUT drops
what was kept. ETHERNET_FRAME_RECEIVE on an UP port counts the lookup and, on a miss, does miss_action. PTP_MESSAGE on
a served port: a better Announce makes its clock the best; its one-step Sync sends the delay request. -/
def Obligations.FramesTransactionsAndEthernet : Prop :=
  (∀ (s u : State) (p : Nat) (f : Frame) (ok : Bool), live s → p < 60 → portState s p = .up →
    (let fin (t : State) : Host.Outcome State Fault Refusal := .next (keepFixed s (settleWhole t))
     (f.dst ≠ s.device → exec (.frameReceive p f) s = fin (bump (cleared s) Reg.LNK_ROUTE_ERR.misroute)) ∧
     (f.dst = s.device → tagOk (cleared s) p f = (u, ok) →
       (ok = false → exec (.frameReceive p f) s = fin (authFailed u p)) ∧
       (∀ l, ok = true → f.body = .tack l → exec (.frameReceive p f) s = fin (takeTack u f.src l)) ∧
       (∀ m, ok = true → f.body = .msg m →
         (let v := nameFirst u m
          let rec_ (x : Option (Status × Nat)) : State := recordTx v f.src f.startEpoch f.txid x
          tget? u.link.windows f.src = none →
            (roleCheck v f.src m = .pass → exec (.frameReceive p f) s = fin (deliver (sendTack (rec_ (some (.ok, 0))) f.src f.txid .ok 0) p f.src m)) ∧
            (∀ e, roleCheck v f.src m = .stale e → exec (.frameReceive p f) s = fin (sendTack (rec_ (some (.staleRole, e))) f.src f.txid .staleRole e)) ∧
            (∀ e, roleCheck v f.src m = .hold e → exec (.frameReceive p f) s = fin { rec_ none with link := { (rec_ none).link with held := v.link.held ++ [{ frame := f, port := p }] } })) ∧
         (∀ w n st d, tget? u.link.windows f.src = some w → w.startEpoch = f.startEpoch → (w.marks.find? (·.1 = f.txid)) = some (n, some (st, d)) →
           exec (.frameReceive p f) s = fin (sendTack (bump u Reg.LNK_DUP.dups) f.src f.txid st d)))))) ∧
  (∀ (s : State) (src txid : Nat), live s →
    (let fin (t : State) : Host.Outcome State Fault Refusal := .next (keepFixed s (settleWhole t))
     let u := cleared s
     (∀ l : List TackEntry,
       (let v := l.foldl (fun s e => match txnOf s src e.txid with
          | some t => endTxn (dropQueued s (unsentOf t)) t e.status e.detail
          | none => s) u
        exec (.tack src l) s = fin (pumpBacklog v.link.backlog.length v))) ∧
     (∀ t, txnOf s src txid = some t → t.port.isSome = true → stillSending s t = false →
       (let r := choosePort u t.dest t.vc t.flow t.cls
        exec (.retxTimer src txid) s = fin
          (if fld s Reg.LNK_XCFG.retx_max ≤ t.sends then endTxn u t .linkDown 2
           else match r.2 with
             | some p => launchOn r.1 t p
             | none => if isIsolated r.1 src then endTxn r.1 t .linkDown 6 else modTxn r.1 src txid fun x => { x with port := none }))) ∧
     (∀ h m, (s.link.held.find? fun h => h.frame.src = src && h.frame.txid = txid) = some h → h.frame.body = .msg m →
       exec (.epochHoldExpiry src txid) s = fin (decideFrame { u with link := { u.link with held := u.link.held.erase h } } h.port h.frame m true)))) ∧
  (∀ (s : State) (p src : Nat), live s → p < 12 →
    (let fin (t : State) : Host.Outcome State Fault Refusal := .next (keepFixed s (settleWhole t))
     let u := cleared s
     let e := ethOf s p
     (∀ (g : TunnelSeg) (f : Frame), e.st = .up → g.control = none → g.frame = some f → g.first = true →
       (e.reasm.find? fun r => r.src = src && r.frameNo = g.frameNo) = none →
       (let rest := e.reasm.filter fun r => !(r.src = src && r.frameNo = g.frameNo)
        (g.last = true → g.offset = 0 → exec (.tunnelSegment p src g) s = fin (takeFrame (setEth u p { e with reasm := rest }) (48 + p) f)) ∧
        (g.last = false → exec (.tunnelSegment p src g) s = fin (setEth u p { e with reasm := rest ++
          [{ src := src, frameNo := g.frameNo, frame := some f, total := none, ranges := [(g.offset, g.length)] }] })))) ∧
     (∀ no, exec (.reassemblyTimeout p src no) s = fin (modEth u p fun e => { e with reasm := e.reasm.filter fun r => !(r.src = src && r.frameNo = no) })) ∧
     (∀ k bytes body, e.st = .up → camLookup u 1 (2 ^ 64 - 1) 2 (ethKeyWord p k body) = none →
       (let v := camCount u
        let a := bitsOf (fld v Reg.ETH_CFG.miss_action) 0 3
        exec (.ethernetFrameReceive p k bytes body) s = fin (ethAction (pfcLevel v p (k.pcp % 8) bytes) p (if a = 7 then fixedRule v k else a) none body))) ∧
     (∀ m : PtpMsg, ptpPort s p = true → m.domain = fld s Reg.ETH_PTP.domain → s.link.ptp.state ≠ 0 →
       (∀ c, m.type = 0xB → m.clock = some c → Config.betterClock (some (clockKey c)) none = true → (s.link.ptp.best.elim false fun b => b.identity = c.identity) = false →
         exec (.ptpMessage p m) s = fin (if Config.betterClock (some (clockKey c)) (s.link.ptp.best.map clockKey) then setPtpState (modPtp u fun x => { x with best := some c, port := p }) 2 else u)) ∧
       (∀ b, m.type = 0 → m.twoStep = false → s.link.ptp.best = some b → b.identity = m.source → s.link.ptp.port = p → s.link.ptp.state = 2 →
         exec (.ptpMessage p m) s = fin (ptpRequest u p s.timebase (m.time + m.correction))))))

/-- LADDER_MOVE_START at an engine with fewer than 256 moves running whose islands and PLL serve takes the first move that
can start out of its queue and runs it, charged to its partition: a sink, a write-back of a RESIDENT object, an age
move to the object's cellar target, a raise of an object already placed; with nothing to start it does nothing. For a
running move of this controller: RAISE_COMPLETE of a RISING object whose checksum holds places its home copy in the
attic, RESIDENT and clean; a failed checksum loses the copy. SINK_COMPLETE of a SINKING object out of the attic leaves
it HOME with its copy below, clean; an age move gives the copy its new tier and target. WRITEBACK_COMPLETE refreshes
the copy below and clears dirty unless the object's step changed meanwhile. MOVE_FAILED and TIER_DEADLINE_EXPIRY of a
raise lose the copy; of a sink leave the object RESIDENT and dirty, SINK_FAULT posted. FAULTY_TARGET_EXPIRY lets the
target be used again. CELLAR_TARGET_LOST of a target marks it lost, posts the event, loses its trunks and updates the
capability word. -/
def Obligations.LadderMovesAndTargets : Prop :=
  (∀ (s : State) (e : Nat), serving s → (s.tier.running.filter fun m => match objOf s m.obj with | some o => engineOf o = e | none => false).length < 256 →
    s.clk.inReset.contains (15 + e) = false → (tget? s.clk.plls (15 + e)).elim false (·.state = .coasting) = false → s.clk.inReset.contains (20 + e) = false →
    (let fin (t : State) : Host.Outcome State Fault Refusal := .next (keepFixed s (settleAll t))
     let u := cleared s
     (nextMove u e = none → exec (.ladderMoveStart e) s = fin u) ∧
     (∀ q m o, nextMove u e = some (q, m) → objOf s m.obj = some o →
       (let v := setQueue u e q (dropFirst (fun x => x.id = m.id) (queueOf u e q))
        (m.kind = .sink → exec (.ladderMoveStart e) s = fin (beginMove v m o 0)) ∧
        (m.kind = .writeback → o.state = .resident → exec (.ladderMoveStart e) s = fin (beginMove v m o 0)) ∧
        (m.kind = .age → exec (.ladderMoveStart e) s = fin (beginMove v m o (match cellarTarget v o with | some t => 256 * b2n t.remote + t.number | none => 0))) ∧
        (m.kind = .raise → lowerGone v o = false → o.state = .rising → exec (.ladderMoveStart e) s = fin (checkAttic (beginMove v m o 0))))))) ∧
  (∀ (s : State) (id : Nat) (m : Move) (o : Obj), serving s → runningMove s id = some m → objOf s m.obj = some o →
    (let fin (t : State) : Host.Outcome State Fault Refusal := .next (keepFixed s (settleAll t))
     let u := endMove (cleared s) id
     (m.asked = false → m.kind = .raise → o.state = .rising →
       exec (.raiseComplete id true) s = fin (afterMove (bump (setObj (placeBytes u o (match o.lower with | some l => l.bytes | none => [])) m.obj
         { o with state := .resident, dirty := false, active := 0 }) Reg.LAD_COUNT.raises) m.obj (ownersOf u m.obj)) ∧
       exec (.raiseComplete id false) s = fin (raiseFails u m o)) ∧
     (m.asked = false → m.kind = .sink → o.state = .sinking →
       (let low : Option Lower := if !o.dirty && o.lower.isSome then o.lower
          else some { tier := 1, target := 0, unit := (match o.lower with | some l => if l.tier = 1 then l.unit else nextUnit u 1 0 | none => nextUnit u 1 0), bytes := storedBytes u o, step := o.step }
        exec (.sinkComplete id) s = fin (checkStore (afterMove (raiseBehind (bump (setObj (wipeAttic u o) m.obj
          { o with state := .home, attic := false, dirty := false, lower := low, active := 0 }) Reg.LAD_COUNT.sinks) m.obj) m.obj (ownersOf u m.obj))))) ∧
     (m.asked = false → m.kind = .age → o.state = .sinking →
       exec (.sinkComplete id) s = fin (checkStore (afterMove (raiseBehind (bump (setObj u m.obj
         { o with state := .home, lower := o.lower.map fun l => { l with tier := if 256 ≤ m.target then 3 else 2, target := m.target % 256, unit := m.unit } })
         Reg.LAD_COUNT.sinks) m.obj) m.obj (ownersOf u m.obj)))) ∧
     (m.asked = false → m.kind = .writeback →
       (let low : Lower := match o.lower with
          | some l => { l with bytes := storedBytes u o, step := m.step }
          | none => { tier := 1, target := 0, unit := nextUnit u 1 0, bytes := storedBytes u o, step := m.step }
        exec (.writebackComplete id) s = fin (checkStore (afterMove (setObj u m.obj { o with lower := some low, dirty := if o.step = m.step then false else o.dirty }) m.obj [])))) ∧
     (m.kind = .raise → exec (.moveFailed id) s = fin (raiseFails u m o) ∧ exec (.tierDeadlineExpiry id) s = fin (raiseFails u m o)) ∧
     (m.kind = .sink →
       (let t := checkAttic (afterMove (setObj (report u 0x0402 (o.creator % 2 ^ 24) 0 [crateId o, 1]) m.obj { o with state := .resident, dirty := true, raiseAfter := none })
          m.obj (ownersOf u m.obj))
        exec (.moveFailed id) s = fin t ∧ exec (.tierDeadlineExpiry id) s = fin t)))) ∧
  (∀ (s : State) (remote : Bool) (n : Nat), serving s →
    exec (.faultyTargetExpiry remote n) s = .next (keepFixed s (settleAll
      (let u := cleared s
       { u with tier := { u.tier with targets := u.tier.targets.map fun t => if t.remote = remote && t.number = n then { t with faulty := false } else t } }))) ∧
    ((s.tier.targets.any fun t => t.remote = remote && t.number = n && !t.lost) = true →
      (let u := cleared s
       let v := { u with tier := { u.tier with targets := u.tier.targets.map fun t => if t.remote = remote && t.number = n then { t with lost := true } else t } }
       exec (.cellarTargetLost remote n) s = .next (keepFixed s (settleAll
         (noteCap (storeLost (report v 0x0406 (256 * b2n remote + n) 0 [b2n remote, n]) (256 * b2n (!remote) + n))))))))

/-- SPILL_COMPLETE of a descriptor being spilled makes it SPILLED, gives the free shelf to a session that waits, and
fetches it again where it is wanted. FETCH_COMPLETE of one being fetched puts it on a shelf if one is free and runs
what waited for it. SESSION_FREE of a RETIRING session homed here, with its chunks out, no command waiting for it, no
move of its objects running and no mirror message to it, forgets it and its selected sets, frees its serial and its
tracking entry and gives its shelf on. REGULATOR_REFILL refills every enabled bucket by its rate up to its burst and
starts what waited. TALLY_REPLENISH adds a thousandth of its rate, with the fraction carried over and up to its cap,
to every metered tally with a rate. HAT_TALLY_ADD of a tally below 4,096 subtracts down to 0, or adds a number other
than 0 and lets sessions that waited for it go. -/
def Obligations.ShelvesRegulatorsAndTallies : Prop :=
  (∀ (s : State) (h : Nat), serving s →
    (let fin (t : State) : Host.Outcome State Fault Refusal := .next (keepFixed s (settleAll t))
     let u := cleared s
     (placeOf s h = some .spilling →
       (let v := giveShelf (setPlace u h .spilled)
        let wanted : Bool := match sessOf v h with | some x => !x.waiting.isEmpty || x.cancelPending || inFlight v h | none => false
        exec (.spillComplete h) s = fin (checkSpill (if wanted then startFetch v h else v)))) ∧
     (placeOf s h = some .fetching → exec (.fetchComplete h) s = fin
       (if shelvesUsed s < shelves s then checkSpill (runWaiting (tryCancel (setPlace u h .shelf) h) h) else checkSpill u)) ∧
     (∀ x, sessOf s h = some x → x.guest = false → x.state = .retiring → sessMoving s x = false → s.mir.pinned.contains h = false → x.heldChunks = [] → x.waiting = [] →
       (let z := s.sess.serials
        exec (.sessionFree h) s = fin (giveShelf (freeTrack { u with
          sess := { u.sess with table := tdel u.sess.table (hKey h), serials := if hDev h = s.device then { z with freed := z.freed ++ [hSerial h] } else z }
          atn := { u.atn with selected := tfilter (fun k _ => k / 256 ≠ hKey h) u.atn.selected } } x)))))) ∧
  (∀ s : State, serving s →
    exec .regulatorRefill s = .next (keepFixed s (settleAll (retryFetches (checkSpill (nbuKick
      ((List.range s.lay.active.regulators.length).foldl (fun u i =>
        (let r := u.lay.active.regulators.getD i {}
         if r.rate = 0 then u else setBucket u (i / 3) (i % 3) (min (((r.burstKib * 1024 : Nat) : Int)) (bucketLevel u (i / 3) (i % 3) + (r.rate : Int))))) (cleared s))))))) ∧
    exec .tallyReplenish s = .next (keepFixed s (settleAll (((List.range 4096).filter fun i => fldAt s Reg.HAT_TALLY.rate [i] ≠ 0).foldl (fun u i =>
      (if tallyMetered u i = false then u
       else (let f := tget 0 u.hatch.fraction i + fldAt u Reg.HAT_TALLY.rate [i]
             let cap := fldAt u Reg.HAT_TALLY.cap [i]
             let b := tallyBalance u i
             let v := { u with hatch := { u.hatch with fraction := if f % 1000 = 0 then tdel u.hatch.fraction i else tset u.hatch.fraction i (f % 1000) } }
             if f / 1000 = 0 ∨ cap ≤ b then v else tallyRaised (tallyAdd v i (Nat.min (f / 1000) (cap - b))) i))) (cleared s))))) ∧
  (∀ (s : State) (i n : Nat), hostReaches s → i < 4096 → n < 2 ^ 48 →
    exec (.hatTallyAdd i n true) s = .next (keepFixed s (settleAll (setFldAt (written s) Reg.HAT_TALLY.balance [i] (tallyBalance (written s) i - n)))) ∧
    (n ≠ 0 → exec (.hatTallyAdd i n false) s = .next (keepFixed s (settleAll (tallyRaised (tallyAdd (written s) i n) i)))))

/-- LAY_LOAD and LAY_PROGRAM_SLOT with the host's port in reach, for any bytes in the staging window: while an operation
runs they only set overrun. Otherwise busy and copied are set and the image checked; one that fails is refused with
its status, reason and section in LAY_STATUS and LAYOUT_REFUSED. A load that also passes the late checks is applied at
once; a FAST one pauses steps and is applied when none is left unsealed. A slot write puts the image into the slot
that is not active, marks it valid, posts LAYOUT_LOADED and answers OK. FAST_RECOMP_QUIESCE_EXPIRY during a fast
recomposition kills the steps still unsealed, or runs them again, and applies the image, after which what was held
goes on. MICROPROG_RELOAD_DONE of an awaited idle stack gives the stack its new store; after the last one the reload's
activity ends, the later sections are applied and the load is complete. -/
def Obligations.LayoutLoadsAndReloads : Prop :=
  (∀ (s : State) (img : List Nat), hostReaches s →
    (let fin (t : State) : Host.Outcome State Fault Refusal := .next (keepFixed s (settleWhole t))
     let at_ (op : Nat) := setFld (written s) Reg.LAY_CTRL.op op
     let v (op : Nat) := setFld (setFld (at_ op) Reg.LAY_STATUS.busy 1) Reg.LAY_STATUS.copied 1
     let refuse (t : State) (serial : Nat) (e : ImgBad) : State :=
       layStatus (report t 0x0202 serial 0 [serial, (reasonStatus e.reason).code, e.reason]) (reasonStatus e.reason) e.reason e.sect
     (fld (at_ 1) Reg.LAY_STATUS.busy = 1 → exec (.layLoad img) s = fin (setFld (at_ 1) Reg.LAY_STATUS.overrun 1)) ∧
     (fld (at_ 2) Reg.LAY_STATUS.busy = 1 → exec (.layProgramSlot img) s = fin (setFld (at_ 2) Reg.LAY_STATUS.overrun 1)) ∧
     (fld (at_ 1) Reg.LAY_STATUS.busy ≠ 1 → exec (.layLoad img) s = fin
       (match stagedRead (v 1) img with
        | .error e => refuse (v 1) (leAt img 20 4) e
        | .ok i => match lateBad (v 1) i with
          | some r => refuse (v 1) i.serial ⟨r, 0⟩
          | none =>
            (let p := { v 1 with lay := { (v 1).lay with fast := some { image := i } }, steps := { (v 1).steps with paused := true } }
             if bitOf i.flags 1 then (if (unsealedSteps p).isEmpty then fastApply p else p) else applyImage (v 1) i))) ∧
     (fld (at_ 2) Reg.LAY_STATUS.busy ≠ 1 → exec (.layProgramSlot img) s = fin
       (match stagedRead (v 2) img with
        | .error e => refuse (v 2) (leAt img 20 4) e
        | .ok i =>
          (let toB := decide (fld (v 2) Reg.LAY_SPI.active_slot = 0)
           let p := { v 2 with lay := if toB then { (v 2).lay with slotB := some i } else { (v 2).lay with slotA := some i } }
           let q := setFld p Reg.LAY_SPI.slot_valid (putBit (fld p Reg.LAY_SPI.slot_valid) (b2n toB) true)
           layStatus (report q 0x0201 i.serial 0 [i.serial, 0, 0]) .ok 0 0))))) ∧
  (∀ (s : State) (f : FastRecomp), serving s → s.lay.fast = some f →
    (let k := (unsealedSteps (cleared s)).foldl (fun s ref => match partOf s ref with
       | some p => if isHome s p then homeAbort s ref .preempted 0 (!p.noRerun) else killPart s ref .preempted 0
       | none => s) (cleared s)
     k.lay.fast = some f →
     exec .fastRecompQuiesceExpiry s = .next (keepFixed s (settleWhole
       (resumeAll (applyImage { k with lay := { k.lay with fast := none } } f.image) f.descs))))) ∧
  (∀ (s : State) (k : Nat) (i : Image), serving s → s.lay.tail = some i → stackIdle s k = true → (s.lay.reloads.any fun r => r.left.contains k) = true →
    (let u := takeStore (cleared s) i k
     let rs := (u.lay.reloads.map fun r => { r with left := r.left.filter (· ≠ k) }).filter fun r => !r.left.isEmpty
     let v := { u with lay := { u.lay with reloads := rs } }
     let w := { v with lay := { v.lay with tail := none } }
     exec (.microprogReloadDone k) s = .next (keepFixed s (settleWhole
       (if rs.isEmpty then nbuKick (applyLast (match w.maint.running.find? (·.no = 8) with | some a => endActivity w 8 a.scope | none => w) i) else nbuKick v)))))

/-- A maintenance request of the host, MNT_ATTIC_SCRUB, MNT_SPARE_IN, MNT_LINK_RETRAIN or MNT_NVME_FW_ACTIVATE, stores
activity, target and firmware slot; with no request busy and its unit there it is started, MNT_STATUS busy with code
0, unless a running activity conflicts: then code 0x0B with its number and MAINT_REFUSED; a unit that is absent gives
code 0x01. PERIODIC_SCRUB of a stack that is there starts or waits, once. MAINT_ACTIVITY_DONE of a running activity 1,
2, 4 or 9 ends it, clears busy where it was a request, and lets waiting ones start. WARN_INTERVAL_END of warnings 0 to
3 raises one for each unit at its threshold, its bit, count and event, or with none clears the bit; that of warning 4
starts the droop count again and clears its bit below the threshold. -/
def Obligations.MaintenanceAndWarnings : Prop :=
  (∀ (s : State) (c : Instr) (no target fw : Nat), hostReaches s →
    (c = .mntAtticScrub target ∧ no = 1 ∧ fw = fld (written s) Reg.MNT_REQ.fw_slot) ∨ (c = .mntSpareIn target ∧ no = 2 ∧ fw = fld (written s) Reg.MNT_REQ.fw_slot) ∨
      (c = .mntLinkRetrain target ∧ no = 4 ∧ fw = fld (written s) Reg.MNT_REQ.fw_slot) ∨ (c = .mntNvmeFwActivate target fw ∧ no = 9) →
    (let u := setFld (setFld (setFld (written s) Reg.MNT_REQ.activity no) Reg.MNT_REQ.target target) Reg.MNT_REQ.fw_slot fw
     let t := fld u Reg.MNT_REQ.target
     let a : Activity := { no := no, scope := requestScope no t, host := true, target := t, fw := fld u Reg.MNT_REQ.fw_slot }
     fld u Reg.MNT_STATUS.busy ≠ 1 →
       (requestUnit u no t = false → exec c s = .next (keepFixed s (setFld (setFld u Reg.MNT_STATUS.code 0x01) Reg.MNT_STATUS.conflict 0))) ∧
       (∀ n, requestUnit u no t = true → conflictWith u a = some n →
         exec c s = .next (keepFixed s (setFld (setFld (report u 0x160E no 0 [no, n]) Reg.MNT_STATUS.code 0x0B) Reg.MNT_STATUS.conflict n))) ∧
       (requestUnit u no t = true → conflictWith u a = none →
         exec c s = .next (keepFixed s (setFld (setFld (setFld (startActivity u a) Reg.MNT_STATUS.busy 1) Reg.MNT_STATUS.code 0) Reg.MNT_STATUS.conflict 0))))) ∧
  (∀ (s : State) (k : Nat), serving s → requestUnit s 1 k = true →
    (let a : Activity := { no := 1, scope := [scStack k], target := k }
     let u := cleared s
     exec (.periodicScrub k) s = .next (keepFixed s
       (if s.maint.waiting.contains a || s.maint.running.contains a then u
        else if (conflictWith u a).isSome then { u with maint := { u.maint with waiting := u.maint.waiting ++ [a] } } else startActivity u a)))) ∧
  (∀ (s : State) (no target : Nat) (a : Activity), serving s → [1, 2, 4, 9].contains no = true → (s.maint.running.find? fun a => a.no = no && a.scope = requestScope no target) = some a →
    (let u := cleared s
     let v := activityEnds { u with maint := { u.maint with running := u.maint.running.erase a } } a
     let w := if a.host then setFld v Reg.MNT_STATUS.busy 0 else v
     exec (.maintActivityDone no target) s = .next (keepFixed s (startWaiting w.maint.waiting.length w)))) ∧
  (∀ (s : State) (k : Nat) (counts : List (Nat × Nat × Nat)), serving s →
    (let u := cleared s
     (k < 4 → exec (.warnIntervalEnd k counts) s = .next (keepFixed s
       (if (counts.filter fun c => warnCrossed u k c.2.1 c.2.2).isEmpty then setFld u Reg.MNT_WARN_STATE.active (putBit (fld u Reg.MNT_WARN_STATE.active) k false)
        else (counts.filter fun c => warnCrossed u k c.2.1 c.2.2).foldl (fun s c =>
          (let v := setFld s Reg.MNT_WARN_STATE.active (putBit (fld s Reg.MNT_WARN_STATE.active) k true)
           warnAction (report (bump v Reg.MNT_WARN_STATE.raised) (warnEvent k) c.1 0 [c.1, c.2.1]) k c.1)) u))) ∧
     (let v := { u with maint := { u.maint with droops := 0 } }
      exec (.warnIntervalEnd 4 counts) s = .next (keepFixed s
        (if fld s Reg.MNT_WARN_CFG.droop ≤ s.maint.droops then v else setFld v Reg.MNT_WARN_STATE.active (putBit (fld v Reg.MNT_WARN_STATE.active) 4 false))))))

/-- With the host's port in reach. A write not of 4 or 8 aligned bytes within a register that exists, and a read not of 1,
2, 4 or 8, counts as a bad access with its offset and does nothing else; the read gives 0. A write to an absent unit
has no effect. Other writes have the effect of an NBU command area, or that of the register's block, which in blocks
05, 0A and 18 is plain: an RW field stores a value in its range, a W1C field clears by 1, the rest ignore it. A read
gives the register's whole value, 8 bytes, or its part; one of 4 bytes at the low half keeps the high half in the
shadow, one of the high half then gives that; every other access drops the shadow. TOP_SNAP_FREEZE of a block with
read-only fields keeps their values and the time; TOP_SNAP_RELEASE drops them. HAT_HIST_SNAP copies the selected
histogram to HAT_HIST, HAT_HIST_CLEAR then clears it; HAT_TRK_SEL_WRITE copies the session's tracking entry, or zeros;
SEC_MEAS_SNAP copies a measurement. -/
def Obligations.RegisterAccessesAndSnapshots : Prop :=
  (∀ (s : State) (w : RegWrite), hostReaches s →
    (let fin (t : State) : Host.Outcome State Fault Refusal := .next (keepFixed s (settleHost t))
     let u := written s
     let ok := (w.size = 4 ∨ w.size = 8) ∧ w.off % w.size = 0 ∧ registerAt (w.off / 8 * 8) = true
     (¬ ok → exec (.registerWrite w) s = fin (badAccess u w.off false true)) ∧
     (ok → unitAt s.part w.off = false → exec (.registerWrite w) s = fin u) ∧
     (ok → unitAt s.part w.off = true → inCommandArea (w.off / 8 * 8) = true → exec (.registerWrite w) s = fin (cmdAreaWrite u w)) ∧
     (ok → unitAt s.part w.off = true → inCommandArea (w.off / 8 * 8) = false → exec (.registerWrite w) s = fin (blockWrite u w)) ∧
     (ok → unitAt s.part w.off = true → inCommandArea (w.off / 8 * 8) = false → [0x05, 0x0A, 0x18].contains (w.off / 2 ^ 20) = true → exec (.registerWrite w) s = fin
       ((fieldsAt (w.off / 8 * 8)).foldl (fun t x => putField w x.2 t x.1) u)))) ∧
  (∀ (s : State) (off size : Nat), hostReaches s →
    (let u := written s
     let base := off / 8 * 8
     let v := readReg u base
     let good := List.contains [1, 2, 4, 8] size = true ∧ off % size = 0 ∧ registerAt base = true
     (¬ good → exec (.bar0ReadLowHalf off size) s = .next (keepFixed s (emit (badAccess u off false false) (.read 0)))) ∧
     (good → size = 4 → off % 8 = 0 → exec (.bar0ReadLowHalf off size) s = .next (keepFixed s
       (emit { u with host := { u.host with shadow := some { off := base, high := v / 2 ^ 32 } } } (.read (v % 2 ^ 32))))) ∧
     (∀ h, good → size = 4 → off % 8 ≠ 0 → s.host.shadow = some h → h.off = base → exec (.bar0ReadLowHalf off size) s = .next (keepFixed s (emit u (.read h.high)))) ∧
     (good → size ≠ 4 → exec (.bar0ReadLowHalf off size) s = .next (keepFixed s (emit u (.read (bitsOf v (8 * (off % 8)) (8 * size))))))) ) ∧
  (∀ (s : State) (n m : Nat), hostReaches s →
    (let next (t : State) : Host.Outcome State Fault Refusal := .next (keepFixed s t)
     let u := setFld (written s) Reg.TOP_SNAP_CTL.block n
     let b := fld u Reg.TOP_SNAP_CTL.block
     (ownBlock b = true →
       (let v := setFld u Reg.TOP_SNAP_TIME.timebase s.timebase
        let w := { v with host := { v.host with frozen := some { block := b, values := [] } } }
        exec (.topSnapFreeze n) s = next { w with host := { w.host with frozen := some { block := b, values := ((regFields.filter fun f => f.ty = .ro && blockOf f.addr = b).map (fieldValues w)).flatten } } })) ∧
     (ownBlock b = false → exec (.topSnapFreeze n) s = next u) ∧
     exec (.topSnapRelease n) s = next { u with host := { u.host with frozen := none } } ∧
     (let x := setFld (setFld (written s) Reg.HAT_HIST_SEL.cls n) Reg.HAT_HIST_SEL.metric m
      let k := fld x Reg.HAT_HIST_SEL.cls * 4 + fld x Reg.HAT_HIST_SEL.metric
      let y := (List.range 16).foldl (fun t w => setFldAt (setFldAt t Reg.HAT_HIST.bucket0 [w] (tget 0 (tget [] s.hatch.hist k) (2 * w))) Reg.HAT_HIST.bucket1 [w] (tget 0 (tget [] s.hatch.hist k) (2 * w + 1))) x
      exec (.hatHistSnap n m) s = next y ∧
      exec (.hatHistClear n m) s = next { y with hatch := { y.hatch with hist := tdel y.hatch.hist (fld y Reg.HAT_HIST_SEL.cls * 4 + fld y Reg.HAT_HIST_SEL.metric) } }) ∧
     (let x := setFld (written s) Reg.HAT_TRK_SEL.handle n
      let t : Track := ((tvals x.hatch.track).find? fun t => t.handle = fld x Reg.HAT_TRK_SEL.handle).getD { handle := 0 }
      let y := [(Reg.HAT_TRK.handle, t.handle), (Reg.HAT_TRK.ttft_ns, t.ttftNs), (Reg.HAT_TRK.tokens, t.tokens), (Reg.HAT_TRK.outside, t.outside),
        (Reg.HAT_TRK.tbt_sum_ns, t.tbtSum), (Reg.HAT_TRK.tbt_max_ns, t.tbtMax), (Reg.HAT_TRK.res_max_ns, t.resMax)].foldl (fun s p => setFld s p.1 p.2) x
      exec (.hatTrkSelWrite n) s = next (trkBuckets.zipIdx.foldl (fun s p => setFld s p.1 (tget 0 t.buckets p.2)) y)) ∧
     (let x := setFld (written s) Reg.SEC_MEAS_SEL.index n
      exec (.secMeasSnap n) s = next ((List.range 6).foldl (fun t w => setFldAt t Reg.SEC_MEAS.value [w] (leAt (measurement x (fld x Reg.SEC_MEAS_SEL.index)) (8 * w) 8)) x))))

/-- In a live block. SET_DOMAIN_KEY, SET_LINK_KEY, SET_TRUNK_KEY and CLEAR_KEY outside a set-up SPDM session answer
PROTECTION; inside one, an index or value outside its range (a trunk scalar outside 1 to n - 1) answers
VERSION_MISMATCH (the model's choice), and else the key is stored or erased, KEY_CHANGED is posted, the security
state's measurement counts as changed, and the answer is OK. ENROLL_SLOT k is taken for k from 1 to 3, not enrolled
before, signed by slot 0 for slot 1 or by a live lower slot; REVOKE_SLOT k for k from 1 to 3, not revoked before,
signed by another live slot; each posts its event and answers OK; anything else answers PROTECTION and changes
nothing. With the host's port in reach LOCKDOWN stores meas_evt and trunk_index as covered and, where it sets the bit,
starts lockdown: the bit, host jobs and dense commands off, privileged debug closed, the parts with slots in staging
kept to wait for; where it was set already nothing more happens. SEC_ISLAND_RESYNC brings a reset security island back
and posts its event, else nothing. -/
def Obligations.KeyProvisioningAndLockdown : Prop :=
  (∀ (s : State) (n : Option Nat) (i d b : Nat) (key : List Nat), live s →
    (let fin (t : State) : Host.Outcome State Fault Refusal := .next (keepFixed s t)
     let u := cleared s
     let ans (op : Nat) (st : Status) := fin (emit u (.spdm n (.vendor op st)))
     let done (op k : Nat) (f : SecUnit → SecUnit) := fin (emit (measChanged (report { u with sec := f u.sec } 0x1701 k 0 [op, k]) 27) (.spdm n (.vendor op .ok)))
     (secureSession s n = false → exec (.setDomainKey n i key) s = ans 1 .protection ∧ exec (.setLinkKey n i key) s = ans 2 .protection ∧
       exec (.setTrunkKey n i d) s = ans 3 .protection ∧ exec (.clearKey n b) s = ans 4 .protection) ∧
     (secureSession s n = true →
       (exec (.setDomainKey n i key) s = if i ≤ 1 ∧ key.length = 32 then done 1 i fun x => { x with dk := tset x.dk i (key.map (· % 256)) } else ans 1 .versionMismatch) ∧
       (exec (.setLinkKey n i key) s = if i ≤ 3 ∧ key.length = 32 then done 2 i fun x => { x with lmk := tset x.lmk i (key.map (· % 256)) } else ans 2 .versionMismatch) ∧
       (exec (.setTrunkKey n i d) s = if i ≤ 3 ∧ 1 ≤ d ∧ d < n384 then done 3 i fun x => { x with trunk := tset x.trunk i d } else ans 3 .versionMismatch) ∧
       (exec (.clearKey n b) s = if bitsOf b 6 2 ≤ 2 ∧ bitsOf b 2 4 = 0 ∧ (bitsOf b 6 2 = 0 → bitsOf b 0 2 ≤ 1)
         then done 4 (b % 256) fun x => clearKey x (bitsOf b 6 2) (bitsOf b 0 2) else ans 4 .versionMismatch)))) ∧
  (∀ (s : State) (n : Option Nat) (k x y a r t : Nat), live s →
    (let fin (t : State) : Host.Outcome State Fault Refusal := .next (keepFixed s t)
     let u := cleared s
     let no (op : Nat) := fin (vendorAnswer u n op .protection)
     let m1 := "SYEN".toList.map (·.toNat) ++ [k % 256] ++ beBytes 48 x ++ beBytes 48 y
     let m2 := "SYRV".toList.map (·.toNat) ++ [k % 256]
     exec (.enrollSlot n k x y a r t) s =
       (if 1 ≤ k ∧ k ≤ 3 ∧ tget? s.sec.slots k = none ∧ (k = 1 → a = 0) ∧ (k ≠ 1 → a < k ∧ slotLive s a = true) ∧ slotSigned s a m1 r t = true
        then fin (keyChanged (report { u with sec := { u.sec with slots := tset u.sec.slots k (x, y) } } 0x1705 k 0 [k]) n 5 k) else no 5) ∧
     exec (.revokeSlot n k a r t) s =
       (if 1 ≤ k ∧ k ≤ 3 ∧ ¬ k ∈ s.sec.revoked ∧ a ≠ k ∧ slotLive s a = true ∧ slotSigned s a m2 r t = true
        then fin (keyChanged (report { u with sec := { u.sec with revoked := insertBy (fun a b => decide (a < b)) k u.sec.revoked } } 0x1706 k 0 [k]) n 6 k) else no 6))) ∧
  (∀ (s : State) (w : RegWrite), hostReaches s →
    (let v := storeFields (written s) w [] [Reg.SEC_CFG.meas_evt, Reg.SEC_CFG.trunk_index]
     let x := setFld (setFld (setFld v Reg.SEC_CFG.lockdown 1) Reg.NBU_CTL.host_jobs 0) Reg.DEN_CFG.host_cmds 0
     let y := revokeDebug x
     let wait := ((x.steps.parts.filter fun p => p.entries.any fun e => decide (0 < e.ownKib + e.sharedKib)).map (·.stepRef)).filter Config.inStaging
     exec (.lockdown w) s = .next (keepFixed s (settleAll
       (if wget w Reg.SEC_CFG.lockdown = some 1 ∧ flag v Reg.SEC_CFG.lockdown = false then lockSettle { y with sec := { y.sec with lockWait := some wait } } else v))))) ∧
  (∀ (s : State) (half : Nat), live s → half < 2 →
    exec (.secIslandResync half) s = .next (keepFixed s
      (if 20 + half ∈ s.clk.inReset
        then report { cleared s with clk := { s.clk with inReset := s.clk.inReset.filter (· ≠ 20 + half) } } 0x1707 half 0 [half] else cleared s)))

/-- In a live block. GET_VERSION starts afresh, ending sessions (the model's choice after DSP0274), and gives 1.2 and 1.3.
GET_CAPABILITIES with one of them, after GET_VERSION, agrees on it; NEGOTIATE_ALGORITHMS after that agrees where ECDSA
P-384, SHA-384, secp384r1 and AES-256-GCM are offered. Before an agreement every later request is answered by an
error. After it GET_DIGESTS gives the digest of the chain of slot 0; GET_CERTIFICATE its bytes from an offset and how
many remain; CHALLENGE the digest, the measurement summary and a fresh nonce; GET_MEASUREMENTS the number 27, one
block or all, each from this state, and a fresh nonce; KEY_EXCHANGE opens a session, at most four. FINISH sets an open
session up where its code verifies and else ends it. Within a set-up session the heartbeat and key updates 1 to 3 are
answered, END_SESSION ends it; any of these outside one is an error. The error numbers are the model's (log). -/
def Obligations.SpdmRequests : Prop :=
  ∀ (s : State) (n : Option Nat) (a b c : Nat) (e h d g good signed : Bool), live s →
    (let fin (t : State) : Host.Outcome State Fault Refusal := .next (keepFixed s t)
     let u := cleared s
     let p := s.sec.spdm
     let err (m : Option Nat) (code : Nat) := fin (emit u (.spdm m (.error code)))
     let draw (t : State) : State := { t with link := { t.link with entropy := t.link.entropy + 1 } }
     let nonce := Config.fresh s.link.entropy % 2 ^ 256
     exec .getVersion s = fin (emit (modSpdm u fun p => { p with asked := true, version := none, algorithms := false, sessions := [] }) (.spdm none (.version [0x1200, 0x1300]))) ∧
     exec (.getCapabilities a) s = (if p.asked = false then err none spdmUnexpected else if a ≠ 0x12 ∧ a ≠ 0x13 then err none spdmVersion
       else fin (emit (modSpdm u fun p => { p with version := some a, algorithms := false }) (.spdm none (.capabilities a)))) ∧
     exec (.negotiateAlgorithms e h d g) s = (if p.version = none then err none spdmUnexpected else if e && h && d && g
       then fin (emit (modSpdm u fun p => { p with algorithms := true }) (.spdm none .algorithms)) else err none spdmInvalid) ∧
     (p.algorithms = false →
       exec (.getDigests n) s = err n spdmUnexpected ∧ exec (.getCertificate n a b c) s = err n spdmUnexpected ∧ exec (.challenge n a b) s = err n spdmUnexpected ∧
       exec (.getMeasurements n a signed) s = err n spdmUnexpected ∧ exec (.keyExchange a b) s = err none spdmUnexpected ∧ exec (.finish a good) s = err (some a) spdmUnexpected ∧
       exec (.spdmHeartbeat a) s = err (some a) spdmUnexpected ∧ exec (.keyUpdate a b c) s = err (some a) spdmUnexpected ∧ exec (.endSession a) s = err (some a) spdmUnexpected) ∧
     (p.algorithms = true →
       exec (.getDigests n) s = fin (emit u (.spdm n (.digests 0 chainHash))) ∧
       exec (.getCertificate n a b c) s = (if a ≠ 0 ∨ Config.certChain.length ≤ b then err n spdmInvalid else
         fin (emit u (.spdm n (.certificate 0 ((Config.certChain.drop b).take c) (Config.certChain.length - b - ((Config.certChain.drop b).take c).length))))) ∧
       exec (.challenge n a b) s = (if a = 0 ∧ summaryOk b = true
         then fin (emit (draw u) (.spdm n (.challengeAuth 0 chainHash (measSummary (draw u) b) nonce))) else err n spdmInvalid) ∧
       exec (.getMeasurements n a signed) s = (if 27 < a ∧ a ≠ 0xFF then err n spdmInvalid else
         (let l := if a = 0 then [] else if a = 0xFF then (List.range 27).map (· + 1) else [a]
          fin (emit (draw u) (.spdm n (.measurements (if a = 0 then 27 else l.length) (l.map (measBlock (draw u))) signed nonce))))) ∧
       exec (.keyExchange a b) s = (if ¬ (a = 0 ∧ summaryOk b = true) then err none spdmInvalid else if 4 ≤ p.sessions.length then err none spdmLimit else
         (let v := modSpdm u fun p => { p with sessions := p.sessions ++ [{ id := p.nextId }], nextId := p.nextId + 1 }
          fin (emit v (.spdm none (.keyExchange p.nextId (measSummary v b)))))) ∧
       (p.sessions.find? (·.id = a) = none → exec (.finish a good) s = err (some a) spdmNoSession) ∧
       (∀ x, p.sessions.find? (·.id = a) = some x → exec (.finish a good) s = (if x.secure then err (some a) spdmUnexpected
         else if good then fin (emit (modSpdm u fun p => { p with sessions := p.sessions.map fun y => if y.id = a then { y with secure := true } else y }) (.spdm (some a) .finish))
         else fin (emit (dropSession u a) (.spdm (some a) (.error spdmDecrypt))))) ∧
       (secureSession s (some a) = false → exec (.spdmHeartbeat a) s = err (some a) spdmNoSession ∧ exec (.keyUpdate a b c) s = err (some a) spdmNoSession ∧
         exec (.endSession a) s = err (some a) spdmNoSession) ∧
       (secureSession s (some a) = true → exec (.spdmHeartbeat a) s = fin (emit u (.spdm (some a) .heartbeat)) ∧
         exec (.keyUpdate a b c) s = (if 1 ≤ b ∧ b ≤ 3 then fin (emit u (.spdm (some a) (.keyUpdate b c))) else err (some a) spdmInvalid) ∧
         exec (.endSession a) s = fin (emit (dropSession u a) (.spdm (some a) .endSession)))))

/-- With PWR_OK off and MFG_MODE low, PWR_OK_RISE takes the device number and the levels of SYS_RST_N and PERST_N; with
the thermal trip still asserted nothing starts, with SYS_RST_N low the start is held, and else the block starts cold
with cause 1. CLK_RESET_COLD with key 0xC5 from a reachable host starts cold with cause 2, or is held while SYS_RST_N
is low; with another key it does nothing. SYS_RST_N_RISE in a held block starts it with the cause held. A cold start
keeps what lies in flash, fuses and straps alone, counts the start, renews the device storage key, lets every island
out, and boots the image of flash or the built-in one to full service, recording kind, cause and times and posting
START_DONE; where the firmware in flash fails it stops in boot ROM. PERST_N_ASSERT in a powered block puts the host
port in reset and drops the shadow; PERST_N_DEASSERT of a running block ends that where nothing else holds it: its
ready time is recorded, held completions and waiting events go out, rings are read on. -/
def Obligations.ColdStartsFromPowerAndCommand : Prop :=
  (let boots (b : State) (cause : Nat) : State :=
     (let u := islandsUp (bare b)
      let t : State := { u with sec := { u.sec with dsk := u.sec.dsk + 1 }, clk := { u.clk with cause := cause } }
      if b.lay.firmwareOk then fullService (readyFields (loadBoot t (flashImage t) true) 0 cause 0 0) else romOnly (startFields t 0 cause 0 0))
   let holds (b : State) (cause : Nat) : State := { bare b with clk := { (bare b).clk with phase := .held, cause := cause } }
   (∀ (s : State) (devid : Nat) (rst perst : Bool), s.clk.phase = .off →
     (let p := setPins (cleared s) fun x => { x with pwrOk := true, devid := devid % 2 ^ 11, sysRstN := rst, perstN := perst }
      exec (.pwrOkRise devid rst perst false) s = .next (keepFixed s
        (if s.clk.pins.thermTripN = false then { p with clk := { p.clk with phase := .tripped } } else if rst then boots p 1 else holds p 1)))) ∧
   (∀ (s : State) (key : Nat), hostReaches s → exec (.clkResetCold key) s = .next (keepFixed s
     (if key = 0xC5 then (if s.clk.pins.sysRstN then boots (written s) 2 else holds (written s) 2) else written s))) ∧
   (∀ s : State, s.clk.phase = .held → exec .sysRstNRise s = .next (keepFixed s (boots (setPins (cleared s) fun p => { p with sysRstN := true }) s.clk.cause))) ∧
   (∀ s : State, s.clk.phase ≠ .off →
     (let p := setPins (cleared s) fun x => { x with perstN := false }
      exec .perstNAssert s = .next (keepFixed s { p with host := { p.host with inReset := true, shadow := none } }))) ∧
   (∀ s : State, s.clk.phase ≠ .off → ¬ live s → exec .perstNDeassert s = .next (keepFixed s (setPins (cleared s) fun x => { x with perstN := true }))) ∧
   (∀ s : State, live s →
     (let p := setPins (cleared s) fun x => { x with perstN := true }
      let q := setFld { p with host := { p.host with inReset := false } } Reg.CLK_READY.pcie (Config.readyTime s.startCount 0)
      let r := (tkeys q.host.rings).foldl (fun t n => if (ringOf t n).fault then t else readEntries (releaseHeld (ringOf t n).held (setRing t n { ringOf t n with held := [] })) n) q
      exec .perstNDeassert s = .next (keepFixed s
        (if s.host.inReset = true ∧ ¬ 17 ∈ s.clk.inReset ∧ s.clk.pcieDown = false then flushEvents ((tkeys r.host.orings).foldl drainRing r) else p)))))

/-- A warm trigger (SYS_RST_N_FALL, cause 5; CLK_RESET_WARM with key 0xC5 from a reachable host, 6;
FIRMWARE_WATCHDOG_EXPIRY, 7) in a live block kills the steps in silence and begins the save, or begins it again; with
the save done, or in the boot, it leaves a record of its cause and the boot begins again; another key does nothing.
While saving, WARM_SAVE_COMPLETE ends every step part, keeps the record and the save's length, and releases reset once
SYS_RST_N is high; WARM_SAVE_TIMEOUT gives the save up: a fallback with reason 1, when SYS_RST_N is high or at its
rise. SYS_RST_N_RISE with the save done releases reset. WARM_START in a released block stops in boot ROM where both
the firmware copy and flash fail, else falls back to a cold start with the lowest reason of R547 that holds and the
warm trigger's cause, else restores the record. Released reset starts the debug monitor anew. REJOIN_TIMEOUT in
service frees a session whose handover has had no answer, with its event, and counts an orphan; for others it does
nothing. -/
def Obligations.WarmSavesWarmStartsAndRejoin : Prop :=
  (let sav (b : State) (cause : Nat) : State :=
     (let k := silentKill b false
      { k with steps := { k.steps with paused := true }, clk := { k.clk with phase := .saving, warm := none, cause := cause } })
   let freed (b : State) : State := if b.clk.pins.sysRstN then { b with clk := { b.clk with phase := .warm }, dbg := {} } else b
   let low (s : State) : State := setPins (cleared s) fun p => { p with sysRstN := false }
   let high (s : State) : State := setPins (cleared s) fun p => { p with sysRstN := true }
   (∀ s : State, live s → exec .sysRstNFall s = .next (keepFixed s (sav (low s) 5)) ∧ exec .firmwareWatchdogExpiry s = .next (keepFixed s (sav (cleared s) 7))) ∧
   (∀ s : State, s.clk.phase = .saved ∨ s.clk.phase = .warm →
     exec .sysRstNFall s = .next (keepFixed s { low s with clk := { (low s).clk with phase := .saved, cause := 5 } }) ∧
     exec .firmwareWatchdogExpiry s = .next (keepFixed s { cleared s with clk := { s.clk with cause := 7 } })) ∧
   (∀ (s : State) (key : Nat), hostReaches s → exec (.clkResetWarm key) s = .next (keepFixed s (if key = 0xC5 then sav (written s) 6 else written s))) ∧
   (∀ (s : State) (us : Nat), s.clk.phase = .saving →
     (let k := silentKill (cleared s) true
      exec (.warmSaveComplete us) s = .next (keepFixed s
        (freed { k with clk := { k.clk with phase := .saved, warm := some { store := k.lay.active.store, done := true, saveUs := us } } })) ∧
      exec .warmSaveTimeout s = .next (keepFixed s (if s.clk.pins.sysRstN then coldBoot (cleared s) 2 s.clk.cause 1 else
        { cleared s with clk := { s.clk with phase := .saved, warm := some { store := s.lay.active.store, done := false, saveUs := 10000 } } })))) ∧
   (∀ (s : State) (w : WarmRec), s.clk.phase = .saved → s.clk.warm = some w → exec .sysRstNRise s = .next (keepFixed s
     (if w.done then { high s with clk := { (high s).clk with phase := .warm }, dbg := {} } else coldBoot (high s) 2 s.clk.cause 1))) ∧
   (∀ (s : State) (a b c d e : Bool), s.clk.phase = .warm →
     (let u := cleared s
      let i := retainedImage u e
      (e = false → s.lay.firmwareOk = false → exec (.warmStart a b c d e) s = .next (keepFixed s
        (romOnly (startFields { islandsUp (bare u) with clk := { (islandsUp (bare u)).clk with cause := s.clk.cause } } 1 s.clk.cause 0 0)))) ∧
      (∀ r, e = true ∨ s.lay.firmwareOk = true → fallbackReason u i a b c d = some r → exec (.warmStart a b c d e) s = .next (keepFixed s (coldBoot u 2 s.clk.cause r))) ∧
      (e = true ∨ s.lay.firmwareOk = true → fallbackReason u i a b c d = none →
        exec (.warmStart a b c d e) s = .next (keepFixed s (warmBoot u i ((s.clk.warm.map (·.saveUs)).getD 0)))))) ∧
   (∀ (s : State) (h : Nat), serving s → exec (.rejoinTimeout h) s = .next (keepFixed s (settleAll (if rejoining s h then rejoinLost (cleared s) h else cleared s)))))

/-- In service. ISLAND_RESET of an island that is in reset already, or of the management or timebase island, does nothing.
Another island goes into reset; where that leaves both security islands in reset the block starts cold with cause 3.
Else the step parts that had work in it are killed for the return, walks of a lost attic stack, tile commands of a
lost dense half, links of a lost bay, fetches of a lost store room and the host port end as their island's loss has
it, and each context whose commands had work in an island that holds none of their data is torn down. ISLAND_RETURN of
an island not in reset does nothing; a security island copies every key and posts its event; of another the parts that
its reset killed may run again, the host port goes on where it was the host island, and requests that wait for an
attic stack go on. -/
def Obligations.IslandResetsAndReturns : Prop :=
  ∀ (s : State) (i : Nat), serving s →
    (let fin (t : State) : Host.Outcome State Fault Refusal := .next (keepFixed s (settleAll t))
     let u := cleared s
     let down (l : List Nat) : State := { u with clk := { u.clk with inReset := l } }
     (22 ≤ i ∨ i ∈ s.clk.inReset → exec (.islandReset i) s = fin u) ∧
     (i < 22 → ¬ i ∈ s.clk.inReset →
       (let d := down (s.clk.inReset ++ [i])
        let k := killIn d i
        let b := i - 9
        let lost : State :=
          if i < 6 then walksFail { k with nbu := { k.nbu with threads := k.nbu.threads.map fun t => if t.1 / 4 / 1024 = i then (t.1, { t.2 with busy := false }) else t } }
          else if i = 6 ∨ i = 7 then
            (let gone := (tvals (k.den.running.filter fun t => tileHalf t.1 = i - 6)).filter (·.serve)
             { k with den := { k.den with
               running := k.den.running.filter fun t => tileHalf t.1 ≠ i - 6, serving := k.den.serving.filter fun v => !gone.any (·.work = v.id), hostCmd := k.den.hostCmd.filter fun c => tileHalf c.1 ≠ i - 6 } })
          else if 9 ≤ i ∧ i ≤ 14 then [2 * b, 2 * b + 1].foldl ethGoDown (((List.range 8).map (8 * b + ·)).foldl lnkGoDown k)
          else if i = 15 ∨ i = 16 then fetchesFail k
          else if i = 17 then { k with host := { k.host with inReset := true, shadow := none } }
          else k
        exec (.islandReset i) s = fin
          (if 20 ∈ d.clk.inReset ∧ 21 ∈ d.clk.inReset then coldStart d 3
           else (tornBy d i).eraseDups.foldl (fun t c => teardown t c { trigger := Config.islandTrigger, unit := i, code := 0 } none) lost))) ∧
     (¬ i ∈ s.clk.inReset → exec (.islandReturn i) s = fin u) ∧
     (i ∈ s.clk.inReset →
       (let d := down (s.clk.inReset.filter (· ≠ i))
        let e : State := { d with steps := { d.steps with parts := d.steps.parts.map fun p => if p.islandKilled = some i then { p with islandKilled := none } else p } }
        exec (.islandReturn i) s = fin
          (if i = 20 ∨ i = 21 then report d 0x1707 (i - 20) 0 [i - 20]
           else if i = 17 then hostReturns e else if i < 6 then nbuKick e else e))))

/-- In a live block. REFERENCE_MONITOR_WINDOW with OSC_MGMT good judges each listed reference, then each listed PLL, else
does nothing. OSC_MONITOR_WINDOW records its count; with OSC_MGMT good a count more than 25% from 250 fails it: its
PLLs lose their source, osc_lost is set and its loss is posted; failed, 64 windows in a row within 10% bring it back,
and another starts the row anew. In service PLL_UNLOCK_EXPIRY of a PLL that is out of tolerance resets its island and
posts the event, of PLL 22 or 23 triggers a warm start, and else does nothing. THERMAL_THROTTLE_TICK keeps the
readings and PROCHOT_N; at 100 °C, with PROCHOT_N low or where power requires it, a 100 µs tick lowers each throttled
PLL by a sixteenth of nominal down to its stop, and else a 1 ms tick with all at 98 °C or less raises each by one.
DROOP_EVENT keeps the rail's sample, counts the droop, and warns when the count reaches its setting. -/
def Obligations.ClockMonitorsThrottlesAndDroops : Prop :=
  (∀ (s : State) (refs plls : List Nat) (c : Nat), live s →
    (let fin (t : State) : Host.Outcome State Fault Refusal := .next (keepFixed s t)
     let u := cleared s
     (s.clk.oscOk = false → exec (.referenceMonitorWindow refs plls) s = fin u) ∧
     (s.clk.oscOk = true → exec (.referenceMonitorWindow refs plls) s = fin (settleAll
       (((plls.take 31).zipIdx).foldl (fun t c => pllWindow t c.2 c.1) (((refs.take 7).zipIdx).foldl (fun t c => refWindow t c.2 c.1) u)))) ∧
     (let v := setFld u Reg.CLK_MON.osc_count c
      let osc (ok : Bool) (n : Nat) : State := { v with clk := { v.clk with oscOk := ok, oscGood := n } }
      (s.clk.oscOk = true → 188 ≤ c → c ≤ 312 → exec (.oscMonitorWindow c) s = fin (settleAll v)) ∧
      (s.clk.oscOk = true → c < 188 ∨ 312 < c → exec (.oscMonitorWindow c) s = fin (settleAll
        (report (sourceLost (setFld (osc false 0) Reg.CLK_MON.osc_lost 1) oscSource) 0x0104 0 0 []))) ∧
      (s.clk.oscOk = false → c < 225 ∨ 275 < c → exec (.oscMonitorWindow c) s = fin (settleAll (osc false 0))) ∧
      (s.clk.oscOk = false → 225 ≤ c → c ≤ 275 → exec (.oscMonitorWindow c) s = fin (settleAll
        (if s.clk.oscGood < 63 then osc false (s.clk.oscGood + 1) else sourceBack (osc true 64) oscSource)))))) ∧
  (∀ (s : State) (n : Nat), serving s → n < 31 →
    exec (.pllUnlockExpiry n) s = .next (keepFixed s (settleAll
      (if (pllOf s n).unlocked = false then cleared s else if n = 22 ∨ n = 23 then warmTrigger (cleared s) 8
       else (let t := islandReset (cleared s) (pllIsland n)
             if t.clk.phase = .service then report t 0x0103 n 0 [n, pllIsland n] else t))))) ∧
  (∀ (s : State) (temps : List Nat) (prochot power up : Bool), live s →
    (let v := setPins { cleared s with clk := { s.clk with sensors := temps } } fun p => { p with prochotN := prochot }
     let move (down : Bool) : State := (throttleSet v).foldl (fun t n =>
       let k := tget 0 t.clk.throttle n
       let k' := if down then (if (if n < 6 then 400 else 800) < throttled t n (pllSet t n) then k + 1 else k) else k - 1
       { t with clk := { t.clk with throttle := if k' = 0 then tdel t.clk.throttle n else tset t.clk.throttle n k' } }) v
     let hot := 100 ≤ maxOf temps ∨ prochot = false ∨ power = true
     (hot → up = false → exec (.thermalThrottleTick temps prochot power up) s = .next (keepFixed s (move true))) ∧
     (¬ hot → up = true → maxOf temps ≤ 98 → exec (.thermalThrottleTick temps prochot power up) s = .next (keepFixed s (move false))) ∧
     (¬ (hot ∧ up = false) → ¬ (¬ hot ∧ up = true ∧ maxOf temps ≤ 98) → exec (.thermalThrottleTick temps prochot power up) s = .next (keepFixed s v)))) ∧
  (∀ (s : State) (rail mv : Nat), live s → rail < 9 →
    (let n := s.maint.droops + 1
     let v : State := { cleared s with clk := { s.clk with rails := tset s.clk.rails rail mv, droops := s.clk.droops + 1 }, maint := { s.maint with droops := n } }
     exec (.droopEvent rail mv) s = .next (keepFixed s (if n = fld s Reg.MNT_WARN_CFG.droop then raiseWarning v 4 rail n else v))))

/-- Where the monitor takes no input (no boot code runs, MON_CFG.enable is 0, or full Criti's core is halted) its lines
change nothing. Else the rate set before applies from the line on. help prints the commands of the form and mode; ver
the identity, the firmware version (0 in ROM) and the device; stat the start, ready times, layout serial, lockdown and
sticky bits; temp the hottest sensor and the maximum of each die and stack; rails each rail's last sample and the
droops; clk the fields of each reference and PLL; rd n registers from an offset, each as the host would read it, 0
where ROM Criti finds its island in reset, with n from 1 to 64, 1 if not named, and the offset aligned and in BAR0.
Full Criti alone has cap, link n (n below 48, present) and evt n (1 to 64, 16 if not named), which print the
capability registers, the link's status and errors, and the last records. A line printed is counted; a malformed or
unknown line is refused with VERSION_MISMATCH, an absent link with UNIT_ABSENT, and neither is counted. -/
def Obligations.CritiPrintingCommands : Prop :=
  (∀ (s : State) (a k : Nat) (n : Option Nat), critiTakes s = false →
    ∀ c ∈ [Instr.critiHelp, .critiVer, .critiStat, .critiCap, .critiTemp, .critiRails, .critiClk, .critiLink k, .critiEvt n, .critiRd a n, .critiBaud k, .critiExit, .critiBadLine],
      exec c s = .next (cleared s)) ∧
  (∀ (s : State) (a k : Nat) (n : Option Nat), critiTakes s = true →
    (let fin (t : State) : Host.Outcome State Fault Refusal := .next (keepFixed s t)
     let u : State := { cleared s with dbg := { s.dbg with baud := fld s Reg.MON_CFG.baud } }
     let err (st : Status) := fin (emit u (.criti [] [] st))
     let print (names : List String) (values : List Nat) := fin (critiCount (emit u (.criti names values .ok)))
     exec .critiHelp s = print (critiCommands u) [] ∧
     exec .critiVer s = print [] (fieldList u [] [Reg.TOP_ID.pci_device, Reg.TOP_ID.pci_vendor, Reg.TOP_ID.part, Reg.TOP_ID.stepping] ++
       [if romForm s then 0 else readField u Reg.TOP_FW.version []] ++ fieldList u [] [Reg.TOP_FW.svn, Reg.TOP_DEVICE.device, Reg.TOP_DEVICE.start_count]) ∧
     exec .critiStat s = print [] (fieldList u [] [Reg.CLK_START.kind, Reg.CLK_START.cause, Reg.CLK_START.fallback, Reg.CLK_START.start_count, Reg.CLK_START.save_us,
       Reg.CLK_START.orphans, Reg.CLK_READY.attic_links, Reg.CLK_READY.store, Reg.CLK_READY.full, Reg.CLK_READY.pcie, Reg.LAY_ACTIVE.serial,
       Reg.SEC_STATE.lockdown, Reg.SEC_STATE.sticky]) ∧
     exec .critiTemp s = print [] (maxOf s.clk.sensors :: ([0, 1] ++ (partStacks s.part).map (2 + ·)).map (hottestAt s)) ∧
     exec .critiRails s = print railNames ((railNominal.zipIdx.map fun x => tget x.1 s.clk.rails x.2) ++ [s.clk.droops]) ∧
     exec .critiClk s = print [] (((List.range 7).map fun r => fieldList u [r] [Reg.CLK_REF.stable, Reg.CLK_REF.lost, Reg.CLK_REF.count, Reg.CLK_REF.ppm]).flatten ++
       ((List.range 31).map fun p => fieldList u [p] [Reg.CLK_PLL.set_mhz, Reg.CLK_PLL.state, Reg.CLK_PLL.clk_loss, Reg.CLK_PLL.clk_unlock,
         Reg.CLK_PLL.coast_mhz, Reg.CLK_PLL.measured_mhz, Reg.CLK_PLL.relocks]).flatten) ∧
     exec (.critiRd a n) s = (if 1 ≤ n.getD 1 ∧ n.getD 1 ≤ 64 ∧ a % 8 = 0 ∧ a < 2 ^ 26
       then print [] ((List.range (n.getD 1)).map fun i => [a + 8 * i, debugRead u (a + 8 * i)]).flatten else err .versionMismatch) ∧
     exec .critiBadLine s = err .versionMismatch ∧
     (romForm s = true → exec .critiCap s = err .versionMismatch ∧ exec (.critiLink k) s = err .versionMismatch ∧ exec (.critiEvt n) s = err .versionMismatch) ∧
     (romForm s = false →
       exec .critiCap s = print [] ([0x10, 0x20, 0x28, 0x30, 0x38, 0x40, 0x48, 0x50].map (readReg u)) ∧
       exec (.critiLink k) s = (if 48 ≤ k then err .versionMismatch else if portPresent s.part k = false then err .unitAbsent else
         print [] [readReg u (0x1000000 + 0x10000 * k + Reg.LNK_STATUS.state.addr % 0x10000), readReg u (0x1000000 + 0x10000 * k + Reg.LNK_ERR.crc.addr % 0x10000)]) ∧
       exec (.critiEvt n) s = (if 1 ≤ n.getD 16 ∧ n.getD 16 ≤ 64 then print [] ((s.events.recent.drop (s.events.recent.length - n.getD 16)).map
         fun e => [e.code, e.cls, e.count, e.first, e.last, e.source]).flatten else err .versionMismatch))))

/-- Where the monitor takes its lines. baud with one of the three rates sets it for the next line, else is refused as
malformed. exit leaves privileged mode. auth with fields in range prints PROTECTION while the delay after failures
runs; else it draws a challenge of a fresh nonce, TOP_ID, start count and device and judges the answer: level 2 under
lockdown is refused with PROTECTION and changes nothing more; a level 1 or 2 signed by a live slot over the challenge
is taken, clears the interface's failures and, at level 2, enters privileged mode with its sticky bit, count and
event; any other answer fails: PROTECTION, the challenge dropped, the failure counted and posted, and no new challenge
for 1 s doubled with each failure in a row up to 64 s. wr with an aligned offset in BAR0 and a 64-bit value, and
reset, answer PROTECTION outside privileged mode; within it wr writes as the host would, reset starts cold or warm.
Where the monitor takes no line, none of these has an effect. -/
def Obligations.CritiRatesAuthenticationAndWrites : Prop :=
  (∀ (s : State) (level slot r t : Nat) (cold : Bool), critiTakes s = false →
    exec (.critiAuth level slot r t) s = .next (cleared s) ∧ exec (.critiReset cold) s = .next (cleared s) ∧
    exec (.critiWr level r) s = .next (keepFixed s (settleHost (cleared s)))) ∧
  (∀ (s : State) (rate a v : Nat) (cold : Bool), critiTakes s = true →
    (let u : State := { cleared s with dbg := { s.dbg with baud := fld s Reg.MON_CFG.baud } }
     let fin (t : State) : Host.Outcome State Fault Refusal := .next (keepFixed s t)
     let err (st : Status) := emit u (.criti [] [] st)
     let ran := critiCount (emit u (.criti [] [] .ok))
     (∀ c, baudCode rate = some c → exec (.critiBaud rate) s = fin (critiCount (emit (setFld u Reg.MON_CFG.baud c) (.criti [] [] .ok)))) ∧
     (baudCode rate = none → exec (.critiBaud rate) s = fin (err .versionMismatch)) ∧
     exec .critiExit s = fin (critiCount (emit { u with dbg := { u.dbg with priv := false } } (.criti [] [] .ok))) ∧
     exec (.critiWr a v) s = fin (settleHost (if a % 8 ≠ 0 ∨ 2 ^ 26 ≤ a ∨ 2 ^ 64 ≤ v then err .versionMismatch else if s.dbg.priv = false then err .protection
       else if romForm s = true ∧ romReads a = false then ran else regWrite ran { off := a, size := 8, value := v })) ∧
     exec (.critiReset cold) s = fin (if s.dbg.priv = false then err .protection else if cold then coldStart ran 2 else warmTrigger ran 6))) ∧
  (∀ (s : State) (level slot r t : Nat), critiTakes s = true → level < 256 → slot < 256 → r < 2 ^ 384 → t < 2 ^ 384 →
    (let u : State := { cleared s with dbg := { s.dbg with baud := fld s Reg.MON_CFG.baud } }
     let fin (t : State) : Host.Outcome State Fault Refusal := .next (keepFixed s (critiCount t))
     let d := drawChallenge u
     let side (a : AuthSide) (v : State) : State := { v with dbg := { v.dbg with criti := a } }
     let v := side { s.dbg.criti with challenge := some d.2 } d.1
     (s.timebase < s.dbg.criti.notBefore → exec (.critiAuth level slot r t) s = fin (emit u (.criti [] [] .protection))) ∧
     (s.dbg.criti.notBefore ≤ s.timebase →
       (level = 2 → flag v Reg.SEC_CFG.lockdown = true → exec (.critiAuth level slot r t) s = fin (emit v (.criti [] d.2 .protection))) ∧
       (level ≠ 2 ∨ flag v Reg.SEC_CFG.lockdown = false → exec (.critiAuth level slot r t) s = fin
         (if responseGood v d.2 level slot r t then
            (let w := side {} v
             let p := setSticky { w with dbg := { w.dbg with priv := true } } 1
             emit (if level = 2 then report (bump p Reg.DBG_COUNT.grants) 0x1801 0 0 [0, 2, slot] else w) (.criti [] d.2 .ok))
          else
            (let w := bump (side { challenge := none, failures := s.dbg.criti.failures + 1,
                                   notBefore := s.timebase + 1000000000 * 2 ^ Nat.min s.dbg.criti.failures 6 } v) Reg.DBG_COUNT.auth_fail
             emit (report w 0x1802 0 0 [0, fld w Reg.DBG_COUNT.auth_fail]) (.criti [] d.2 .protection)))))))

/-- In a powered block. Test-Logic-Reset selects IDCODE and ends a grant. Each load of an instruction shifts out the
capture of R620. SAMPLE/PRELOAD shifts the lands out, IDCODE the identification, BYPASS a 0. EXTEST, CLAMP, HIGHZ,
EXTEST_PULSE and EXTEST_TRAIN take effect only while SYS_RST_N holds reset and outside lockdown, then lose a warm
record; else each acts as BYPASS and sets the refusal bit. DBG_AUTH shifts out a fresh challenge, or zeros where
nothing runs or the delay lasts; an answer at level 2 under lockdown is dropped; a good one with its reserved bytes 0
grants its level, counted, with sticky bit, event and measurement at level 2; another fails as on the monitor.
DBG_ACCESS shifts out the last result and counts an access, or zeros where nothing runs. Level 2 permits all, level 1
reads of BAR0; else the result is PROTECTION. A reserved bit or an address that its space lacks gives VERSION_MISMATCH
(the model's choice); else a read keeps what its space holds and a write acts on it, with OK. -/
def Obligations.JtagAndDebugPort : Prop :=
  (∀ s : State, s.clk.phase ≠ .off →
    (let fin (t : State) : Host.Outcome State Fault Refusal := .next (keepFixed s t)
     let u := cleared s
     let load (ir : Nat) (scan : Option Nat) (refused : Bool) : State := { emit u (.tdo 8 (irCapture s)) with dbg := { s.dbg with ir := ir, scan := scan, refused := refused } }
     exec .jtagTestLogicReset s = fin { u with dbg := { s.dbg with ir := 2, scan := none, refused := false, level := 0, slot := 0 } } ∧
     exec .samplePreload s = fin (boundaryScan (load 1 none false)) ∧ exec .idcode s = fin (emit (load 2 none false) (.tdo 32 (idcode s))) ∧
     exec .bypass s = fin (emit (load 0xFF none false) (.tdo 1 0)) ∧
     ∀ x ∈ [(Instr.extest, 0x00, false), (.clamp, 0x03, true), (.highz, 0x04, true), (.extestPulse, 0x05, false), (.extestTrain, 0x06, false)],
       (let v := load x.2.1 (some x.2.1) false
        let w : State := if s.clk.phase = .saved then { v with clk := { v.clk with warm := none } } else v
        exec x.1 s = fin (if s.clk.pins.sysRstN = false ∧ (s.clk.phase = .held ∨ s.clk.phase = .saved) ∧ flag s Reg.SEC_CFG.lockdown = false
          then (if x.2.2 then emit w (.tdo 1 0) else boundaryScan w) else emit (load x.2.1 none true) (.tdo 1 0))))) ∧
  (∀ (s : State) (level slot rsv r t : Nat), s.clk.phase ≠ .off →
    (let fin (t : State) : Host.Outcome State Fault Refusal := .next (keepFixed s t)
     let v := loadIr (cleared s) 0x10 none false
     let d := drawChallenge v
     let side (a : AuthSide) (v : State) : State := { v with dbg := { v.dbg with jtag := a } }
     let w := emit (side { s.dbg.jtag with challenge := some d.2 } d.1) (.tdo 800 (leNat d.2))
     (running s = false ∨ s.timebase < s.dbg.jtag.notBefore → exec (.dbgAuth level slot rsv r t) s = fin (emit v (.tdo 800 0))) ∧
     (running s = true → s.dbg.jtag.notBefore ≤ s.timebase → exec (.dbgAuth level slot rsv r t) s = fin
       (if level = 2 ∧ flag w Reg.SEC_CFG.lockdown = true then side { s.dbg.jtag with challenge := none } w
        else if rsv = 0 ∧ responseGood w d.2 level slot r t = true then grantLevel (side {} w) level slot
        else responseFailed (side (afterFailure w w.dbg.jtag) w) 1)))) ∧
  (∀ (s : State) (sp a v rsv : Nat), s.clk.phase ≠ .off → sp < 4 → a < 2 ^ 64 → v < 2 ^ 64 →
    (let fin (t : State) : Host.Outcome State Fault Refusal := .next (keepFixed s t)
     let l := loadIr (cleared s) 0x11 none false
     let b := bump (emit l (.tdo 136 (s.dbg.result.1 + s.dbg.result.2 * 2 ^ 72))) Reg.DBG_COUNT.accesses
     let keep (t : State) (st : Status) (x : Nat) : State := { t with dbg := { t.dbg with result := (st.code, x) } }
     let has := rsv = 0 ∧ spaceHas s sp a = true
     (running s = false → exec (.dbgAccessRead sp a rsv) s = fin (emit l (.tdo 136 0)) ∧ exec (.dbgAccessWrite sp a v rsv) s = fin (emit l (.tdo 136 0))) ∧
     (running s = true →
       exec (.dbgAccessRead sp a rsv) s = fin (if ¬ (s.dbg.level = 2 ∨ (s.dbg.level = 1 ∧ sp = 0)) then keep b .protection 0 else if ¬ has then keep b .versionMismatch 0
         else keep (spaceRead b sp a).1 .ok (spaceRead b sp a).2) ∧
       exec (.dbgAccessWrite sp a v rsv) s = fin (if s.dbg.level ≠ 2 then keep b .protection 0 else if ¬ has then keep b .versionMismatch 0
         else settleHost (keep (spaceWrite b sp a v) .ok 0)))))

/-- For every CAM entry and every lookup key x: the entry matches exactly when ((x XOR key) AND mask) is zero; that is
exactly when, for every bit i, a mask bit of 1 means that bit i of x equals bit i of the key, while a mask bit of 0
leaves bit i free; and an entry whose mask is all zero matches every key. -/
def Obligations.CamEntryMatchesItsMaskedBits : Prop :=
  ∀ (e : CamEntry) (x : Nat),
    (camMatch e x = true ↔ (x ^^^ e.key) &&& e.mask = 0) ∧
    (camMatch e x = true ↔ ∀ i, e.mask.testBit i = true → x.testBit i = e.key.testBit i) ∧
    (∀ y, (∀ i, e.mask.testBit i = true → x.testBit i = y.testBit i) → camMatch e x = camMatch e y) ∧
    (e.mask = 0 → camMatch e x = true)

/-- For every state, every port that is UP and every frame taken on it whose dst is not the controller's own device ID:
taking the frame adds one, within the counter's 32 bits, to LNK_ROUTE_ERR.misroute; no other register field changes;
and nothing outside the register file changes, so that no frame is queued or sent on any port, none is output, and no
unit is given the message. -/
def Obligations.FrameForAnotherDeviceIsDiscardedAndCounted : Prop :=
  ∀ (s : State) (port : Nat) (f : Frame), portState s port = .up → f.dst ≠ s.device →
    (let t := takeFrame s port f
     fld t Reg.LNK_ROUTE_ERR.misroute = (fld s Reg.LNK_ROUTE_ERR.misroute + 1) % 2 ^ 32 ∧
     (∀ (g : Field) (js : List Nat), keyOf g js ≠ keyOf Reg.LNK_ROUTE_ERR.misroute [] → fldAt t g js = fldAt s g js) ∧
     t = { s with regs := t.regs } ∧ t.link = s.link ∧ t.out = s.out)

/-- For every state and every REGULATORS section loaded, and for each of the 16 partitions and three resources: after the
load the regulator entry is the one loaded; where it differs from the entry before, its bucket holds zero tokens;
where it does not, its bucket holds what it held. -/
def Obligations.RegulatorLoadEmptiesChangedBucketsOnly : Prop :=
  ∀ (s : State) (n : List Regulator) (p r : Nat), p < 16 → r < 3 →
    (let t := applyRegulators s n
     regulatorOf t p r = n.getD (3 * p + r) {} ∧
     (regulatorOf t p r ≠ regulatorOf s p r → bucketLevel t p r = 0) ∧
     (regulatorOf t p r = regulatorOf s p r → bucketLevel t p r = bucketLevel s p r))
end

