-- ==== Sys2Proof/Laws/State.lean ====
section
/-! SUPPORT. What each small update of the state leaves: one lemma per update and field. -/
namespace Sys2Proof.Machine

@[simp] theorem emit_part (s : State) (o : Out) : (emit s o).part = s.part := rfl
@[simp] theorem emit_stepping (s : State) (o : Out) : (emit s o).stepping = s.stepping := rfl
@[simp] theorem emit_device (s : State) (o : Out) : (emit s o).device = s.device := rfl
@[simp] theorem emit_startCount (s : State) (o : Out) : (emit s o).startCount = s.startCount := rfl
@[simp] theorem emit_timebase (s : State) (o : Out) : (emit s o).timebase = s.timebase := rfl
@[simp] theorem emit_regs (s : State) (o : Out) : (emit s o).regs = s.regs := rfl
@[simp] theorem emit_clk (s : State) (o : Out) : (emit s o).clk = s.clk := rfl
@[simp] theorem emit_host (s : State) (o : Out) : (emit s o).host = s.host := rfl
@[simp] theorem emit_events (s : State) (o : Out) : (emit s o).events = s.events := rfl
@[simp] theorem emit_attached (s : State) (o : Out) : (emit s o).attached = s.attached := rfl
@[simp] theorem emit_capSeen (s : State) (o : Out) : (emit s o).capSeen = s.capSeen := rfl
@[simp] theorem emit_contexts (s : State) (o : Out) : (emit s o).contexts = s.contexts := rfl
@[simp] theorem emit_detaching (s : State) (o : Out) : (emit s o).detaching = s.detaching := rfl
@[simp] theorem emit_sess (s : State) (o : Out) : (emit s o).sess = s.sess := rfl
@[simp] theorem emit_hatch (s : State) (o : Out) : (emit s o).hatch = s.hatch := rfl
@[simp] theorem emit_tok (s : State) (o : Out) : (emit s o).tok = s.tok := rfl
@[simp] theorem emit_steps (s : State) (o : Out) : (emit s o).steps = s.steps := rfl
@[simp] theorem emit_lay (s : State) (o : Out) : (emit s o).lay = s.lay := rfl
@[simp] theorem emit_tier (s : State) (o : Out) : (emit s o).tier = s.tier := rfl
@[simp] theorem emit_atn (s : State) (o : Out) : (emit s o).atn = s.atn := rfl
@[simp] theorem emit_nbu (s : State) (o : Out) : (emit s o).nbu = s.nbu := rfl
@[simp] theorem emit_den (s : State) (o : Out) : (emit s o).den = s.den := rfl
@[simp] theorem emit_inv (s : State) (o : Out) : (emit s o).inv = s.inv := rfl
@[simp] theorem emit_mir (s : State) (o : Out) : (emit s o).mir = s.mir := rfl
@[simp] theorem emit_maint (s : State) (o : Out) : (emit s o).maint = s.maint := rfl
@[simp] theorem emit_trunk (s : State) (o : Out) : (emit s o).trunk = s.trunk := rfl
@[simp] theorem emit_sec (s : State) (o : Out) : (emit s o).sec = s.sec := rfl
@[simp] theorem emit_dbg (s : State) (o : Out) : (emit s o).dbg = s.dbg := rfl
@[simp] theorem emit_link (s : State) (o : Out) : (emit s o).link = s.link := rfl
@[simp] theorem emit_rma (s : State) (o : Out) : (emit s o).rma = s.rma := rfl
@[simp] theorem emit_cam (s : State) (o : Out) : (emit s o).cam = s.cam := rfl
@[simp] theorem emit_vsr (s : State) (o : Out) : (emit s o).vsr = s.vsr := rfl
@[simp] theorem emit_sram (s : State) (o : Out) : (emit s o).sram = s.sram := rfl
@[simp] theorem emit_out (s : State) (o : Out) : (emit s o).out = s.out ++ [o] := rfl
@[simp] theorem emit_pending (s : State) (o : Out) : (emit s o).pending = s.pending := rfl

@[simp] theorem setFldAt_part (s : State) (f : Field) (is : List Nat) (v : Nat) : (setFldAt s f is v).part = s.part := rfl
@[simp] theorem setFldAt_stepping (s : State) (f : Field) (is : List Nat) (v : Nat) : (setFldAt s f is v).stepping = s.stepping := rfl
@[simp] theorem setFldAt_device (s : State) (f : Field) (is : List Nat) (v : Nat) : (setFldAt s f is v).device = s.device := rfl
@[simp] theorem setFldAt_startCount (s : State) (f : Field) (is : List Nat) (v : Nat) : (setFldAt s f is v).startCount = s.startCount := rfl
@[simp] theorem setFldAt_timebase (s : State) (f : Field) (is : List Nat) (v : Nat) : (setFldAt s f is v).timebase = s.timebase := rfl
@[simp] theorem setFldAt_regs (s : State) (f : Field) (is : List Nat) (v : Nat) : (setFldAt s f is v).regs = regPut s.regs (keyOf f is) f.reset (v % 2 ^ f.width) := rfl
@[simp] theorem setFldAt_clk (s : State) (f : Field) (is : List Nat) (v : Nat) : (setFldAt s f is v).clk = s.clk := rfl
@[simp] theorem setFldAt_host (s : State) (f : Field) (is : List Nat) (v : Nat) : (setFldAt s f is v).host = s.host := rfl
@[simp] theorem setFldAt_events (s : State) (f : Field) (is : List Nat) (v : Nat) : (setFldAt s f is v).events = s.events := rfl
@[simp] theorem setFldAt_attached (s : State) (f : Field) (is : List Nat) (v : Nat) : (setFldAt s f is v).attached = s.attached := rfl
@[simp] theorem setFldAt_capSeen (s : State) (f : Field) (is : List Nat) (v : Nat) : (setFldAt s f is v).capSeen = s.capSeen := rfl
@[simp] theorem setFldAt_contexts (s : State) (f : Field) (is : List Nat) (v : Nat) : (setFldAt s f is v).contexts = s.contexts := rfl
@[simp] theorem setFldAt_detaching (s : State) (f : Field) (is : List Nat) (v : Nat) : (setFldAt s f is v).detaching = s.detaching := rfl
@[simp] theorem setFldAt_sess (s : State) (f : Field) (is : List Nat) (v : Nat) : (setFldAt s f is v).sess = s.sess := rfl
@[simp] theorem setFldAt_hatch (s : State) (f : Field) (is : List Nat) (v : Nat) : (setFldAt s f is v).hatch = s.hatch := rfl
@[simp] theorem setFldAt_tok (s : State) (f : Field) (is : List Nat) (v : Nat) : (setFldAt s f is v).tok = s.tok := rfl
@[simp] theorem setFldAt_steps (s : State) (f : Field) (is : List Nat) (v : Nat) : (setFldAt s f is v).steps = s.steps := rfl
@[simp] theorem setFldAt_lay (s : State) (f : Field) (is : List Nat) (v : Nat) : (setFldAt s f is v).lay = s.lay := rfl
@[simp] theorem setFldAt_tier (s : State) (f : Field) (is : List Nat) (v : Nat) : (setFldAt s f is v).tier = s.tier := rfl
@[simp] theorem setFldAt_atn (s : State) (f : Field) (is : List Nat) (v : Nat) : (setFldAt s f is v).atn = s.atn := rfl
@[simp] theorem setFldAt_nbu (s : State) (f : Field) (is : List Nat) (v : Nat) : (setFldAt s f is v).nbu = s.nbu := rfl
@[simp] theorem setFldAt_den (s : State) (f : Field) (is : List Nat) (v : Nat) : (setFldAt s f is v).den = s.den := rfl
@[simp] theorem setFldAt_inv (s : State) (f : Field) (is : List Nat) (v : Nat) : (setFldAt s f is v).inv = s.inv := rfl
@[simp] theorem setFldAt_mir (s : State) (f : Field) (is : List Nat) (v : Nat) : (setFldAt s f is v).mir = s.mir := rfl
@[simp] theorem setFldAt_maint (s : State) (f : Field) (is : List Nat) (v : Nat) : (setFldAt s f is v).maint = s.maint := rfl
@[simp] theorem setFldAt_trunk (s : State) (f : Field) (is : List Nat) (v : Nat) : (setFldAt s f is v).trunk = s.trunk := rfl
@[simp] theorem setFldAt_sec (s : State) (f : Field) (is : List Nat) (v : Nat) : (setFldAt s f is v).sec = s.sec := rfl
@[simp] theorem setFldAt_dbg (s : State) (f : Field) (is : List Nat) (v : Nat) : (setFldAt s f is v).dbg = s.dbg := rfl
@[simp] theorem setFldAt_link (s : State) (f : Field) (is : List Nat) (v : Nat) : (setFldAt s f is v).link = s.link := rfl
@[simp] theorem setFldAt_rma (s : State) (f : Field) (is : List Nat) (v : Nat) : (setFldAt s f is v).rma = s.rma := rfl
@[simp] theorem setFldAt_cam (s : State) (f : Field) (is : List Nat) (v : Nat) : (setFldAt s f is v).cam = s.cam := rfl
@[simp] theorem setFldAt_vsr (s : State) (f : Field) (is : List Nat) (v : Nat) : (setFldAt s f is v).vsr = s.vsr := rfl
@[simp] theorem setFldAt_sram (s : State) (f : Field) (is : List Nat) (v : Nat) : (setFldAt s f is v).sram = s.sram := rfl
@[simp] theorem setFldAt_out (s : State) (f : Field) (is : List Nat) (v : Nat) : (setFldAt s f is v).out = s.out := rfl
@[simp] theorem setFldAt_pending (s : State) (f : Field) (is : List Nat) (v : Nat) : (setFldAt s f is v).pending = s.pending := rfl

@[simp] theorem setFld_part (s : State) (f : Field) (v : Nat) : (setFld s f v).part = s.part := rfl
@[simp] theorem setFld_stepping (s : State) (f : Field) (v : Nat) : (setFld s f v).stepping = s.stepping := rfl
@[simp] theorem setFld_device (s : State) (f : Field) (v : Nat) : (setFld s f v).device = s.device := rfl
@[simp] theorem setFld_startCount (s : State) (f : Field) (v : Nat) : (setFld s f v).startCount = s.startCount := rfl
@[simp] theorem setFld_timebase (s : State) (f : Field) (v : Nat) : (setFld s f v).timebase = s.timebase := rfl
@[simp] theorem setFld_clk (s : State) (f : Field) (v : Nat) : (setFld s f v).clk = s.clk := rfl
@[simp] theorem setFld_host (s : State) (f : Field) (v : Nat) : (setFld s f v).host = s.host := rfl
@[simp] theorem setFld_events (s : State) (f : Field) (v : Nat) : (setFld s f v).events = s.events := rfl
@[simp] theorem setFld_attached (s : State) (f : Field) (v : Nat) : (setFld s f v).attached = s.attached := rfl
@[simp] theorem setFld_capSeen (s : State) (f : Field) (v : Nat) : (setFld s f v).capSeen = s.capSeen := rfl
@[simp] theorem setFld_contexts (s : State) (f : Field) (v : Nat) : (setFld s f v).contexts = s.contexts := rfl
@[simp] theorem setFld_detaching (s : State) (f : Field) (v : Nat) : (setFld s f v).detaching = s.detaching := rfl
@[simp] theorem setFld_sess (s : State) (f : Field) (v : Nat) : (setFld s f v).sess = s.sess := rfl
@[simp] theorem setFld_hatch (s : State) (f : Field) (v : Nat) : (setFld s f v).hatch = s.hatch := rfl
@[simp] theorem setFld_tok (s : State) (f : Field) (v : Nat) : (setFld s f v).tok = s.tok := rfl
@[simp] theorem setFld_steps (s : State) (f : Field) (v : Nat) : (setFld s f v).steps = s.steps := rfl
@[simp] theorem setFld_lay (s : State) (f : Field) (v : Nat) : (setFld s f v).lay = s.lay := rfl
@[simp] theorem setFld_tier (s : State) (f : Field) (v : Nat) : (setFld s f v).tier = s.tier := rfl
@[simp] theorem setFld_atn (s : State) (f : Field) (v : Nat) : (setFld s f v).atn = s.atn := rfl
@[simp] theorem setFld_nbu (s : State) (f : Field) (v : Nat) : (setFld s f v).nbu = s.nbu := rfl
@[simp] theorem setFld_den (s : State) (f : Field) (v : Nat) : (setFld s f v).den = s.den := rfl
@[simp] theorem setFld_inv (s : State) (f : Field) (v : Nat) : (setFld s f v).inv = s.inv := rfl
@[simp] theorem setFld_mir (s : State) (f : Field) (v : Nat) : (setFld s f v).mir = s.mir := rfl
@[simp] theorem setFld_maint (s : State) (f : Field) (v : Nat) : (setFld s f v).maint = s.maint := rfl
@[simp] theorem setFld_trunk (s : State) (f : Field) (v : Nat) : (setFld s f v).trunk = s.trunk := rfl
@[simp] theorem setFld_sec (s : State) (f : Field) (v : Nat) : (setFld s f v).sec = s.sec := rfl
@[simp] theorem setFld_dbg (s : State) (f : Field) (v : Nat) : (setFld s f v).dbg = s.dbg := rfl
@[simp] theorem setFld_link (s : State) (f : Field) (v : Nat) : (setFld s f v).link = s.link := rfl
@[simp] theorem setFld_rma (s : State) (f : Field) (v : Nat) : (setFld s f v).rma = s.rma := rfl
@[simp] theorem setFld_cam (s : State) (f : Field) (v : Nat) : (setFld s f v).cam = s.cam := rfl
@[simp] theorem setFld_vsr (s : State) (f : Field) (v : Nat) : (setFld s f v).vsr = s.vsr := rfl
@[simp] theorem setFld_sram (s : State) (f : Field) (v : Nat) : (setFld s f v).sram = s.sram := rfl
@[simp] theorem setFld_out (s : State) (f : Field) (v : Nat) : (setFld s f v).out = s.out := rfl
@[simp] theorem setFld_pending (s : State) (f : Field) (v : Nat) : (setFld s f v).pending = s.pending := rfl

@[simp] theorem setRing_part (s : State) (r : Nat) (x : Ring) : (setRing s r x).part = s.part := rfl
@[simp] theorem setRing_stepping (s : State) (r : Nat) (x : Ring) : (setRing s r x).stepping = s.stepping := rfl
@[simp] theorem setRing_device (s : State) (r : Nat) (x : Ring) : (setRing s r x).device = s.device := rfl
@[simp] theorem setRing_startCount (s : State) (r : Nat) (x : Ring) : (setRing s r x).startCount = s.startCount := rfl
@[simp] theorem setRing_timebase (s : State) (r : Nat) (x : Ring) : (setRing s r x).timebase = s.timebase := rfl
@[simp] theorem setRing_regs (s : State) (r : Nat) (x : Ring) : (setRing s r x).regs = s.regs := rfl
@[simp] theorem setRing_clk (s : State) (r : Nat) (x : Ring) : (setRing s r x).clk = s.clk := rfl
@[simp] theorem setRing_events (s : State) (r : Nat) (x : Ring) : (setRing s r x).events = s.events := rfl
@[simp] theorem setRing_attached (s : State) (r : Nat) (x : Ring) : (setRing s r x).attached = s.attached := rfl
@[simp] theorem setRing_capSeen (s : State) (r : Nat) (x : Ring) : (setRing s r x).capSeen = s.capSeen := rfl
@[simp] theorem setRing_contexts (s : State) (r : Nat) (x : Ring) : (setRing s r x).contexts = s.contexts := rfl
@[simp] theorem setRing_detaching (s : State) (r : Nat) (x : Ring) : (setRing s r x).detaching = s.detaching := rfl
@[simp] theorem setRing_sess (s : State) (r : Nat) (x : Ring) : (setRing s r x).sess = s.sess := rfl
@[simp] theorem setRing_hatch (s : State) (r : Nat) (x : Ring) : (setRing s r x).hatch = s.hatch := rfl
@[simp] theorem setRing_tok (s : State) (r : Nat) (x : Ring) : (setRing s r x).tok = s.tok := rfl
@[simp] theorem setRing_steps (s : State) (r : Nat) (x : Ring) : (setRing s r x).steps = s.steps := rfl
@[simp] theorem setRing_lay (s : State) (r : Nat) (x : Ring) : (setRing s r x).lay = s.lay := rfl
@[simp] theorem setRing_tier (s : State) (r : Nat) (x : Ring) : (setRing s r x).tier = s.tier := rfl
@[simp] theorem setRing_atn (s : State) (r : Nat) (x : Ring) : (setRing s r x).atn = s.atn := rfl
@[simp] theorem setRing_nbu (s : State) (r : Nat) (x : Ring) : (setRing s r x).nbu = s.nbu := rfl
@[simp] theorem setRing_den (s : State) (r : Nat) (x : Ring) : (setRing s r x).den = s.den := rfl
@[simp] theorem setRing_inv (s : State) (r : Nat) (x : Ring) : (setRing s r x).inv = s.inv := rfl
@[simp] theorem setRing_mir (s : State) (r : Nat) (x : Ring) : (setRing s r x).mir = s.mir := rfl
@[simp] theorem setRing_maint (s : State) (r : Nat) (x : Ring) : (setRing s r x).maint = s.maint := rfl
@[simp] theorem setRing_trunk (s : State) (r : Nat) (x : Ring) : (setRing s r x).trunk = s.trunk := rfl
@[simp] theorem setRing_sec (s : State) (r : Nat) (x : Ring) : (setRing s r x).sec = s.sec := rfl
@[simp] theorem setRing_dbg (s : State) (r : Nat) (x : Ring) : (setRing s r x).dbg = s.dbg := rfl
@[simp] theorem setRing_link (s : State) (r : Nat) (x : Ring) : (setRing s r x).link = s.link := rfl
@[simp] theorem setRing_rma (s : State) (r : Nat) (x : Ring) : (setRing s r x).rma = s.rma := rfl
@[simp] theorem setRing_cam (s : State) (r : Nat) (x : Ring) : (setRing s r x).cam = s.cam := rfl
@[simp] theorem setRing_vsr (s : State) (r : Nat) (x : Ring) : (setRing s r x).vsr = s.vsr := rfl
@[simp] theorem setRing_sram (s : State) (r : Nat) (x : Ring) : (setRing s r x).sram = s.sram := rfl
@[simp] theorem setRing_out (s : State) (r : Nat) (x : Ring) : (setRing s r x).out = s.out := rfl
@[simp] theorem setRing_pending (s : State) (r : Nat) (x : Ring) : (setRing s r x).pending = s.pending := rfl

@[simp] theorem setORing_part (s : State) (r : Nat) (x : ORing) : (setORing s r x).part = s.part := rfl
@[simp] theorem setORing_stepping (s : State) (r : Nat) (x : ORing) : (setORing s r x).stepping = s.stepping := rfl
@[simp] theorem setORing_device (s : State) (r : Nat) (x : ORing) : (setORing s r x).device = s.device := rfl
@[simp] theorem setORing_startCount (s : State) (r : Nat) (x : ORing) : (setORing s r x).startCount = s.startCount := rfl
@[simp] theorem setORing_timebase (s : State) (r : Nat) (x : ORing) : (setORing s r x).timebase = s.timebase := rfl
@[simp] theorem setORing_regs (s : State) (r : Nat) (x : ORing) : (setORing s r x).regs = s.regs := rfl
@[simp] theorem setORing_clk (s : State) (r : Nat) (x : ORing) : (setORing s r x).clk = s.clk := rfl
@[simp] theorem setORing_events (s : State) (r : Nat) (x : ORing) : (setORing s r x).events = s.events := rfl
@[simp] theorem setORing_attached (s : State) (r : Nat) (x : ORing) : (setORing s r x).attached = s.attached := rfl
@[simp] theorem setORing_capSeen (s : State) (r : Nat) (x : ORing) : (setORing s r x).capSeen = s.capSeen := rfl
@[simp] theorem setORing_contexts (s : State) (r : Nat) (x : ORing) : (setORing s r x).contexts = s.contexts := rfl
@[simp] theorem setORing_detaching (s : State) (r : Nat) (x : ORing) : (setORing s r x).detaching = s.detaching := rfl
@[simp] theorem setORing_sess (s : State) (r : Nat) (x : ORing) : (setORing s r x).sess = s.sess := rfl
@[simp] theorem setORing_hatch (s : State) (r : Nat) (x : ORing) : (setORing s r x).hatch = s.hatch := rfl
@[simp] theorem setORing_tok (s : State) (r : Nat) (x : ORing) : (setORing s r x).tok = s.tok := rfl
@[simp] theorem setORing_steps (s : State) (r : Nat) (x : ORing) : (setORing s r x).steps = s.steps := rfl
@[simp] theorem setORing_lay (s : State) (r : Nat) (x : ORing) : (setORing s r x).lay = s.lay := rfl
@[simp] theorem setORing_tier (s : State) (r : Nat) (x : ORing) : (setORing s r x).tier = s.tier := rfl
@[simp] theorem setORing_atn (s : State) (r : Nat) (x : ORing) : (setORing s r x).atn = s.atn := rfl
@[simp] theorem setORing_nbu (s : State) (r : Nat) (x : ORing) : (setORing s r x).nbu = s.nbu := rfl
@[simp] theorem setORing_den (s : State) (r : Nat) (x : ORing) : (setORing s r x).den = s.den := rfl
@[simp] theorem setORing_inv (s : State) (r : Nat) (x : ORing) : (setORing s r x).inv = s.inv := rfl
@[simp] theorem setORing_mir (s : State) (r : Nat) (x : ORing) : (setORing s r x).mir = s.mir := rfl
@[simp] theorem setORing_maint (s : State) (r : Nat) (x : ORing) : (setORing s r x).maint = s.maint := rfl
@[simp] theorem setORing_trunk (s : State) (r : Nat) (x : ORing) : (setORing s r x).trunk = s.trunk := rfl
@[simp] theorem setORing_sec (s : State) (r : Nat) (x : ORing) : (setORing s r x).sec = s.sec := rfl
@[simp] theorem setORing_dbg (s : State) (r : Nat) (x : ORing) : (setORing s r x).dbg = s.dbg := rfl
@[simp] theorem setORing_link (s : State) (r : Nat) (x : ORing) : (setORing s r x).link = s.link := rfl
@[simp] theorem setORing_rma (s : State) (r : Nat) (x : ORing) : (setORing s r x).rma = s.rma := rfl
@[simp] theorem setORing_cam (s : State) (r : Nat) (x : ORing) : (setORing s r x).cam = s.cam := rfl
@[simp] theorem setORing_vsr (s : State) (r : Nat) (x : ORing) : (setORing s r x).vsr = s.vsr := rfl
@[simp] theorem setORing_sram (s : State) (r : Nat) (x : ORing) : (setORing s r x).sram = s.sram := rfl
@[simp] theorem setORing_out (s : State) (r : Nat) (x : ORing) : (setORing s r x).out = s.out := rfl
@[simp] theorem setORing_pending (s : State) (r : Nat) (x : ORing) : (setORing s r x).pending = s.pending := rfl

@[simp] theorem dropShadow_part (s : State) : (dropShadow s).part = s.part := rfl
@[simp] theorem dropShadow_stepping (s : State) : (dropShadow s).stepping = s.stepping := rfl
@[simp] theorem dropShadow_device (s : State) : (dropShadow s).device = s.device := rfl
@[simp] theorem dropShadow_startCount (s : State) : (dropShadow s).startCount = s.startCount := rfl
@[simp] theorem dropShadow_timebase (s : State) : (dropShadow s).timebase = s.timebase := rfl
@[simp] theorem dropShadow_regs (s : State) : (dropShadow s).regs = s.regs := rfl
@[simp] theorem dropShadow_clk (s : State) : (dropShadow s).clk = s.clk := rfl
@[simp] theorem dropShadow_events (s : State) : (dropShadow s).events = s.events := rfl
@[simp] theorem dropShadow_attached (s : State) : (dropShadow s).attached = s.attached := rfl
@[simp] theorem dropShadow_capSeen (s : State) : (dropShadow s).capSeen = s.capSeen := rfl
@[simp] theorem dropShadow_contexts (s : State) : (dropShadow s).contexts = s.contexts := rfl
@[simp] theorem dropShadow_detaching (s : State) : (dropShadow s).detaching = s.detaching := rfl
@[simp] theorem dropShadow_sess (s : State) : (dropShadow s).sess = s.sess := rfl
@[simp] theorem dropShadow_hatch (s : State) : (dropShadow s).hatch = s.hatch := rfl
@[simp] theorem dropShadow_tok (s : State) : (dropShadow s).tok = s.tok := rfl
@[simp] theorem dropShadow_steps (s : State) : (dropShadow s).steps = s.steps := rfl
@[simp] theorem dropShadow_lay (s : State) : (dropShadow s).lay = s.lay := rfl
@[simp] theorem dropShadow_tier (s : State) : (dropShadow s).tier = s.tier := rfl
@[simp] theorem dropShadow_atn (s : State) : (dropShadow s).atn = s.atn := rfl
@[simp] theorem dropShadow_nbu (s : State) : (dropShadow s).nbu = s.nbu := rfl
@[simp] theorem dropShadow_den (s : State) : (dropShadow s).den = s.den := rfl
@[simp] theorem dropShadow_inv (s : State) : (dropShadow s).inv = s.inv := rfl
@[simp] theorem dropShadow_mir (s : State) : (dropShadow s).mir = s.mir := rfl
@[simp] theorem dropShadow_maint (s : State) : (dropShadow s).maint = s.maint := rfl
@[simp] theorem dropShadow_trunk (s : State) : (dropShadow s).trunk = s.trunk := rfl
@[simp] theorem dropShadow_sec (s : State) : (dropShadow s).sec = s.sec := rfl
@[simp] theorem dropShadow_dbg (s : State) : (dropShadow s).dbg = s.dbg := rfl
@[simp] theorem dropShadow_link (s : State) : (dropShadow s).link = s.link := rfl
@[simp] theorem dropShadow_rma (s : State) : (dropShadow s).rma = s.rma := rfl
@[simp] theorem dropShadow_cam (s : State) : (dropShadow s).cam = s.cam := rfl
@[simp] theorem dropShadow_vsr (s : State) : (dropShadow s).vsr = s.vsr := rfl
@[simp] theorem dropShadow_sram (s : State) : (dropShadow s).sram = s.sram := rfl
@[simp] theorem dropShadow_out (s : State) : (dropShadow s).out = s.out := rfl
@[simp] theorem dropShadow_pending (s : State) : (dropShadow s).pending = s.pending := rfl

@[simp] theorem setPins_part (s : State) (f : Pins → Pins) : (setPins s f).part = s.part := rfl
@[simp] theorem setPins_stepping (s : State) (f : Pins → Pins) : (setPins s f).stepping = s.stepping := rfl
@[simp] theorem setPins_device (s : State) (f : Pins → Pins) : (setPins s f).device = s.device := rfl
@[simp] theorem setPins_startCount (s : State) (f : Pins → Pins) : (setPins s f).startCount = s.startCount := rfl
@[simp] theorem setPins_timebase (s : State) (f : Pins → Pins) : (setPins s f).timebase = s.timebase := rfl
@[simp] theorem setPins_regs (s : State) (f : Pins → Pins) : (setPins s f).regs = s.regs := rfl
@[simp] theorem setPins_host (s : State) (f : Pins → Pins) : (setPins s f).host = s.host := rfl
@[simp] theorem setPins_events (s : State) (f : Pins → Pins) : (setPins s f).events = s.events := rfl
@[simp] theorem setPins_attached (s : State) (f : Pins → Pins) : (setPins s f).attached = s.attached := rfl
@[simp] theorem setPins_capSeen (s : State) (f : Pins → Pins) : (setPins s f).capSeen = s.capSeen := rfl
@[simp] theorem setPins_contexts (s : State) (f : Pins → Pins) : (setPins s f).contexts = s.contexts := rfl
@[simp] theorem setPins_detaching (s : State) (f : Pins → Pins) : (setPins s f).detaching = s.detaching := rfl
@[simp] theorem setPins_sess (s : State) (f : Pins → Pins) : (setPins s f).sess = s.sess := rfl
@[simp] theorem setPins_hatch (s : State) (f : Pins → Pins) : (setPins s f).hatch = s.hatch := rfl
@[simp] theorem setPins_tok (s : State) (f : Pins → Pins) : (setPins s f).tok = s.tok := rfl
@[simp] theorem setPins_steps (s : State) (f : Pins → Pins) : (setPins s f).steps = s.steps := rfl
@[simp] theorem setPins_lay (s : State) (f : Pins → Pins) : (setPins s f).lay = s.lay := rfl
@[simp] theorem setPins_tier (s : State) (f : Pins → Pins) : (setPins s f).tier = s.tier := rfl
@[simp] theorem setPins_atn (s : State) (f : Pins → Pins) : (setPins s f).atn = s.atn := rfl
@[simp] theorem setPins_nbu (s : State) (f : Pins → Pins) : (setPins s f).nbu = s.nbu := rfl
@[simp] theorem setPins_den (s : State) (f : Pins → Pins) : (setPins s f).den = s.den := rfl
@[simp] theorem setPins_inv (s : State) (f : Pins → Pins) : (setPins s f).inv = s.inv := rfl
@[simp] theorem setPins_mir (s : State) (f : Pins → Pins) : (setPins s f).mir = s.mir := rfl
@[simp] theorem setPins_maint (s : State) (f : Pins → Pins) : (setPins s f).maint = s.maint := rfl
@[simp] theorem setPins_trunk (s : State) (f : Pins → Pins) : (setPins s f).trunk = s.trunk := rfl
@[simp] theorem setPins_sec (s : State) (f : Pins → Pins) : (setPins s f).sec = s.sec := rfl
@[simp] theorem setPins_dbg (s : State) (f : Pins → Pins) : (setPins s f).dbg = s.dbg := rfl
@[simp] theorem setPins_link (s : State) (f : Pins → Pins) : (setPins s f).link = s.link := rfl
@[simp] theorem setPins_rma (s : State) (f : Pins → Pins) : (setPins s f).rma = s.rma := rfl
@[simp] theorem setPins_cam (s : State) (f : Pins → Pins) : (setPins s f).cam = s.cam := rfl
@[simp] theorem setPins_vsr (s : State) (f : Pins → Pins) : (setPins s f).vsr = s.vsr := rfl
@[simp] theorem setPins_sram (s : State) (f : Pins → Pins) : (setPins s f).sram = s.sram := rfl
@[simp] theorem setPins_out (s : State) (f : Pins → Pins) : (setPins s f).out = s.out := rfl
@[simp] theorem setPins_pending (s : State) (f : Pins → Pins) : (setPins s f).pending = s.pending := rfl

@[simp] theorem setSess_part (s : State) (x : Session) : (setSess s x).part = s.part := rfl
@[simp] theorem setSess_stepping (s : State) (x : Session) : (setSess s x).stepping = s.stepping := rfl
@[simp] theorem setSess_device (s : State) (x : Session) : (setSess s x).device = s.device := rfl
@[simp] theorem setSess_startCount (s : State) (x : Session) : (setSess s x).startCount = s.startCount := rfl
@[simp] theorem setSess_timebase (s : State) (x : Session) : (setSess s x).timebase = s.timebase := rfl
@[simp] theorem setSess_regs (s : State) (x : Session) : (setSess s x).regs = s.regs := rfl
@[simp] theorem setSess_clk (s : State) (x : Session) : (setSess s x).clk = s.clk := rfl
@[simp] theorem setSess_host (s : State) (x : Session) : (setSess s x).host = s.host := rfl
@[simp] theorem setSess_events (s : State) (x : Session) : (setSess s x).events = s.events := rfl
@[simp] theorem setSess_attached (s : State) (x : Session) : (setSess s x).attached = s.attached := rfl
@[simp] theorem setSess_capSeen (s : State) (x : Session) : (setSess s x).capSeen = s.capSeen := rfl
@[simp] theorem setSess_contexts (s : State) (x : Session) : (setSess s x).contexts = s.contexts := rfl
@[simp] theorem setSess_detaching (s : State) (x : Session) : (setSess s x).detaching = s.detaching := rfl
@[simp] theorem setSess_hatch (s : State) (x : Session) : (setSess s x).hatch = s.hatch := rfl
@[simp] theorem setSess_tok (s : State) (x : Session) : (setSess s x).tok = s.tok := rfl
@[simp] theorem setSess_steps (s : State) (x : Session) : (setSess s x).steps = s.steps := rfl
@[simp] theorem setSess_lay (s : State) (x : Session) : (setSess s x).lay = s.lay := rfl
@[simp] theorem setSess_tier (s : State) (x : Session) : (setSess s x).tier = s.tier := rfl
@[simp] theorem setSess_atn (s : State) (x : Session) : (setSess s x).atn = s.atn := rfl
@[simp] theorem setSess_nbu (s : State) (x : Session) : (setSess s x).nbu = s.nbu := rfl
@[simp] theorem setSess_den (s : State) (x : Session) : (setSess s x).den = s.den := rfl
@[simp] theorem setSess_inv (s : State) (x : Session) : (setSess s x).inv = s.inv := rfl
@[simp] theorem setSess_mir (s : State) (x : Session) : (setSess s x).mir = s.mir := rfl
@[simp] theorem setSess_maint (s : State) (x : Session) : (setSess s x).maint = s.maint := rfl
@[simp] theorem setSess_trunk (s : State) (x : Session) : (setSess s x).trunk = s.trunk := rfl
@[simp] theorem setSess_sec (s : State) (x : Session) : (setSess s x).sec = s.sec := rfl
@[simp] theorem setSess_dbg (s : State) (x : Session) : (setSess s x).dbg = s.dbg := rfl
@[simp] theorem setSess_link (s : State) (x : Session) : (setSess s x).link = s.link := rfl
@[simp] theorem setSess_rma (s : State) (x : Session) : (setSess s x).rma = s.rma := rfl
@[simp] theorem setSess_cam (s : State) (x : Session) : (setSess s x).cam = s.cam := rfl
@[simp] theorem setSess_vsr (s : State) (x : Session) : (setSess s x).vsr = s.vsr := rfl
@[simp] theorem setSess_sram (s : State) (x : Session) : (setSess s x).sram = s.sram := rfl
@[simp] theorem setSess_out (s : State) (x : Session) : (setSess s x).out = s.out := rfl
@[simp] theorem setSess_pending (s : State) (x : Session) : (setSess s x).pending = s.pending := rfl

@[simp] theorem setObj_part (s : State) (i : Nat) (o : Obj) : (setObj s i o).part = s.part := rfl
@[simp] theorem setObj_stepping (s : State) (i : Nat) (o : Obj) : (setObj s i o).stepping = s.stepping := rfl
@[simp] theorem setObj_device (s : State) (i : Nat) (o : Obj) : (setObj s i o).device = s.device := rfl
@[simp] theorem setObj_startCount (s : State) (i : Nat) (o : Obj) : (setObj s i o).startCount = s.startCount := rfl
@[simp] theorem setObj_timebase (s : State) (i : Nat) (o : Obj) : (setObj s i o).timebase = s.timebase := rfl
@[simp] theorem setObj_regs (s : State) (i : Nat) (o : Obj) : (setObj s i o).regs = s.regs := rfl
@[simp] theorem setObj_clk (s : State) (i : Nat) (o : Obj) : (setObj s i o).clk = s.clk := rfl
@[simp] theorem setObj_host (s : State) (i : Nat) (o : Obj) : (setObj s i o).host = s.host := rfl
@[simp] theorem setObj_events (s : State) (i : Nat) (o : Obj) : (setObj s i o).events = s.events := rfl
@[simp] theorem setObj_attached (s : State) (i : Nat) (o : Obj) : (setObj s i o).attached = s.attached := rfl
@[simp] theorem setObj_capSeen (s : State) (i : Nat) (o : Obj) : (setObj s i o).capSeen = s.capSeen := rfl
@[simp] theorem setObj_contexts (s : State) (i : Nat) (o : Obj) : (setObj s i o).contexts = s.contexts := rfl
@[simp] theorem setObj_detaching (s : State) (i : Nat) (o : Obj) : (setObj s i o).detaching = s.detaching := rfl
@[simp] theorem setObj_sess (s : State) (i : Nat) (o : Obj) : (setObj s i o).sess = s.sess := rfl
@[simp] theorem setObj_hatch (s : State) (i : Nat) (o : Obj) : (setObj s i o).hatch = s.hatch := rfl
@[simp] theorem setObj_tok (s : State) (i : Nat) (o : Obj) : (setObj s i o).tok = s.tok := rfl
@[simp] theorem setObj_steps (s : State) (i : Nat) (o : Obj) : (setObj s i o).steps = s.steps := rfl
@[simp] theorem setObj_lay (s : State) (i : Nat) (o : Obj) : (setObj s i o).lay = s.lay := rfl
@[simp] theorem setObj_atn (s : State) (i : Nat) (o : Obj) : (setObj s i o).atn = s.atn := rfl
@[simp] theorem setObj_nbu (s : State) (i : Nat) (o : Obj) : (setObj s i o).nbu = s.nbu := rfl
@[simp] theorem setObj_den (s : State) (i : Nat) (o : Obj) : (setObj s i o).den = s.den := rfl
@[simp] theorem setObj_inv (s : State) (i : Nat) (o : Obj) : (setObj s i o).inv = s.inv := rfl
@[simp] theorem setObj_mir (s : State) (i : Nat) (o : Obj) : (setObj s i o).mir = s.mir := rfl
@[simp] theorem setObj_maint (s : State) (i : Nat) (o : Obj) : (setObj s i o).maint = s.maint := rfl
@[simp] theorem setObj_trunk (s : State) (i : Nat) (o : Obj) : (setObj s i o).trunk = s.trunk := rfl
@[simp] theorem setObj_sec (s : State) (i : Nat) (o : Obj) : (setObj s i o).sec = s.sec := rfl
@[simp] theorem setObj_dbg (s : State) (i : Nat) (o : Obj) : (setObj s i o).dbg = s.dbg := rfl
@[simp] theorem setObj_link (s : State) (i : Nat) (o : Obj) : (setObj s i o).link = s.link := rfl
@[simp] theorem setObj_rma (s : State) (i : Nat) (o : Obj) : (setObj s i o).rma = s.rma := rfl
@[simp] theorem setObj_cam (s : State) (i : Nat) (o : Obj) : (setObj s i o).cam = s.cam := rfl
@[simp] theorem setObj_vsr (s : State) (i : Nat) (o : Obj) : (setObj s i o).vsr = s.vsr := rfl
@[simp] theorem setObj_sram (s : State) (i : Nat) (o : Obj) : (setObj s i o).sram = s.sram := rfl
@[simp] theorem setObj_out (s : State) (i : Nat) (o : Obj) : (setObj s i o).out = s.out := rfl
@[simp] theorem setObj_pending (s : State) (i : Nat) (o : Obj) : (setObj s i o).pending = s.pending := rfl

@[simp] theorem setLnk_part (s : State) (n : Nat) (l : Link) : (setLnk s n l).part = s.part := rfl
@[simp] theorem setLnk_stepping (s : State) (n : Nat) (l : Link) : (setLnk s n l).stepping = s.stepping := rfl
@[simp] theorem setLnk_device (s : State) (n : Nat) (l : Link) : (setLnk s n l).device = s.device := rfl
@[simp] theorem setLnk_startCount (s : State) (n : Nat) (l : Link) : (setLnk s n l).startCount = s.startCount := rfl
@[simp] theorem setLnk_timebase (s : State) (n : Nat) (l : Link) : (setLnk s n l).timebase = s.timebase := rfl
@[simp] theorem setLnk_regs (s : State) (n : Nat) (l : Link) : (setLnk s n l).regs = s.regs := rfl
@[simp] theorem setLnk_clk (s : State) (n : Nat) (l : Link) : (setLnk s n l).clk = s.clk := rfl
@[simp] theorem setLnk_host (s : State) (n : Nat) (l : Link) : (setLnk s n l).host = s.host := rfl
@[simp] theorem setLnk_events (s : State) (n : Nat) (l : Link) : (setLnk s n l).events = s.events := rfl
@[simp] theorem setLnk_attached (s : State) (n : Nat) (l : Link) : (setLnk s n l).attached = s.attached := rfl
@[simp] theorem setLnk_capSeen (s : State) (n : Nat) (l : Link) : (setLnk s n l).capSeen = s.capSeen := rfl
@[simp] theorem setLnk_contexts (s : State) (n : Nat) (l : Link) : (setLnk s n l).contexts = s.contexts := rfl
@[simp] theorem setLnk_detaching (s : State) (n : Nat) (l : Link) : (setLnk s n l).detaching = s.detaching := rfl
@[simp] theorem setLnk_sess (s : State) (n : Nat) (l : Link) : (setLnk s n l).sess = s.sess := rfl
@[simp] theorem setLnk_hatch (s : State) (n : Nat) (l : Link) : (setLnk s n l).hatch = s.hatch := rfl
@[simp] theorem setLnk_tok (s : State) (n : Nat) (l : Link) : (setLnk s n l).tok = s.tok := rfl
@[simp] theorem setLnk_steps (s : State) (n : Nat) (l : Link) : (setLnk s n l).steps = s.steps := rfl
@[simp] theorem setLnk_lay (s : State) (n : Nat) (l : Link) : (setLnk s n l).lay = s.lay := rfl
@[simp] theorem setLnk_tier (s : State) (n : Nat) (l : Link) : (setLnk s n l).tier = s.tier := rfl
@[simp] theorem setLnk_atn (s : State) (n : Nat) (l : Link) : (setLnk s n l).atn = s.atn := rfl
@[simp] theorem setLnk_nbu (s : State) (n : Nat) (l : Link) : (setLnk s n l).nbu = s.nbu := rfl
@[simp] theorem setLnk_den (s : State) (n : Nat) (l : Link) : (setLnk s n l).den = s.den := rfl
@[simp] theorem setLnk_inv (s : State) (n : Nat) (l : Link) : (setLnk s n l).inv = s.inv := rfl
@[simp] theorem setLnk_mir (s : State) (n : Nat) (l : Link) : (setLnk s n l).mir = s.mir := rfl
@[simp] theorem setLnk_maint (s : State) (n : Nat) (l : Link) : (setLnk s n l).maint = s.maint := rfl
@[simp] theorem setLnk_trunk (s : State) (n : Nat) (l : Link) : (setLnk s n l).trunk = s.trunk := rfl
@[simp] theorem setLnk_sec (s : State) (n : Nat) (l : Link) : (setLnk s n l).sec = s.sec := rfl
@[simp] theorem setLnk_dbg (s : State) (n : Nat) (l : Link) : (setLnk s n l).dbg = s.dbg := rfl
@[simp] theorem setLnk_rma (s : State) (n : Nat) (l : Link) : (setLnk s n l).rma = s.rma := rfl
@[simp] theorem setLnk_cam (s : State) (n : Nat) (l : Link) : (setLnk s n l).cam = s.cam := rfl
@[simp] theorem setLnk_vsr (s : State) (n : Nat) (l : Link) : (setLnk s n l).vsr = s.vsr := rfl
@[simp] theorem setLnk_sram (s : State) (n : Nat) (l : Link) : (setLnk s n l).sram = s.sram := rfl
@[simp] theorem setLnk_out (s : State) (n : Nat) (l : Link) : (setLnk s n l).out = s.out := rfl
@[simp] theorem setLnk_pending (s : State) (n : Nat) (l : Link) : (setLnk s n l).pending = s.pending := rfl

@[simp] theorem setEth_part (s : State) (p : Nat) (e : EthPort) : (setEth s p e).part = s.part := rfl
@[simp] theorem setEth_stepping (s : State) (p : Nat) (e : EthPort) : (setEth s p e).stepping = s.stepping := rfl
@[simp] theorem setEth_device (s : State) (p : Nat) (e : EthPort) : (setEth s p e).device = s.device := rfl
@[simp] theorem setEth_startCount (s : State) (p : Nat) (e : EthPort) : (setEth s p e).startCount = s.startCount := rfl
@[simp] theorem setEth_timebase (s : State) (p : Nat) (e : EthPort) : (setEth s p e).timebase = s.timebase := rfl
@[simp] theorem setEth_regs (s : State) (p : Nat) (e : EthPort) : (setEth s p e).regs = s.regs := rfl
@[simp] theorem setEth_clk (s : State) (p : Nat) (e : EthPort) : (setEth s p e).clk = s.clk := rfl
@[simp] theorem setEth_host (s : State) (p : Nat) (e : EthPort) : (setEth s p e).host = s.host := rfl
@[simp] theorem setEth_events (s : State) (p : Nat) (e : EthPort) : (setEth s p e).events = s.events := rfl
@[simp] theorem setEth_attached (s : State) (p : Nat) (e : EthPort) : (setEth s p e).attached = s.attached := rfl
@[simp] theorem setEth_capSeen (s : State) (p : Nat) (e : EthPort) : (setEth s p e).capSeen = s.capSeen := rfl
@[simp] theorem setEth_contexts (s : State) (p : Nat) (e : EthPort) : (setEth s p e).contexts = s.contexts := rfl
@[simp] theorem setEth_detaching (s : State) (p : Nat) (e : EthPort) : (setEth s p e).detaching = s.detaching := rfl
@[simp] theorem setEth_sess (s : State) (p : Nat) (e : EthPort) : (setEth s p e).sess = s.sess := rfl
@[simp] theorem setEth_hatch (s : State) (p : Nat) (e : EthPort) : (setEth s p e).hatch = s.hatch := rfl
@[simp] theorem setEth_tok (s : State) (p : Nat) (e : EthPort) : (setEth s p e).tok = s.tok := rfl
@[simp] theorem setEth_steps (s : State) (p : Nat) (e : EthPort) : (setEth s p e).steps = s.steps := rfl
@[simp] theorem setEth_lay (s : State) (p : Nat) (e : EthPort) : (setEth s p e).lay = s.lay := rfl
@[simp] theorem setEth_tier (s : State) (p : Nat) (e : EthPort) : (setEth s p e).tier = s.tier := rfl
@[simp] theorem setEth_atn (s : State) (p : Nat) (e : EthPort) : (setEth s p e).atn = s.atn := rfl
@[simp] theorem setEth_nbu (s : State) (p : Nat) (e : EthPort) : (setEth s p e).nbu = s.nbu := rfl
@[simp] theorem setEth_den (s : State) (p : Nat) (e : EthPort) : (setEth s p e).den = s.den := rfl
@[simp] theorem setEth_inv (s : State) (p : Nat) (e : EthPort) : (setEth s p e).inv = s.inv := rfl
@[simp] theorem setEth_mir (s : State) (p : Nat) (e : EthPort) : (setEth s p e).mir = s.mir := rfl
@[simp] theorem setEth_maint (s : State) (p : Nat) (e : EthPort) : (setEth s p e).maint = s.maint := rfl
@[simp] theorem setEth_trunk (s : State) (p : Nat) (e : EthPort) : (setEth s p e).trunk = s.trunk := rfl
@[simp] theorem setEth_sec (s : State) (p : Nat) (e : EthPort) : (setEth s p e).sec = s.sec := rfl
@[simp] theorem setEth_dbg (s : State) (p : Nat) (e : EthPort) : (setEth s p e).dbg = s.dbg := rfl
@[simp] theorem setEth_rma (s : State) (p : Nat) (e : EthPort) : (setEth s p e).rma = s.rma := rfl
@[simp] theorem setEth_cam (s : State) (p : Nat) (e : EthPort) : (setEth s p e).cam = s.cam := rfl
@[simp] theorem setEth_vsr (s : State) (p : Nat) (e : EthPort) : (setEth s p e).vsr = s.vsr := rfl
@[simp] theorem setEth_sram (s : State) (p : Nat) (e : EthPort) : (setEth s p e).sram = s.sram := rfl
@[simp] theorem setEth_out (s : State) (p : Nat) (e : EthPort) : (setEth s p e).out = s.out := rfl
@[simp] theorem setEth_pending (s : State) (p : Nat) (e : EthPort) : (setEth s p e).pending = s.pending := rfl

@[simp] theorem setSem_part (s : State) (i : Nat) (x : Sem) : (setSem s i x).part = s.part := rfl
@[simp] theorem setSem_stepping (s : State) (i : Nat) (x : Sem) : (setSem s i x).stepping = s.stepping := rfl
@[simp] theorem setSem_device (s : State) (i : Nat) (x : Sem) : (setSem s i x).device = s.device := rfl
@[simp] theorem setSem_startCount (s : State) (i : Nat) (x : Sem) : (setSem s i x).startCount = s.startCount := rfl
@[simp] theorem setSem_timebase (s : State) (i : Nat) (x : Sem) : (setSem s i x).timebase = s.timebase := rfl
@[simp] theorem setSem_regs (s : State) (i : Nat) (x : Sem) : (setSem s i x).regs = s.regs := rfl
@[simp] theorem setSem_clk (s : State) (i : Nat) (x : Sem) : (setSem s i x).clk = s.clk := rfl
@[simp] theorem setSem_host (s : State) (i : Nat) (x : Sem) : (setSem s i x).host = s.host := rfl
@[simp] theorem setSem_events (s : State) (i : Nat) (x : Sem) : (setSem s i x).events = s.events := rfl
@[simp] theorem setSem_attached (s : State) (i : Nat) (x : Sem) : (setSem s i x).attached = s.attached := rfl
@[simp] theorem setSem_capSeen (s : State) (i : Nat) (x : Sem) : (setSem s i x).capSeen = s.capSeen := rfl
@[simp] theorem setSem_contexts (s : State) (i : Nat) (x : Sem) : (setSem s i x).contexts = s.contexts := rfl
@[simp] theorem setSem_detaching (s : State) (i : Nat) (x : Sem) : (setSem s i x).detaching = s.detaching := rfl
@[simp] theorem setSem_sess (s : State) (i : Nat) (x : Sem) : (setSem s i x).sess = s.sess := rfl
@[simp] theorem setSem_hatch (s : State) (i : Nat) (x : Sem) : (setSem s i x).hatch = s.hatch := rfl
@[simp] theorem setSem_tok (s : State) (i : Nat) (x : Sem) : (setSem s i x).tok = s.tok := rfl
@[simp] theorem setSem_lay (s : State) (i : Nat) (x : Sem) : (setSem s i x).lay = s.lay := rfl
@[simp] theorem setSem_tier (s : State) (i : Nat) (x : Sem) : (setSem s i x).tier = s.tier := rfl
@[simp] theorem setSem_atn (s : State) (i : Nat) (x : Sem) : (setSem s i x).atn = s.atn := rfl
@[simp] theorem setSem_nbu (s : State) (i : Nat) (x : Sem) : (setSem s i x).nbu = s.nbu := rfl
@[simp] theorem setSem_den (s : State) (i : Nat) (x : Sem) : (setSem s i x).den = s.den := rfl
@[simp] theorem setSem_inv (s : State) (i : Nat) (x : Sem) : (setSem s i x).inv = s.inv := rfl
@[simp] theorem setSem_mir (s : State) (i : Nat) (x : Sem) : (setSem s i x).mir = s.mir := rfl
@[simp] theorem setSem_maint (s : State) (i : Nat) (x : Sem) : (setSem s i x).maint = s.maint := rfl
@[simp] theorem setSem_trunk (s : State) (i : Nat) (x : Sem) : (setSem s i x).trunk = s.trunk := rfl
@[simp] theorem setSem_sec (s : State) (i : Nat) (x : Sem) : (setSem s i x).sec = s.sec := rfl
@[simp] theorem setSem_dbg (s : State) (i : Nat) (x : Sem) : (setSem s i x).dbg = s.dbg := rfl
@[simp] theorem setSem_link (s : State) (i : Nat) (x : Sem) : (setSem s i x).link = s.link := rfl
@[simp] theorem setSem_rma (s : State) (i : Nat) (x : Sem) : (setSem s i x).rma = s.rma := rfl
@[simp] theorem setSem_cam (s : State) (i : Nat) (x : Sem) : (setSem s i x).cam = s.cam := rfl
@[simp] theorem setSem_vsr (s : State) (i : Nat) (x : Sem) : (setSem s i x).vsr = s.vsr := rfl
@[simp] theorem setSem_sram (s : State) (i : Nat) (x : Sem) : (setSem s i x).sram = s.sram := rfl
@[simp] theorem setSem_out (s : State) (i : Nat) (x : Sem) : (setSem s i x).out = s.out := rfl
@[simp] theorem setSem_pending (s : State) (i : Nat) (x : Sem) : (setSem s i x).pending = s.pending := rfl

@[simp] theorem setShadow_part (s : State) (d : MirShadow) : (setShadow s d).part = s.part := rfl
@[simp] theorem setShadow_stepping (s : State) (d : MirShadow) : (setShadow s d).stepping = s.stepping := rfl
@[simp] theorem setShadow_device (s : State) (d : MirShadow) : (setShadow s d).device = s.device := rfl
@[simp] theorem setShadow_startCount (s : State) (d : MirShadow) : (setShadow s d).startCount = s.startCount := rfl
@[simp] theorem setShadow_timebase (s : State) (d : MirShadow) : (setShadow s d).timebase = s.timebase := rfl
@[simp] theorem setShadow_regs (s : State) (d : MirShadow) : (setShadow s d).regs = s.regs := rfl
@[simp] theorem setShadow_clk (s : State) (d : MirShadow) : (setShadow s d).clk = s.clk := rfl
@[simp] theorem setShadow_host (s : State) (d : MirShadow) : (setShadow s d).host = s.host := rfl
@[simp] theorem setShadow_events (s : State) (d : MirShadow) : (setShadow s d).events = s.events := rfl
@[simp] theorem setShadow_attached (s : State) (d : MirShadow) : (setShadow s d).attached = s.attached := rfl
@[simp] theorem setShadow_capSeen (s : State) (d : MirShadow) : (setShadow s d).capSeen = s.capSeen := rfl
@[simp] theorem setShadow_contexts (s : State) (d : MirShadow) : (setShadow s d).contexts = s.contexts := rfl
@[simp] theorem setShadow_detaching (s : State) (d : MirShadow) : (setShadow s d).detaching = s.detaching := rfl
@[simp] theorem setShadow_sess (s : State) (d : MirShadow) : (setShadow s d).sess = s.sess := rfl
@[simp] theorem setShadow_hatch (s : State) (d : MirShadow) : (setShadow s d).hatch = s.hatch := rfl
@[simp] theorem setShadow_tok (s : State) (d : MirShadow) : (setShadow s d).tok = s.tok := rfl
@[simp] theorem setShadow_steps (s : State) (d : MirShadow) : (setShadow s d).steps = s.steps := rfl
@[simp] theorem setShadow_lay (s : State) (d : MirShadow) : (setShadow s d).lay = s.lay := rfl
@[simp] theorem setShadow_tier (s : State) (d : MirShadow) : (setShadow s d).tier = s.tier := rfl
@[simp] theorem setShadow_atn (s : State) (d : MirShadow) : (setShadow s d).atn = s.atn := rfl
@[simp] theorem setShadow_nbu (s : State) (d : MirShadow) : (setShadow s d).nbu = s.nbu := rfl
@[simp] theorem setShadow_den (s : State) (d : MirShadow) : (setShadow s d).den = s.den := rfl
@[simp] theorem setShadow_inv (s : State) (d : MirShadow) : (setShadow s d).inv = s.inv := rfl
@[simp] theorem setShadow_maint (s : State) (d : MirShadow) : (setShadow s d).maint = s.maint := rfl
@[simp] theorem setShadow_trunk (s : State) (d : MirShadow) : (setShadow s d).trunk = s.trunk := rfl
@[simp] theorem setShadow_sec (s : State) (d : MirShadow) : (setShadow s d).sec = s.sec := rfl
@[simp] theorem setShadow_dbg (s : State) (d : MirShadow) : (setShadow s d).dbg = s.dbg := rfl
@[simp] theorem setShadow_link (s : State) (d : MirShadow) : (setShadow s d).link = s.link := rfl
@[simp] theorem setShadow_rma (s : State) (d : MirShadow) : (setShadow s d).rma = s.rma := rfl
@[simp] theorem setShadow_cam (s : State) (d : MirShadow) : (setShadow s d).cam = s.cam := rfl
@[simp] theorem setShadow_vsr (s : State) (d : MirShadow) : (setShadow s d).vsr = s.vsr := rfl
@[simp] theorem setShadow_sram (s : State) (d : MirShadow) : (setShadow s d).sram = s.sram := rfl
@[simp] theorem setShadow_out (s : State) (d : MirShadow) : (setShadow s d).out = s.out := rfl
@[simp] theorem setShadow_pending (s : State) (d : MirShadow) : (setShadow s d).pending = s.pending := rfl

@[simp] theorem setConn_part (s : State) (c : Conn) : (setConn s c).part = s.part := rfl
@[simp] theorem setConn_stepping (s : State) (c : Conn) : (setConn s c).stepping = s.stepping := rfl
@[simp] theorem setConn_device (s : State) (c : Conn) : (setConn s c).device = s.device := rfl
@[simp] theorem setConn_startCount (s : State) (c : Conn) : (setConn s c).startCount = s.startCount := rfl
@[simp] theorem setConn_timebase (s : State) (c : Conn) : (setConn s c).timebase = s.timebase := rfl
@[simp] theorem setConn_regs (s : State) (c : Conn) : (setConn s c).regs = s.regs := rfl
@[simp] theorem setConn_clk (s : State) (c : Conn) : (setConn s c).clk = s.clk := rfl
@[simp] theorem setConn_host (s : State) (c : Conn) : (setConn s c).host = s.host := rfl
@[simp] theorem setConn_events (s : State) (c : Conn) : (setConn s c).events = s.events := rfl
@[simp] theorem setConn_attached (s : State) (c : Conn) : (setConn s c).attached = s.attached := rfl
@[simp] theorem setConn_capSeen (s : State) (c : Conn) : (setConn s c).capSeen = s.capSeen := rfl
@[simp] theorem setConn_contexts (s : State) (c : Conn) : (setConn s c).contexts = s.contexts := rfl
@[simp] theorem setConn_detaching (s : State) (c : Conn) : (setConn s c).detaching = s.detaching := rfl
@[simp] theorem setConn_sess (s : State) (c : Conn) : (setConn s c).sess = s.sess := rfl
@[simp] theorem setConn_hatch (s : State) (c : Conn) : (setConn s c).hatch = s.hatch := rfl
@[simp] theorem setConn_tok (s : State) (c : Conn) : (setConn s c).tok = s.tok := rfl
@[simp] theorem setConn_steps (s : State) (c : Conn) : (setConn s c).steps = s.steps := rfl
@[simp] theorem setConn_lay (s : State) (c : Conn) : (setConn s c).lay = s.lay := rfl
@[simp] theorem setConn_tier (s : State) (c : Conn) : (setConn s c).tier = s.tier := rfl
@[simp] theorem setConn_atn (s : State) (c : Conn) : (setConn s c).atn = s.atn := rfl
@[simp] theorem setConn_nbu (s : State) (c : Conn) : (setConn s c).nbu = s.nbu := rfl
@[simp] theorem setConn_den (s : State) (c : Conn) : (setConn s c).den = s.den := rfl
@[simp] theorem setConn_inv (s : State) (c : Conn) : (setConn s c).inv = s.inv := rfl
@[simp] theorem setConn_mir (s : State) (c : Conn) : (setConn s c).mir = s.mir := rfl
@[simp] theorem setConn_maint (s : State) (c : Conn) : (setConn s c).maint = s.maint := rfl
@[simp] theorem setConn_trunk (s : State) (c : Conn) : (setConn s c).trunk = s.trunk := rfl
@[simp] theorem setConn_sec (s : State) (c : Conn) : (setConn s c).sec = s.sec := rfl
@[simp] theorem setConn_dbg (s : State) (c : Conn) : (setConn s c).dbg = s.dbg := rfl
@[simp] theorem setConn_link (s : State) (c : Conn) : (setConn s c).link = s.link := rfl
@[simp] theorem setConn_cam (s : State) (c : Conn) : (setConn s c).cam = s.cam := rfl
@[simp] theorem setConn_vsr (s : State) (c : Conn) : (setConn s c).vsr = s.vsr := rfl
@[simp] theorem setConn_sram (s : State) (c : Conn) : (setConn s c).sram = s.sram := rfl
@[simp] theorem setConn_out (s : State) (c : Conn) : (setConn s c).out = s.out := rfl
@[simp] theorem setConn_pending (s : State) (c : Conn) : (setConn s c).pending = s.pending := rfl

@[simp] theorem keepFixed_part (s t : State) : (keepFixed s t).part = s.part := rfl
@[simp] theorem keepFixed_stepping (s t : State) : (keepFixed s t).stepping = s.stepping := rfl
@[simp] theorem keepFixed_device (s t : State) : (keepFixed s t).device = t.device := rfl
@[simp] theorem keepFixed_startCount (s t : State) : (keepFixed s t).startCount = t.startCount := rfl
@[simp] theorem keepFixed_timebase (s t : State) : (keepFixed s t).timebase = t.timebase := rfl
@[simp] theorem keepFixed_regs (s t : State) : (keepFixed s t).regs = t.regs := rfl
@[simp] theorem keepFixed_clk (s t : State) : (keepFixed s t).clk = t.clk := rfl
@[simp] theorem keepFixed_host (s t : State) : (keepFixed s t).host = t.host := rfl
@[simp] theorem keepFixed_events (s t : State) : (keepFixed s t).events = t.events := rfl
@[simp] theorem keepFixed_attached (s t : State) : (keepFixed s t).attached = t.attached := rfl
@[simp] theorem keepFixed_capSeen (s t : State) : (keepFixed s t).capSeen = t.capSeen := rfl
@[simp] theorem keepFixed_contexts (s t : State) : (keepFixed s t).contexts = t.contexts := rfl
@[simp] theorem keepFixed_detaching (s t : State) : (keepFixed s t).detaching = t.detaching := rfl
@[simp] theorem keepFixed_sess (s t : State) : (keepFixed s t).sess = t.sess := rfl
@[simp] theorem keepFixed_hatch (s t : State) : (keepFixed s t).hatch = t.hatch := rfl
@[simp] theorem keepFixed_tok (s t : State) : (keepFixed s t).tok = t.tok := rfl
@[simp] theorem keepFixed_steps (s t : State) : (keepFixed s t).steps = t.steps := rfl
@[simp] theorem keepFixed_lay (s t : State) : (keepFixed s t).lay = t.lay := rfl
@[simp] theorem keepFixed_tier (s t : State) : (keepFixed s t).tier = t.tier := rfl
@[simp] theorem keepFixed_atn (s t : State) : (keepFixed s t).atn = t.atn := rfl
@[simp] theorem keepFixed_nbu (s t : State) : (keepFixed s t).nbu = t.nbu := rfl
@[simp] theorem keepFixed_den (s t : State) : (keepFixed s t).den = t.den := rfl
@[simp] theorem keepFixed_inv (s t : State) : (keepFixed s t).inv = t.inv := rfl
@[simp] theorem keepFixed_mir (s t : State) : (keepFixed s t).mir = t.mir := rfl
@[simp] theorem keepFixed_maint (s t : State) : (keepFixed s t).maint = t.maint := rfl
@[simp] theorem keepFixed_trunk (s t : State) : (keepFixed s t).trunk = t.trunk := rfl
@[simp] theorem keepFixed_sec (s t : State) : (keepFixed s t).sec = t.sec := rfl
@[simp] theorem keepFixed_dbg (s t : State) : (keepFixed s t).dbg = t.dbg := rfl
@[simp] theorem keepFixed_link (s t : State) : (keepFixed s t).link = t.link := rfl
@[simp] theorem keepFixed_rma (s t : State) : (keepFixed s t).rma = t.rma := rfl
@[simp] theorem keepFixed_cam (s t : State) : (keepFixed s t).cam = t.cam := rfl
@[simp] theorem keepFixed_vsr (s t : State) : (keepFixed s t).vsr = t.vsr := rfl
@[simp] theorem keepFixed_sram (s t : State) : (keepFixed s t).sram = t.sram := rfl
@[simp] theorem keepFixed_out (s t : State) : (keepFixed s t).out = t.out := rfl
@[simp] theorem keepFixed_pending (s t : State) : (keepFixed s t).pending = s.pending := rfl

end Sys2Proof.Machine
end

