-- ==== Sys2Proof/Laws/Tables.lean ====
section
/-! SUPPORT. Reading after writing in the sparse tables and in the register file, and their canonical forms. -/
namespace Sys2Proof.Machine

@[simp] theorem tget?_tset_same {α : Type} (t : Tbl α) (k : Nat) (a : α) : tget? (tset t k a) k = some a := by
  induction t with
  | nil => simp [tset, tget?]
  | cons p t ih =>
    obtain ⟨j, b⟩ := p
    unfold tset
    split
    · simp [tget?]
    · split
      · simp [tget?]
      · have : j ≠ k := by omega
        simp [tget?, this, ih]

theorem tget?_tset_other {α : Type} (t : Tbl α) (k i : Nat) (a : α) (h : i ≠ k) : tget? (tset t k a) i = tget? t i := by
  induction t with
  | nil => simp [tset, tget?]; omega
  | cons p t ih =>
    obtain ⟨j, b⟩ := p
    unfold tset
    split
    · have : k ≠ i := by omega
      simp [tget?, this]
    · split
      · rename_i _ e
        have h1 : k ≠ i := by omega
        have h2 : j ≠ i := by omega
        simp [tget?, h1, h2]
      · simp [tget?, ih]

theorem tget?_tdel_same {α : Type} (t : Tbl α) (k : Nat) : tget? (tdel t k) k = none := by
  induction t with
  | nil => rfl
  | cons p t ih =>
    obtain ⟨j, b⟩ := p
    unfold tdel
    split
    · exact ih
    · rename_i h; simp [tget?, h, ih]

theorem tget?_tdel_other {α : Type} (t : Tbl α) (k i : Nat) (h : i ≠ k) : tget? (tdel t k) i = tget? t i := by
  induction t with
  | nil => rfl
  | cons p t ih =>
    obtain ⟨j, b⟩ := p
    unfold tdel
    split
    · rename_i e
      have : j ≠ i := by omega
      simp [tget?, this, ih]
    · simp [tget?, ih]

theorem tset_tset {α : Type} (t : Tbl α) (k : Nat) (a b : α) : tset (tset t k a) k b = tset t k b := by
  induction t with
  | nil => simp [tset]
  | cons p t ih =>
    obtain ⟨j, c⟩ := p
    by_cases h1 : k < j
    · simp [tset, h1]
    · by_cases h2 : k = j
      · simp [tset, h2]
      · simp [tset, h1, h2, ih]

@[simp] theorem tget_tset_same {α : Type} (d : α) (t : Tbl α) (k : Nat) (a : α) : tget d (tset t k a) k = a := by simp [tget]

/-- A key above every key of a strictly rising table's tail stays below what `tset` inserts beyond it. -/
theorem keysRise_tset_cons {α : Type} (j : Nat) (b : α) (t : Tbl α) (k : Nat) (a : α) (hjk : j < k)
    (h : keysRise ((j, b) :: t) = true) (ih : keysRise (tset t k a) = true) : keysRise ((j, b) :: tset t k a) = true := by
  cases t with
  | nil => simp [tset, keysRise, hjk]
  | cons q t =>
    obtain ⟨i, c⟩ := q
    simp only [keysRise, Bool.and_eq_true, decide_eq_true_eq] at h
    unfold tset at ih ⊢
    split
    · rename_i hk
      rw [if_pos hk] at ih
      simp only [keysRise, Bool.and_eq_true, decide_eq_true_eq] at ih ⊢
      exact ⟨hjk, ih⟩
    · split
      · rename_i h1 h2
        rw [if_neg h1, if_pos h2] at ih
        subst h2
        cases t with
        | nil => simp [keysRise, hjk]
        | cons r t =>
          simp only [keysRise, Bool.and_eq_true, decide_eq_true_eq] at ih h ⊢
          exact ⟨hjk, ih⟩
      · rename_i h1 h2
        rw [if_neg h1, if_neg h2] at ih
        cases hx : tset t k a with
        | nil => simp [keysRise, h.1]
        | cons r u =>
          obtain ⟨x, y⟩ := r
          rw [hx] at ih
          have hij : j < i := h.1
          show (decide (j < i) && keysRise ((i, c) :: (x, y) :: u)) = true
          rw [ih, decide_eq_true hij]; rfl

theorem keysRise_tail {α : Type} (p : Nat × α) (t : Tbl α) (h : keysRise (p :: t) = true) : keysRise t = true := by
  cases t with
  | nil => rfl
  | cons q t => simp only [keysRise, Bool.and_eq_true] at h; exact h.2

/-- Setting a key keeps the keys rising. -/
theorem keysRise_tset {α : Type} (t : Tbl α) (k : Nat) (a : α) (h : keysRise t = true) : keysRise (tset t k a) = true := by
  induction t with
  | nil => rfl
  | cons p t ih =>
    obtain ⟨j, b⟩ := p
    have ht := ih (keysRise_tail _ _ h)
    by_cases h1 : k < j
    · unfold tset
      rw [if_pos h1]
      cases t with
      | nil => simp [keysRise, h1]
      | cons q t => simp only [keysRise, Bool.and_eq_true, decide_eq_true_eq] at h ⊢; exact ⟨h1, h⟩
    · by_cases h2 : k = j
      · unfold tset
        rw [if_neg h1, if_pos h2]
        subst h2
        cases t with
        | nil => rfl
        | cons q t => simpa [keysRise] using h
      · have := keysRise_tset_cons j b t k a (by omega) h ht
        unfold tset
        rw [if_neg h1, if_neg h2]
        exact this

/-! ### The register file -/

theorem regGet_regPut_same (r : List (Nat × Nat)) (k reset v : Nat) : regGet (regPut r k reset v) k reset = v := by
  unfold regPut regGet
  split
  · rename_i h; rw [tget?_tdel_same, h]; rfl
  · rw [tget?_tset_same]; rfl

theorem regGet_regPut_other (r : List (Nat × Nat)) (k i reset v d : Nat) (h : i ≠ k) : regGet (regPut r k reset v) i d = regGet r i d := by
  unfold regPut regGet
  split
  · rw [tget?_tdel_other _ _ _ h]
  · rw [tget?_tset_other _ _ _ _ h]

/-- A field reads what was stored last, cut to its width. -/
@[simp] theorem fldAt_setFldAt (s : State) (f : Field) (is : List Nat) (v : Nat) :
    fldAt (setFldAt s f is v) f is = v % 2 ^ f.width := regGet_regPut_same _ _ _ _

@[simp] theorem fld_setFld (s : State) (f : Field) (v : Nat) : fld (setFld s f v) f = v % 2 ^ f.width := regGet_regPut_same _ _ _ _

/-- A field at another key of the register file is left alone. -/
theorem fldAt_setFldAt_other (s : State) (f g : Field) (is js : List Nat) (v : Nat) (h : keyOf g js ≠ keyOf f is) :
    fldAt (setFldAt s f is v) g js = fldAt s g js := regGet_regPut_other _ _ _ _ _ _ h

end Sys2Proof.Machine
end

