-- ==== Sys2Proof/Laws/Fields.lean ====
section
/-! SUPPORT. What a register write stores: the field operations change the register file alone. -/
namespace Sys2Proof.Machine

/-- Storing the fields a write covers changes the register file alone. -/
theorem storeFields_frame (fs : List Field) (s : State) (w : RegWrite) (is : List Nat) :
    storeFields s w is fs = { s with regs := (storeFields s w is fs).regs } := by
  induction fs generalizing s with
  | nil => rfl
  | cons f fs ih =>
    have step : storeFields s w is (f :: fs) = storeFields (match wget w f with | some v => setFldAt s f is v | none => s) w is fs := rfl
    rw [step, ih]
    split <;> rfl

@[simp] theorem storeFields_host (fs : List Field) (s : State) (w : RegWrite) (is : List Nat) : (storeFields s w is fs).host = s.host := by
  rw [storeFields_frame]

@[simp] theorem storeFields_clk (fs : List Field) (s : State) (w : RegWrite) (is : List Nat) : (storeFields s w is fs).clk = s.clk := by
  rw [storeFields_frame]

@[simp] theorem storeFields_sram (fs : List Field) (s : State) (w : RegWrite) (is : List Nat) : (storeFields s w is fs).sram = s.sram := by
  rw [storeFields_frame]

/-- Counting changes the register file alone. -/
theorem bumpAt_frame (s : State) (f : Field) (is : List Nat) (n : Nat) : bumpAt s f is n = { s with regs := (bumpAt s f is n).regs } := rfl

/-- A counter field after counting: the sum cut to its width. -/
theorem fldAt_bumpAt (s : State) (f : Field) (is : List Nat) (n : Nat) : fldAt (bumpAt s f is n) f is = (fldAt s f is + n) % 2 ^ f.width :=
  fldAt_setFldAt _ _ _ _

/-- A vector is sent, made pending, or suppressed: outputs and the register file alone can change. -/
theorem sendVector_frame (s : State) (v : Nat) :
    sendVector s v = { s with out := (sendVector s v).out, regs := (sendVector s v).regs } := by
  unfold sendVector
  split
  · rfl
  · split <;> rfl

/-- A cause bit changes the register file, outputs and the arming of err_vector alone. -/
theorem raiseCause_frame (s : State) (i : Nat) :
    raiseCause s i = { s with out := (raiseCause s i).out, regs := (raiseCause s i).regs,
                              host := { s.host with errArmed := (raiseCause s i).host.errArmed } } := by
  unfold raiseCause
  split
  · rfl
  · dsimp only
    split
    · rfl
    · rw [sendVector_frame]; rfl

end Sys2Proof.Machine
end

