-- ==== Sys2Proof/Laws/Events.lean ====
section
/-! SUPPORT. What posting an event can change: the register file, the host port, the event collector and the outputs alone. -/
namespace Sys2Proof.Machine

/-- `t` differs from `s` in the outputs, the register file, the host port and the event collector alone. -/
def Posts (s t : State) : Prop := ∃ o r h e, t = { s with out := o, regs := r, host := h, events := e }

theorem Posts.refl (s : State) : Posts s s := ⟨_, _, _, _, rfl⟩

theorem Posts.trans {s t u : State} (h : Posts s t) (k : Posts t u) : Posts s u := by
  obtain ⟨_, _, _, _, rfl⟩ := h
  obtain ⟨_, _, _, _, rfl⟩ := k
  exact ⟨_, _, _, _, rfl⟩

theorem posts_bump (s : State) (f : Field) (n : Nat) : Posts s (bump s f n) := ⟨_, _, _, _, rfl⟩

theorem posts_sendVector (s : State) (v : Nat) : Posts s (sendVector s v) := by
  rw [sendVector_frame]; exact ⟨_, _, _, _, rfl⟩

theorem posts_raiseCause (s : State) (i : Nat) : Posts s (raiseCause s i) := by
  rw [raiseCause_frame]; exact ⟨_, _, _, _, rfl⟩

theorem posts_countDrop (s : State) (cls : Nat) : Posts s (countDrop s cls) := by
  unfold countDrop
  split
  · exact posts_bump ..
  · exact posts_bump ..
  · exact posts_bump ..
  · exact Posts.refl s

theorem posts_writeEvent (s : State) (r : EventRec) : Posts s (writeEvent s r) := by
  unfold writeEvent
  dsimp only
  split
  · exact Posts.trans ⟨_, _, _, _, rfl⟩ (posts_sendVector _ _)
  · exact ⟨_, _, _, _, rfl⟩

theorem posts_holdRecord (s : State) (r : EventRec) : Posts s (holdRecord s r) := by
  unfold holdRecord
  dsimp only
  generalize (if s.events.setUp = true then 4096 else 64) = cap
  split
  · exact ⟨_, _, _, _, rfl⟩
  · split
    · split
      · exact Posts.trans (posts_countDrop s r.cls) (Posts.trans ⟨_, _, _, _, rfl⟩ (posts_raiseCause _ _))
      · exact Posts.trans (posts_countDrop s r.cls) ⟨_, _, _, _, rfl⟩
    · split
      · exact ⟨_, _, _, _, rfl⟩
      · split
        · exact Posts.trans ⟨_, _, _, _, rfl⟩ (posts_raiseCause _ _)
        · exact Posts.trans (posts_countDrop s _) (Posts.trans ⟨_, _, _, _, rfl⟩ (posts_raiseCause _ _))

theorem posts_postRecord (s : State) (r : EventRec) : Posts s (postRecord s r) := by
  unfold postRecord
  have h : Posts s (if r.cls = 0 then raiseCause s 0 else s) := by
    split
    · exact posts_raiseCause s 0
    · exact Posts.refl s
  generalize (if r.cls = 0 then raiseCause s 0 else s) = u at h ⊢
  dsimp only
  split
  · exact h.trans (Posts.trans ⟨_, _, _, _, rfl⟩ (posts_writeEvent _ _))
  · exact h.trans (Posts.trans ⟨_, _, _, _, rfl⟩ (posts_holdRecord _ _))

theorem posts_postLimited (s : State) (r : EventRec) : Posts s (postLimited s r) := by
  unfold postLimited
  split
  · exact Posts.trans ⟨_, _, _, _, rfl⟩ (posts_postRecord _ _)
  · exact posts_countDrop s r.cls

theorem posts_report (s : State) (code i e : Nat) (p : List Nat) : Posts s (report s code i e p) := by
  unfold report
  dsimp only
  split
  · exact ⟨_, _, _, _, rfl⟩
  · refine Posts.trans ?_ (Posts.trans ⟨_, _, _, _, rfl⟩ (posts_postLimited _ _))
    split
    · exact Posts.refl s
    · split
      · exact Posts.trans ⟨_, _, _, _, rfl⟩ (Posts.trans (posts_bump _ _ _) (posts_postRecord _ _))
      · exact Posts.refl s

/-- A report changes the outputs, the register file, the host port and the event collector alone. -/
theorem report_frame (s : State) (code i e : Nat) (p : List Nat) :
    report s code i e p = { s with out := (report s code i e p).out, regs := (report s code i e p).regs, host := (report s code i e p).host,
                                   events := (report s code i e p).events } := by
  obtain ⟨o, r, h, v, eq⟩ := posts_report s code i e p
  rw [eq]

@[simp] theorem report_device (s : State) (code i e : Nat) (p : List Nat) : (report s code i e p).device = s.device := by rw [report_frame]

@[simp] theorem report_clk (s : State) (code i e : Nat) (p : List Nat) : (report s code i e p).clk = s.clk := by rw [report_frame]

end Sys2Proof.Machine
end

