-- ==== Sys2Proof/Laws/Gates.lean ====
section
/-! SUPPORT. What the gates that every meaning passes through do: open, they run the effect; shut, they leave the state. -/
namespace Sys2Proof.Machine


/-- A command always answers a next state with the queue, the part and the stepping as they were. -/
theorem run_keeps (s : State) (f : State → State) :
    ∃ t, run s f = .next t ∧ t.pending = s.pending ∧ t.part = s.part ∧ t.stepping = s.stepping :=
  ⟨_, rfl, rfl, rfl, rfl⟩

theorem whenUp_open {s : State} (f : State → State) (h : serving s) : whenUp f s = f s := if_pos h

theorem whenUp_shut {s : State} (f : State → State) (h : ¬ serving s) : whenUp f s = s := if_neg h

theorem whenLive_open {s : State} (f : State → State) (h : live s) : whenLive f s = f s := by
  rcases h with h | h <;> simp [whenLive, h]

theorem whenLive_shut {s : State} (f : State → State) (h : ¬ live s) : whenLive f s = s := by
  have h1 : s.clk.phase ≠ .service := fun e => h (.inl e)
  have h2 : s.clk.phase ≠ .saving := fun e => h (.inr e)
  simp [whenLive, h1, h2]

theorem hostAccess_open {s : State} (f : State → State) (h : hostReaches s) : hostAccess f s = f s := by
  unfold hostAccess
  rw [whenLive_open _ h.1]
  simp [h.2]

theorem hostAccess_shut {s : State} (f : State → State) (h : ¬ hostReaches s) : hostAccess f s = s := by
  unfold hostAccess
  by_cases hl : live s
  · rw [whenLive_open _ hl]
    have : s.host.inReset = true := by
      cases e : s.host.inReset
      · exact absurd ⟨hl, e⟩ h
      · rfl
    simp [this]
  · exact whenLive_shut _ hl

theorem run_whenUp {s : State} (f : State → State) (h : serving s) :
    run s (whenUp f) = .next (keepFixed s (f (cleared s))) := by
  unfold run; rw [whenUp_open]; exact h

theorem run_whenLive {s : State} (f : State → State) (h : live s) :
    run s (whenLive f) = .next (keepFixed s (f (cleared s))) := by
  unfold run; rw [whenLive_open]; exact h

theorem run_hostAccess {s : State} (f : State → State) (h : hostReaches s) :
    run s (hostAccess f) = .next (keepFixed s (f (cleared s))) := by
  unfold run; rw [hostAccess_open]; exact h

theorem run_act {s : State} (f : State → State) (h : serving s) :
    run s (act f) = .next (keepFixed s (settleAll (f (cleared s)))) := run_whenUp _ h

theorem run_hostAct {s : State} (f : State → State) (h : hostReaches s) :
    run s (hostAct f) = .next (keepFixed s (settleAll (f (written s)))) := run_hostAccess _ h

theorem run_actL {s : State} (f : State → State) (h : live s) :
    run s (actL f) = .next (keepFixed s (settleWhole (f (cleared s)))) := run_whenLive _ h

theorem run_hostActL {s : State} (f : State → State) (h : hostReaches s) :
    run s (hostActL f) = .next (keepFixed s (settleWhole (f (written s)))) := run_hostAccess _ h

theorem run_actU {s : State} (f : State → State) (h : serving s) :
    run s (actU f) = .next (keepFixed s (settleWhole (f (cleared s)))) := run_whenUp _ h

theorem run_actR {s : State} (f : State → State) (h : serving s) :
    run s (actR f) = .next (keepFixed s (settleAll (settleRma (f (cleared s))))) := run_whenUp _ h

/-- A verb whose entry passes the first checks runs on the state with its entry read. -/
theorem verb_runs {level : Nat} {s : State} {sub : Sub} (f : State → State) (h : accepts level s sub) :
    verb level sub f (cleared s) = f (taken s sub) := by
  obtain ⟨_, h1, h2, h3⟩ := h
  have hd : (ringOf (cleared s) sub.ring).tags.contains sub.tag = false := h2
  have ha : (takeEntry (cleared s) sub).attached = s.attached := rfl
  unfold verb
  simp only [h1, hd, ha, Bool.false_eq_true, if_false]
  rw [if_neg (by simp; omega), if_neg (by omega)]

theorem run_verb {level : Nat} {s : State} {sub : Sub} (f : State → State) (h : accepts level s sub) :
    run s (whenUp (verb level sub f)) = .next (keepFixed s (f (taken s sub))) := by
  rw [run_whenUp _ h.1, verb_runs f h]

theorem run_act_verb {level : Nat} {s : State} {sub : Sub} (f : State → State) (h : accepts level s sub) :
    run s (act (verb level sub f)) = .next (keepFixed s (settleAll (f (taken s sub)))) := by
  rw [run_act _ h.1, verb_runs f h]

end Sys2Proof.Machine
end

