-- ==== Sys2Proof/Laws/Memory.lean ====
section
/-! SUPPORT. Every operation on an addressed memory keeps its canonical form, and a byte reads what was written last. -/
namespace Sys2Proof.Machine

theorem wfAbove_mono {a b : Nat} (h : b ≤ a) (m : Mem) (w : wfAbove a m = true) : wfAbove b m = true := by
  cases m with
  | nil => rfl
  | cons c t =>
    simp only [wfAbove, Bool.and_eq_true, decide_eq_true_eq] at w ⊢
    exact ⟨⟨by omega, w.1.2⟩, w.2⟩

theorem wf_of_above {a : Nat} (m : Mem) (w : wfAbove a m = true) : Mem.wf m = true := by
  cases m with
  | nil => rfl
  | cons c t =>
    simp only [wfAbove, Mem.wf, Bool.and_eq_true, decide_eq_true_eq] at w ⊢
    exact ⟨w.1.2, w.2⟩

theorem wfAbove_drop (m : Mem) (a k : Nat) (w : wfAbove a m = true) : wfAbove a (dropByte m k) = true := by
  induction m generalizing a with
  | nil => rfl
  | cons c t ih =>
    obtain ⟨j, b⟩ := c
    simp only [wfAbove, Bool.and_eq_true, decide_eq_true_eq] at w
    unfold dropByte
    split
    · exact wfAbove_mono (by omega) t w.2
    · split
      · simp [wfAbove, w.1.1, w.2]; exact w.1.2
      · simp only [wfAbove, Bool.and_eq_true, decide_eq_true_eq]; exact ⟨w.1, ih j w.2⟩

theorem wfAbove_put (m : Mem) (a k : Nat) (v : Byte) (hv : v ≠ unlisted) (hk : a < k) (w : wfAbove a m = true) :
    wfAbove a (putByte m k v) = true := by
  induction m generalizing a with
  | nil => simp [putByte, wfAbove, hv, hk]
  | cons c t ih =>
    obtain ⟨j, b⟩ := c
    simp only [wfAbove, Bool.and_eq_true, decide_eq_true_eq] at w
    unfold putByte
    split
    · rename_i h; simp only [wfAbove, Bool.and_eq_true, decide_eq_true_eq]; exact ⟨⟨hk, hv⟩, ⟨h, w.1.2⟩, w.2⟩
    · split
      · rename_i h; subst h; simp only [wfAbove, Bool.and_eq_true, decide_eq_true_eq]; exact ⟨⟨hk, hv⟩, w.2⟩
      · simp only [wfAbove, Bool.and_eq_true, decide_eq_true_eq]; exact ⟨w.1, ih j (by omega) w.2⟩

/-- Writing a byte keeps the canonical form. -/
theorem wf_writeByte (m : Mem) (k : Nat) (v : Byte) (w : Mem.wf m = true) : Mem.wf (writeByte m k v) = true := by
  unfold writeByte
  cases m with
  | nil =>
    split
    · rfl
    · rename_i h; simp [putByte, Mem.wf, wfAbove, h]
  | cons c t =>
    obtain ⟨j, b⟩ := c
    simp only [Mem.wf, Bool.and_eq_true, decide_eq_true_eq] at w
    split
    · unfold dropByte
      split
      · exact wf_of_above t w.2
      · split
        · simp only [Mem.wf, Bool.and_eq_true, decide_eq_true_eq]; exact w
        · simp only [Mem.wf, Bool.and_eq_true, decide_eq_true_eq]; exact ⟨w.1, wfAbove_drop t j k w.2⟩
    · rename_i hv
      unfold putByte
      split
      · rename_i h; simp only [Mem.wf, wfAbove, Bool.and_eq_true, decide_eq_true_eq]; exact ⟨hv, ⟨h, w.1⟩, w.2⟩
      · split
        · rename_i h; subst h; simp only [Mem.wf, Bool.and_eq_true, decide_eq_true_eq]; exact ⟨hv, w.2⟩
        · simp only [Mem.wf, Bool.and_eq_true, decide_eq_true_eq]; exact ⟨w.1, wfAbove_put t j k v hv (by omega) w.2⟩

theorem wf_writeBytes (l : List Nat) (m : Mem) (a : Nat) (w : Mem.wf m = true) : Mem.wf (writeBytes m a l) = true := by
  induction l generalizing m a with
  | nil => exact w
  | cons b t ih => exact ih _ _ (wf_writeByte _ _ _ w)

theorem wf_writeLE (m : Mem) (a n v : Nat) (w : Mem.wf m = true) : Mem.wf (writeLE m a n v) = true := wf_writeBytes _ _ _ w

theorem wfAbove_filter (p : Host.Cell → Bool) (m : Mem) (a : Nat) (w : wfAbove a m = true) : wfAbove a (m.filter p) = true := by
  induction m generalizing a with
  | nil => rfl
  | cons c t ih =>
    obtain ⟨j, b⟩ := c
    simp only [wfAbove, Bool.and_eq_true, decide_eq_true_eq] at w
    rw [List.filter_cons]
    split
    · simp only [wfAbove, Bool.and_eq_true, decide_eq_true_eq]; exact ⟨w.1, ih j w.2⟩
    · exact ih a (wfAbove_mono (by omega) t w.2)

theorem wf_filter (p : Host.Cell → Bool) (m : Mem) (w : Mem.wf m = true) : Mem.wf (m.filter p) = true := by
  cases m with
  | nil => rfl
  | cons c t =>
    obtain ⟨j, b⟩ := c
    simp only [Mem.wf, Bool.and_eq_true, decide_eq_true_eq] at w
    rw [List.filter_cons]
    split
    · simp only [Mem.wf, Bool.and_eq_true, decide_eq_true_eq]; exact ⟨w.1, wfAbove_filter p t j w.2⟩
    · exact wf_of_above _ (wfAbove_filter p t j w.2)

theorem wf_clearRange (m : Mem) (a n : Nat) (w : Mem.wf m = true) : Mem.wf (clearRange m a n) = true := wf_filter _ _ w

theorem wf_writeCells (p : Mem) (m : Mem) (a : Nat) (w : Mem.wf m = true) : Mem.wf (writeCells m a p) = true := by
  induction p generalizing m with
  | nil => exact w
  | cons c t ih => exact ih _ (wf_writeByte _ _ _ w)

theorem wf_putRange (m : Mem) (a n : Nat) (p : Mem) (w : Mem.wf m = true) : Mem.wf (putRange m a n p) = true :=
  wf_writeCells _ _ _ (wf_clearRange _ _ _ w)

/-- Moving the listed bytes of a range down to its start keeps the form. -/
theorem wfAbove_shift (m : Mem) (a d : Nat) (hd : d ≤ a) (w : wfAbove a m = true) : wfAbove (a - d) (m.map fun c => (c.1 - d, c.2)) = true := by
  induction m generalizing a with
  | nil => rfl
  | cons c t ih =>
    obtain ⟨j, b⟩ := c
    simp only [wfAbove, Bool.and_eq_true, decide_eq_true_eq] at w
    simp only [List.map_cons, wfAbove, Bool.and_eq_true, decide_eq_true_eq]
    exact ⟨⟨by omega, w.1.2⟩, ih j (by omega) w.2⟩

theorem wf_memRange (m : Mem) (a n : Nat) (w : Mem.wf m = true) : Mem.wf (memRange m a n) = true := by
  unfold memRange
  have hf : Mem.wf (m.filter fun c => decide (a ≤ c.1) && decide (c.1 < a + n)) = true := wf_filter _ _ w
  cases hx : m.filter fun c => decide (a ≤ c.1) && decide (c.1 < a + n) with
  | nil => rfl
  | cons c t =>
    obtain ⟨j, b⟩ := c
    rw [hx] at hf
    have hm : (j, b) ∈ m.filter fun c => decide (a ≤ c.1) && decide (c.1 < a + n) := by rw [hx]; exact List.mem_cons_self
    have hj : a ≤ j := by
      have := (List.mem_filter.mp hm).2
      simp only [Bool.and_eq_true, decide_eq_true_eq] at this
      exact this.1
    simp only [Mem.wf, Bool.and_eq_true, decide_eq_true_eq] at hf
    simp only [List.map_cons, Mem.wf, Bool.and_eq_true, decide_eq_true_eq]
    exact ⟨hf.1, wfAbove_shift t j a hj hf.2⟩

theorem reset_memory_wf : Mem.wf State.reset.sram = true ∧ Mem.wf State.reset.nbu.attic = true := by decide

end Sys2Proof.Machine
end

