-- ==== Sys2Proof/Laws/MemoryReads.lean ====
section
/-! SUPPORT. What a read of one byte gives after a write: the byte written there, and the old byte everywhere else. -/
namespace Sys2Proof.Machine

/-- Below the first listed address nothing is listed. -/
theorem readByte_above (m : Mem) (k a : Nat) (h : a ≤ k) (w : wfAbove k m = true) : readByte m a = unlisted := by
  induction m generalizing k with
  | nil => rfl
  | cons c t ih =>
    obtain ⟨j, b⟩ := c
    simp only [wfAbove, Bool.and_eq_true, decide_eq_true_eq] at w
    unfold readByte
    rw [if_neg (by omega)]
    exact ih j (by omega) w.2

/-- Reading after a deletion. -/
theorem readByte_dropByte (m : Mem) (k a : Nat) (w : Mem.wf m = true) : readByte (dropByte m k) a = if a = k then unlisted else readByte m a := by
  induction m with
  | nil => simp [dropByte, readByte]
  | cons c t ih =>
    obtain ⟨j, b⟩ := c
    simp only [Mem.wf, Bool.and_eq_true, decide_eq_true_eq] at w
    unfold dropByte
    split
    · rename_i e; subst e
      by_cases ha : a = j
      · rw [if_pos ha, readByte_above t j a (by omega) w.2]
      · rw [if_neg ha]; show readByte t a = (if j = a then b else readByte t a)
        rw [if_neg (fun e => ha e.symm)]
    · split
      · rename_i h1 h2
        by_cases ha : a = k
        · rw [if_pos ha]; unfold readByte; rw [if_neg (by omega)]; exact readByte_above t j a (by omega) w.2
        · rw [if_neg ha]
      · rename_i h1 h2
        have := ih (wf_of_above t w.2)
        unfold readByte
        by_cases hj : j = a
        · rw [if_pos hj, if_pos hj, if_neg (by omega)]
        · rw [if_neg hj, if_neg hj]; exact this

/-- Reading after an insertion. -/
theorem readByte_putByte (m : Mem) (k a : Nat) (v : Byte) (w : Mem.wf m = true) : readByte (putByte m k v) a = if a = k then v else readByte m a := by
  induction m with
  | nil =>
    by_cases ha : k = a
    · simp [putByte, readByte, ha]
    · simp [putByte, readByte, ha, show ¬ a = k from fun e => ha e.symm]
  | cons c t ih =>
    obtain ⟨j, b⟩ := c
    simp only [Mem.wf, Bool.and_eq_true, decide_eq_true_eq] at w
    unfold putByte
    split
    · by_cases ha : a = k
      · subst ha; simp [readByte]
      · rw [if_neg ha]; show (if k = a then v else readByte ((j, b) :: t) a) = _
        rw [if_neg (fun e => ha e.symm)]
    · split
      · rename_i h1 h2; subst h2
        by_cases ha : a = k
        · subst ha; simp [readByte]
        · rw [if_neg ha]; unfold readByte; rw [if_neg (fun e => ha e.symm), if_neg (fun e => ha e.symm)]
      · rename_i h1 h2
        have := ih (wf_of_above t w.2)
        unfold readByte
        by_cases hj : j = a
        · rw [if_pos hj, if_pos hj, if_neg (by omega)]
        · rw [if_neg hj, if_neg hj]; exact this

/-- Reading after the write of one byte. -/
theorem readByte_writeByte (m : Mem) (k a : Nat) (v : Byte) (w : Mem.wf m = true) : readByte (writeByte m k v) a = if a = k then v else readByte m a := by
  unfold writeByte
  split
  · rename_i h; rw [readByte_dropByte _ _ _ w, h]
  · exact readByte_putByte _ _ _ _ w

/-- A write of a byte string leaves every byte outside it alone. -/
theorem readByte_writeBytes_outside (l : List Nat) (m : Mem) (a b : Nat) (w : Mem.wf m = true) (h : b < a ∨ a + l.length ≤ b) : readByte (writeBytes m a l) b = readByte m b := by
  induction l generalizing m a with
  | nil => rfl
  | cons x t ih =>
    unfold writeBytes
    rw [List.length_cons] at h
    rw [ih _ _ (wf_writeByte _ _ _ w) (by omega), readByte_writeByte _ _ _ _ w, if_neg (by omega)]

end Sys2Proof.Machine
end

