-- ==== Sys2Proof/Laws/Shut.lean ====
section
/-! SUPPORT. What the gates do to a block without power or after a thermal trip: nothing. -/
namespace Sys2Proof.Machine

/-- A command of the service gate leaves a block without power, or tripped, as it is. -/
theorem shutUp (s : State) (f : State → State) (h : s.clk.phase = .off ∨ s.clk.phase = .tripped) : run s (whenUp f) = .next (cleared s) := by
  unfold run; rw [whenUp_shut _ (by show ¬ s.clk.phase = _; rcases h with h | h <;> rw [h] <;> decide)]; rfl

/-- So does one of the live gate. -/
theorem shutLive (s : State) (f : State → State) (h : s.clk.phase = .off ∨ s.clk.phase = .tripped) : run s (whenLive f) = .next (cleared s) := by
  unfold run; rw [whenLive_shut _ (by show ¬ (s.clk.phase = _ ∨ s.clk.phase = _); rcases h with h | h <;> rw [h] <;> decide)]; rfl

/-- So does one of the host gate. -/
theorem shutHost (s : State) (f : State → State) (h : s.clk.phase = .off ∨ s.clk.phase = .tripped) : run s (hostAccess f) = .next (cleared s) := shutLive s _ h

/-- The TAP does nothing without power. -/
theorem shutTap (s : State) (f : State → State) (h : s.clk.phase = .off) : run s (onTap f) = .next (cleared s) := by
  unfold run onTap; rw [if_pos h]; rfl

/-- The monitor takes no line without power, or tripped. -/
theorem shutCriti (s : State) (a b : Bool) (m n : State → Bool) (f : State → State) (h : s.clk.phase = .off ∨ s.clk.phase = .tripped) :
    run s (critiGate a b m n f) = .next (cleared s) := by
  have : critiTakes (cleared s) = false := by
    have : running (cleared s) = false := by
      unfold running; show (match s.clk.phase with | .service | .saving | .warm | .rom => true | _ => false) = false
      rcases h with h | h <;> rw [h]
    unfold critiTakes; rw [this]; rfl
  unfold run critiGate; rw [this]; rfl

end Sys2Proof.Machine
end

