-- ==== Sys2Proof/Laws/TableOrder.lean ====
section
/-! SUPPORT. The order of the keys of a table. -/
namespace Sys2Proof.Machine

/-- What a deletion leaves was there. -/
theorem mem_tdel {α : Type} (t : Tbl α) (k : Nat) (x : Nat × α) (h : x ∈ tdel t k) : x ∈ t := by
  induction t with
  | nil => simp [tdel] at h
  | cons p t ih =>
    obtain ⟨j, b⟩ := p
    unfold tdel at h
    split at h
    · exact List.mem_cons_of_mem _ (ih h)
    · rcases List.mem_cons.mp h with h | h
      · rw [h]; exact List.mem_cons_self
      · exact List.mem_cons_of_mem _ (ih h)

/-- Keys rise exactly where they are pairwise in order. -/
theorem keysRise_iff {α : Type} (t : Tbl α) : keysRise t = true ↔ t.Pairwise (fun a b => a.1 < b.1) := by
  induction t with
  | nil => simp [keysRise]
  | cons p t ih =>
    cases t with
    | nil => simp [keysRise]
    | cons q t =>
      rw [List.pairwise_cons]
      constructor
      · intro h
        simp only [keysRise, Bool.and_eq_true, decide_eq_true_eq] at h
        have h2 := ih.mp h.2
        refine ⟨?_, h2⟩
        intro a ha
        rcases List.mem_cons.mp ha with e | e
        · rw [e]; exact h.1
        · have := (List.pairwise_cons.mp h2).1 a e; have h1 : p.1 < q.1 := h.1; omega
      · intro h
        simp only [keysRise, Bool.and_eq_true, decide_eq_true_eq]
        exact ⟨h.1 q List.mem_cons_self, ih.mpr h.2⟩

/-- A deletion gives a sublist. -/
theorem tdel_sublist {α : Type} (t : Tbl α) (k : Nat) : (tdel t k).Sublist t := by
  induction t with
  | nil => exact List.Sublist.refl _
  | cons p t ih =>
    obtain ⟨j, b⟩ := p
    unfold tdel
    split
    · exact List.Sublist.cons _ ih
    · exact List.Sublist.cons_cons _ ih

end Sys2Proof.Machine
end

