-- ==== Sys2Proof/Laws/Units.lean ====
section
/-! SUPPORT. What reading a semaphore or a regulator bucket gives after one is stored. -/
namespace Sys2Proof.Machine

/-- Reading a semaphore after storing one. -/
theorem semOf_setSem (s : State) (i j : Nat) (x : Sem) : semOf (setSem s i x) j = if j = i then x else semOf s j := by
  unfold semOf setSem tget
  by_cases hj : j = i
  · subst hj
    rw [if_pos rfl]
    by_cases h : x = {}
    · subst h; simp only [if_true, tget?_tdel_same, Option.getD]
    · simp only [if_neg h, tget?_tset_same, Option.getD]
  · rw [if_neg hj]
    by_cases h : x = {}
    · simp only [if_pos h, tget?_tdel_other _ _ _ hj]
    · simp only [if_neg h, tget?_tset_other _ _ _ _ hj]

/-- Storing a bucket leaves the layout alone. -/
theorem setBucket_lay (s : State) (p r : Nat) (v : Int) : (setBucket s p r v).lay = s.lay := rfl

/-- Levels after one bucket is emptied. -/
theorem bucketLevel_setBucket_zero (s : State) (p r q k : Nat) :
    bucketLevel (setBucket s p r 0) q k = if bucketIx q k = bucketIx p r then 0 else bucketLevel s q k := by
  unfold bucketLevel setBucket
  show (match (s.steps.buckets.filter (·.1 ≠ bucketIx p r)).find? (·.1 = bucketIx q k) with | some b => b.2 | none => 0) = _
  generalize s.steps.buckets = l
  by_cases h : bucketIx q k = bucketIx p r
  · rw [if_pos h]
    have : (l.filter (·.1 ≠ bucketIx p r)).find? (·.1 = bucketIx q k) = none := by
      rw [List.find?_eq_none]
      intro x hx
      have := (List.mem_filter.1 hx).2
      simp at this ⊢
      rw [h]; exact this
    rw [this]
  · rw [if_neg h]
    congr 1
    induction l with
    | nil => rfl
    | cons a l ih =>
      by_cases ha : a.1 = bucketIx p r
      · rw [List.filter_cons_of_neg (by simp [ha]), ih, List.find?_cons_of_neg]
        simp; rw [ha]; exact fun x => h x.symm
      · rw [List.filter_cons_of_pos (by simp [ha])]
        by_cases hb : a.1 = bucketIx q k
        · rw [List.find?_cons_of_pos (by simp [hb]), List.find?_cons_of_pos (by simp [hb])]
        · rw [List.find?_cons_of_neg (by simp [hb]), List.find?_cons_of_neg (by simp [hb]), ih]

end Sys2Proof.Machine
end

