-- ==== Sys2Proof/WellFormed.lean ====
section
/-! DEFINITION. Which commands are well formed: operands in the range that the spec gives their field. The meanings need no such
premise: they cut an operand to its field or turn it away as the spec does. -/
namespace Sys2Proof

/-- A value fits a field of `n` bits. -/
def bits (n v : Nat) : Bool := decide (v < 2 ^ n)

/-- A unit number lies below the count of its units (R2). -/
def below (n v : Nat) : Bool := decide (v < n)

/-- Every element fits `n` bits. -/
def listWf (n : Nat) (l : List Nat) : Bool := l.all (bits n)

/-- A byte string. -/
def bytesWf (l : List Nat) : Bool := listWf 8 l

/-- An operand that may be absent. -/
def optWf (n : Nat) (o : Option Nat) : Bool := o.all (bits n)

/-- The common fields of a submission entry (R35): ring pair, tag, context, handle. -/
def subWf (x : Sub) : Bool := below 1024 x.ring && bits 32 x.tag && bits 10 x.context && bits 64 x.handle

/-- A write of 4 or 8 bytes within BAR0, aligned to its size (R565, R573). -/
def writeWf (w : RegWrite) : Bool := bits 26 w.off && (w.size = 4 || w.size = 8) && w.off % w.size = 0 && bits (8 * w.size) w.value

/-- A ring that exists (R573). -/
def ringWf : RingId → Bool
  | .pair r => below 1024 r
  | .out o => below 1024 o
  | .evt => true

/-- An entry of a step descriptor (R253). -/
def descEntryWf (e : DescEntry) : Bool := bits 64 e.handle && bits 32 e.step && bits 16 e.homeEpoch

/-- A step descriptor (R253). -/
def stepDescWf (d : StepDesc) : Bool :=
  bits 16 d.epoch && bits 11 d.src && bits 11 d.home && bits 64 d.stepRef && bits 2 d.cls && bits 16 d.first && bits 16 d.last &&
    bits 10 d.context && d.entries.all descEntryWf

/-- A step message (R270). -/
def stepMsgWf (m : StepMsg) : Bool :=
  bits 16 m.epoch && bits 11 m.src && bits 64 m.stepRef && bits 16 m.attempt && m.entries.all fun e => bits 16 e.homeEpoch && bits 32 e.token

/-- A mirror message header (R483). -/
def mirrorWf (h : MirrorHdr) : Bool := bits 16 h.epoch && bits 11 h.src && bits 64 h.handle && bits 32 h.step && bits 64 h.ref

/-- The header of a flit (R411). -/
def headWf (h : FlitHead) : Bool := bits 16 h.ack && below 5 h.pool && bits 16 h.returned

/-- A flit (R411). -/
def flitWf (f : Flit) : Bool := bits 16 f.seq && bits 16 f.ack && bits 3 f.vc && below 5 f.pool && bits 16 f.returned

/-- A frame (R414). -/
def frameWf (f : Frame) : Bool := bits 11 f.dst && bits 11 f.src && bits 3 f.vc && bits 16 f.startEpoch && bits 32 f.txid

/-- HELLO (R408): the credits of five pools. -/
def helloWf (h : Hello) : Bool := bits 8 h.verMin && bits 8 h.verMax && bits 11 h.device && bits 16 h.startEpoch && h.credits.length = 5

/-- ATN_QKV (R163): 16-bit elements. -/
def qkvWf (q : AtnQkv) : Bool := bits 16 q.epoch && bits 11 q.src && bits 64 q.handle && bits 32 q.step && listWf 16 q.elems

/-- DLG_BLOCK (R246): binary32 rows. -/
def dlgWf (m : DlgBlock) : Bool := bits 16 m.epoch && bits 11 m.src && bits 64 m.handle && listWf 32 m.q

/-- LOGITS (R358). -/
def logitsWf (m : LogitsMsg) : Bool := bits 16 m.epoch && bits 11 m.src && bits 64 m.handle && listWf 32 m.values

/-- INV_REQ (R344). -/
def invWf (r : InvReq) : Bool := bits 16 r.epoch && bits 11 r.src && bits 10 r.context && bits 64 r.handle && bits 64 r.hash

/-- VSR_REQ (R400). -/
def vsrWf (r : VsrReq) : Bool := bits 16 r.epoch && bits 11 r.src && bits 10 r.context && bits 16 r.indexId && bits 16 r.dim

/-- The arguments of SES_OPEN and SES_RESUME (R118). -/
def openWf (a : OpenArgs) : Bool := bits 32 a.inLen && bytesWf a.data && bits 16 a.outRing && bits 64 a.seed && (a.params.getD []).all (bits 8)

/-- A session descriptor on the wire (R95). -/
def sessWf (d : SessDesc) : Bool := bits 64 d.handle && bits 2 d.cls && bits 32 d.step && bits 11 d.homeDev && bits 16 d.homeEpoch && bits 11 d.mirrorDev

/-- Remote memory messages (R454). -/
def rmWf (m : RmMsg) : Bool := bits 16 m.epoch && bits 11 m.src && bits 24 m.conn && bits 32 m.key && bytesWf m.data

/-- RM_ACK (R455). -/
def rmAckWf (a : RmAck) : Bool := bits 2 a.kind && bits 11 a.src && bits 24 a.conn

/-- A RoCEv2 packet (R451): 24-bit queue pair and sequence numbers. -/
def roceWf (p : RocePkt) : Bool := bits 8 p.op && bits 24 p.qp && bits 24 p.psn && bits 6 p.dscp && bits 16 p.srcPort && bits 32 p.key && bytesWf p.data

/-- A tunnel segment (R444): at most 8,192 bytes. -/
def segWf (g : TunnelSeg) : Bool := bits 32 g.frameNo && decide (g.length ≤ 8192)

/-- A KEY flit (R530). -/
def keyWf (k : KeyFlit) : Bool := bits 8 k.op && bits 8 k.lmk && bits 256 k.nonce

/-- The classification key of an Ethernet frame (R445). -/
def ethWf (k : EthKey) : Bool := bits 16 k.etherType && bits 12 k.vlan && bits 3 k.pcp && bits 6 k.dscp && bits 2 k.ecn

/-- TRUNK_REQ (R503). -/
def trunkReqWf (r : TrunkReq) : Bool := bits 16 r.epoch && bits 11 r.src && bits 10 r.context && bits 32 r.serial

/-- TRUNK_RSP (R503). -/
def trunkRspWf (q : TrunkRsp) : Bool := bits 11 q.src && bits 64 q.handle

/-- Every operand of a command lies in the range that its field, register or unit number has. -/
def wf (i : Instr) : Bool :=
  match i with
  | .submissionTail r size value => below 1024 r && bits 4 size && bits 64 value
  | .completionHead r size value => below 1024 r && bits 4 size && bits 64 value
  | .outputHead o size value => below 1024 o && bits 4 size && bits 64 value
  | .eventHead size value => bits 4 size && bits 64 value
  | .badDoorbell off size value => bits 26 off && bits 4 size && bits 64 value
  | .invalidOpcode sub => subWf sub
  | .attach sub minLevel maxLevel required rsv => subWf sub && bits 8 minLevel && bits 8 maxLevel && bits 64 required && bits 64 rsv
  | .detach sub rsv => subWf sub && bits 64 rsv
  | .queryCap sub rsv => subWf sub && bits 64 rsv
  | .ctxCreate sub part rsv block rot ssm layers blob => subWf sub && bits 8 part && bits 64 rsv && bytesWf block && bytesWf rot && bytesWf ssm && bytesWf layers && bytesWf blob
  | .ctxDestroy sub rsv => subWf sub && bits 64 rsv
  | .sesOpen sub a => subWf sub && openWf a
  | .sesResume sub a => subWf sub && openWf a
  | .sesCancel sub rsv => subWf sub && bits 64 rsv
  | .sesQuery sub rsv => subWf sub && bits 64 rsv
  | .stepSubmit sub d len resultAddr rsv => subWf sub && stepDescWf d && bits 32 len && bits 64 resultAddr && bits 64 rsv
  | .stepKill sub ref rsv => subWf sub && bits 64 ref && bits 64 rsv
  | .pfxInsert sub maxChunks flags rsv => subWf sub && bits 32 maxChunks && bits 16 flags && bits 64 rsv
  | .pfxRemove sub nodeRef flags rsv => subWf sub && bits 64 nodeRef && bits 16 flags && bits 64 rsv
  | .trunkCut sub handles store rsv => subWf sub && listWf 64 handles && bits 16 store && bits 64 rsv
  | .trunkRestore sub store resultAddr rsv _ _ _ _ => subWf sub && bits 16 store && bits 64 resultAddr && bits 64 rsv
  | .tblSwapLoad sub slot flags length rsv img => subWf sub && bits 8 slot && bits 16 flags && bits 32 length && bits 64 rsv && bytesWf img
  | .tblSwapBind sub flags length rsv block => subWf sub && bits 16 flags && bits 32 length && bits 64 rsv && bytesWf block
  | .tblSwapFree sub op slot flags rsv => subWf sub && bits 8 op && bits 8 slot && bits 16 flags && bits 64 rsv
  | .camWriteInsert sub bank width priority action blocks rsv => subWf sub && below 64 bank && bits 3 width && bits 16 priority && bits 32 action && listWf 8 blocks && bits 64 rsv
  | .camWriteDelete sub bank width priority blocks rsv => subWf sub && below 64 bank && bits 3 width && bits 16 priority && listWf 8 blocks && bits 64 rsv
  | .camWriteModify sub bank width priority action blocks rsv => subWf sub && below 64 bank && bits 3 width && bits 16 priority && bits 32 action && listWf 8 blocks && bits 64 rsv
  | .camWriteClear sub bank width rsv => subWf sub && below 64 bank && bits 3 width && bits 64 rsv
  | .camDrain sub g rsv => subWf sub && bits 64 g && bits 64 rsv
  | .vsrQuery sub indexId k beam flags vec resultAddr all any maxVisits rsv => subWf sub && bits 16 indexId && bits 32 k && bits 16 beam && bits 16 flags && listWf 64 vec && bits 64 resultAddr && bits 64 all && bits 64 any && bits 32 maxVisits && bits 64 rsv
  | .semAcquire sub sem cls rsv => subWf sub && bits 12 sem && bits 2 cls && bits 64 rsv
  | .semRelease sub sem rsv => subWf sub && bits 12 sem && bits 64 rsv
  | .protFence sub pd g rsv => subWf sub && bits 8 pd && bits 64 g && bits 64 rsv
  | .semGrant sem => bits 12 sem
  | .camDrainDone => true
  | .protFenceDone => true
  | .atnQkv half q => below 2 half && qkvWf q
  | .atnQkvEarlyHoldExpiry id => bits 64 id
  | .dlgBlock half m => below 2 half && dlgWf m
  | .dlgOut _ => true
  | .dlgTimeout request => bits 64 request
  | .nbuJobEnd nbu thread ran cycles ecc => below 6144 nbu && below 4 thread && bits 64 ran && bits 64 cycles && optWf 64 ecc
  | .cmdEntryWrite nbu thread value => below 6144 nbu && below 4 thread && bits 64 value
  | .cmdStatusAbort nbu thread ran cycles => below 6144 nbu && below 4 thread && bits 64 ran && bits 64 cycles
  | .cycleLimit nbu thread ran cycles => below 6144 nbu && below 4 thread && bits 64 ran && bits 64 cycles
  | .tileCommandEnd tile code nbu page macs cycles => below 32 tile && bits 16 code && below 6144 nbu && bits 16 page && bits 64 macs && bits 64 cycles
  | .tileCycleLimit tile cycles => below 32 tile && bits 64 cycles
  | .tileDispatch tile => below 32 tile
  | .denTestCtlGo tile => below 32 tile
  | .stpDesc d => stepDescWf d
  | .partStart ref => bits 64 ref
  | .creditWaitExpiry ref => bits 64 ref
  | .stpPrepared m => stepMsgWf m
  | .stpSeal m => stepMsgWf m
  | .stpSealMirror m => stepMsgWf m
  | .stpSealAck m => stepMsgWf m
  | .stpKilled m => stepMsgWf m
  | .stpAbort m => stepMsgWf m
  | .stpDone m => stepMsgWf m
  | .sealRetryExpiry ref => bits 64 ref
  | .prepQueryExpiry ref entry => bits 64 ref && bits 16 entry
  | .semReq src op sub sem cls => bits 11 src && bits 8 op && subWf sub && bits 12 sem && bits 2 cls
  | .semInheritLimit sem => bits 12 sem
  | .contextSlotFree ctx => bits 10 ctx
  | .logits m rsv => logitsWf m && bits 64 rsv
  | .samplerDraw => true
  | .tokenizeComplete => true
  | .invProbe r => invWf r
  | .invCommit r => invWf r
  | .invPublish r => invWf r
  | .invWithdraw r => invWf r
  | .invRsp src _ => bits 11 src
  | .invProbeTimeout handle => bits 64 handle
  | .invPinExpiry src request => bits 11 src && bits 64 request
  | .vsrReq r => vsrWf r
  | .vsrRsp _ => true
  | .vsrShardTimeout request shard => bits 64 request && bits 16 shard
  | .vsrLoad slot ctx _ length img => bits 8 slot && bits 10 ctx && bits 32 length && bytesWf img
  | .vsrFree slot ctx _ length => bits 8 slot && bits 10 ctx && bits 32 length
  | .camLookupCtlGo width => bits 3 width
  | .camShiftComplete bank => below 64 bank
  | .mirrorOpen q d toks => mirrorWf q && sessWf d && listWf 32 toks
  | .mirrorState q toks => mirrorWf q && listWf 32 toks
  | .mirrorNote q token index hold => mirrorWf q && bits 32 token && bits 32 index && bytesWf hold
  | .mirrorPrep q _ => mirrorWf q
  | .mirrorAck q => mirrorWf q
  | .mirrorRetire q => mirrorWf q
  | .mirrorSync q valid bytes => mirrorWf q && bits 16 valid && bytesWf bytes
  | .mirrorPull q count => mirrorWf q && bits 32 count
  | .mirrorHandover q => mirrorWf q
  | .prepResendExpiry handle _ => bits 64 handle
  | .lostReport lost observer link => bits 11 lost && bits 11 observer && below 48 link
  | .roleClaim src lost epoch first last m idx => bits 11 src && bits 11 lost && bits 16 epoch && bits 32 first && bits 32 last && bits 16 m && bits 16 idx
  | .shadowPromote => true
  | .sessionDemoted handle epoch => bits 64 handle && bits 16 epoch
  | .mirrorDropped handle _ cause => bits 64 handle && bits 8 cause
  | .trunkReqCut r => trunkReqWf r
  | .trunkReqAbort r => trunkReqWf r
  | .trunkReqRestore r _ _ => trunkReqWf r
  | .trunkRspReserved q => trunkRspWf q
  | .trunkRspRestored q => trunkRspWf q
  | .trunkRspTaken q => trunkRspWf q
  | .trunkRspDrained q => trunkRspWf q
  | .fastCopyComplete home request handle => bits 16 home && bits 64 request && bits 64 handle
  | .trunkDrainComplete home request digest _ => bits 16 home && bits 64 request && bits 384 digest
  | .tokenLogFlush => true
  | .ckpHandoverGo device => bits 11 device
  | .ckpTrunkDel serial context => bits 32 serial && bits 10 context
  | .rmWrite m _ => rmWf m
  | .rmWriteImm m _ => rmWf m
  | .rmRead m _ => rmWf m
  | .rmReadRsp m => rmWf m
  | .rmSend m _ => rmWf m
  | .rmAck a => rmAckWf a
  | .roceRequestPacket port named p _ => below 60 port && optWf 64 named && roceWf p
  | .roceResponsePacket p => roceWf p
  | .cnp conn => bits 24 conn
  | .ccRatePeriod conn => bits 24 conn
  | .rdmaRetryTimer conn => bits 24 conn
  | .rnrWaitExpiry conn => bits 24 conn
  | .connCreate => true
  | .connDestroy conn => bits 24 conn
  | .connRead conn => bits 24 conn
  | .connSpillComplete conn => bits 24 conn
  | .connFetchComplete conn => bits 24 conn
  | .rmaMrCtlGo index => bits 32 index
  | .pfcPause port priority quanta => below 60 port && bits 16 priority && bits 16 quanta
  | .pfcRenewal port priority bytes => below 60 port && bits 16 priority && bits 32 bytes
  | .pfcStorm port priority => below 60 port && bits 16 priority
  | .rmaEngineFatal half => below 2 half
  | .hello link h => below 48 link && helloWf h
  | .resume link last epoch => below 48 link && bits 32 last && bits 16 epoch
  | .retry link h seq => below 48 link && headWf h && bits 32 seq
  | .creditSync link h pools => below 48 link && headWf h && listWf 64 pools
  | .creditSyncTimer link => below 48 link
  | .tsync link h _ => below 48 link && headWf h
  | .tsyncTimer link => below 48 link
  | .heartbeat link h number time => below 48 link && headWf h && bits 32 number && bits 64 time
  | .expressSuspend link h => below 48 link && headWf h
  | .expressResume link h => below 48 link && headWf h
  | .expressResumeTimer link => below 48 link
  | .keyNonce link h k => below 48 link && headWf h && keyWf k
  | .keyConfirm link h k => below 48 link && headWf h && keyWf k
  | .keyRekey link h k => below 48 link && headWf h && keyWf k
  | .keyRekeyAck link h k => below 48 link && headWf h && keyWf k
  | .keyFail link h k => below 48 link && headWf h && keyWf k
  | .rekeyStart port dev => below 60 port && bits 11 dev
  | .rekeyResendTimer port dev => below 60 port && bits 11 dev
  | .oldKeyExpiry port dev => below 60 port && bits 11 dev
  | .dataFlit link fl => below 48 link && flitWf fl
  | .replayTimeout link => below 48 link
  | .frameReceive port f => below 60 port && frameWf f
  | .tack src _ => bits 11 src
  | .retxTimer dest txid => bits 11 dest && bits 32 txid
  | .epochHoldExpiry src txid => bits 11 src && bits 32 txid
  | .linkSignalDetect link lanes _ => below 48 link && bits 8 lanes
  | .linkDownDetected port fec => below 60 port && bits 32 fec
  | .linkHoldExpiry link => below 48 link
  | .linkTrainRetry port => below 60 port
  | .lnkCtlRetrain link => below 48 link
  | .lnkCtlEnableWrite link w => below 48 link && writeWf w
  | .shaperConfigWrite port q w => below 60 port && bits 3 q && writeWf w
  | .shaperRefill => true
  | .tunnelSegment port src g => below 60 port && bits 11 src && segWf g
  | .reassemblyTimeout port src frameNo => below 60 port && bits 11 src && bits 32 frameNo
  | .ethernetFrameReceive port k bytes _ => below 60 port && ethWf k && bits 32 bytes
  | .ptpMessage port _ => below 60 port
  | .ethHoldExpiry port => below 60 port
  | .regulatorRefill => true
  | .tallyReplenish => true
  | .hatTallyAdd tally tokens _ => bits 12 tally && bits 48 tokens
  | .ladderMoveStart engine => below 2 engine
  | .raiseComplete move _ => bits 64 move
  | .sinkComplete move => bits 64 move
  | .moveFailed move => bits 64 move
  | .tierDeadlineExpiry move => bits 64 move
  | .writebackComplete move => bits 64 move
  | .faultyTargetExpiry _ number => bits 32 number
  | .cellarTargetLost _ number => bits 32 number
  | .spillComplete handle => bits 64 handle
  | .fetchComplete handle => bits 64 handle
  | .sessionFree handle => bits 64 handle
  | .tableSwitch => true
  | .embDecay => true
  | .embCfgWrite w => writeWf w
  | .layLoad img => bytesWf img
  | .layProgramSlot img => bytesWf img
  | .fastRecompQuiesceExpiry => true
  | .microprogReloadDone stack => below 6 stack
  | .maintActivityDone no target => bits 8 no && bits 16 target
  | .mntAtticScrub stack => below 6 stack
  | .mntSpareIn bankPair => bits 13 bankPair
  | .mntLinkRetrain bay => bits 3 bay
  | .mntNvmeFwActivate drive slot => bits 2 drive && bits 8 slot
  | .warnIntervalEnd kind _ => bits 8 kind
  | .windowClose source code epoch => bits 32 source && bits 16 code && bits 16 epoch
  | .allowanceTick => true
  | .irqTimer ring => ringWf ring
  | .ringFault ring pcie => ringWf ring && bits 8 pcie
  | .ringCfg r w => below 1024 r && writeWf w
  | .oRingCfg o w => optWf 64 o && writeWf w
  | .topSnapFreeze block => bits 8 block
  | .topSnapRelease block => bits 8 block
  | .hatHistSnap cls metric => bits 2 cls && bits 2 metric
  | .hatHistClear cls metric => bits 2 cls && bits 2 metric
  | .hatTrkSelWrite handle => bits 64 handle
  | .secMeasSnap index => bits 32 index
  | .bar0ReadLowHalf off size => bits 26 off && bits 4 size
  | .registerWrite w => writeWf w
  | .lockdown w => writeWf w
  | .setDomainKey session index key => optWf 64 session && bits 32 index && bytesWf key
  | .setLinkKey session index key => optWf 64 session && bits 32 index && bytesWf key
  | .setTrunkKey session index d => optWf 64 session && bits 32 index && bits 384 d
  | .clearKey session byte => optWf 64 session && bits 8 byte
  | .enrollSlot session k x y a r t => optWf 64 session && bits 32 k && bits 384 x && bits 384 y && bits 384 a && bits 384 r && bits 384 t
  | .revokeSlot session k a r t => optWf 64 session && bits 32 k && bits 384 a && bits 384 r && bits 384 t
  | .getVersion => true
  | .getCapabilities version => bits 8 version
  | .negotiateAlgorithms _ _ _ _ => true
  | .getDigests session => optWf 64 session
  | .getCertificate session slot offset length => optWf 64 session && bits 8 slot && bits 32 offset && bits 32 length
  | .challenge session slot kind => optWf 64 session && bits 8 slot && bits 8 kind
  | .getMeasurements session index _ => optWf 64 session && bits 32 index
  | .keyExchange slot kind => bits 8 slot && bits 8 kind
  | .finish session _ => bits 32 session
  | .spdmHeartbeat session => bits 32 session
  | .keyUpdate session op tag => bits 32 session && bits 8 op && bits 32 tag
  | .endSession session => bits 32 session
  | .secIslandResync half => below 2 half
  | .islandReset island => below 24 island
  | .pwrOkRise devid _ _ _ => bits 11 devid
  | .pwrOkFall ns => bits 64 ns
  | .sysRstNFall => true
  | .sysRstNRise => true
  | .perstNAssert => true
  | .perstNDeassert => true
  | .clkResetWarm key => bits 64 key
  | .clkResetCold key => bits 64 key
  | .firmwareWatchdogExpiry => true
  | .warmSaveComplete us => bits 32 us
  | .warmSaveTimeout => true
  | .warmStart _ _ _ _ _ => true
  | .rejoinTimeout handle => bits 64 handle
  | .referenceMonitorWindow refs plls => listWf 64 refs && listWf 64 plls
  | .oscMonitorWindow count => bits 32 count
  | .pllUnlockExpiry pll => below 31 pll
  | .thermalThrottleTick readings _ _ _ => bytesWf readings
  | .thermTrip => true
  | .critiHelp => true
  | .critiVer => true
  | .critiStat => true
  | .critiCap => true
  | .critiTemp => true
  | .critiRails => true
  | .critiClk => true
  | .critiLink link => below 48 link
  | .critiEvt n => optWf 64 n
  | .critiRd addr n => bits 64 addr && optWf 64 n
  | .critiBaud rate => bits 32 rate
  | .critiAuth level slot r t => bits 8 level && bits 8 slot && bits 384 r && bits 384 t
  | .critiExit => true
  | .critiWr addr value => bits 64 addr && bits 64 value
  | .critiReset _ => true
  | .critiBadLine => true
  | .jtagTestLogicReset => true
  | .extest => true
  | .samplePreload => true
  | .idcode => true
  | .clamp => true
  | .highz => true
  | .extestPulse => true
  | .extestTrain => true
  | .bypass => true
  | .dbgAuth level slot rsv r t => bits 8 level && bits 8 slot && bits 64 rsv && bits 384 r && bits 384 t
  | .dbgAccessRead space addr rsv => bits 2 space && bits 64 addr && bits 64 rsv
  | .dbgAccessWrite space addr value rsv => bits 2 space && bits 64 addr && bits 64 value && bits 64 rsv
  | .stpEntryEarlyHoldExpiry ref entry => bits 64 ref && bits 6 entry
  | .fenceLimitExpiry pd gen => bits 8 pd && bits 32 gen
  | .pfcStormEnd port priority => below 60 port && bits 16 priority
  | .flitBoundary port => below 60 port
  | .idleFlit link h => below 48 link && headWf h
  | .ethTrainingComplete port => below 60 port
  | .islandReturn island => below 24 island
  | .droopEvent rail mv => below 9 rail && bits 16 mv
  | .periodicScrub stack => below 6 stack

end Sys2Proof
end

