-- ==== Sys2Proof/Tests/Slice0.lean ====
section
/-! SUPPORT. States that meet the hypotheses of each statement, ill-formed operands that the well-formedness checks refuse, and the
worked examples of the spec. -/
set_option maxRecDepth 20000
namespace Sys2Proof.Tests
open Sys2Proof Sys2Proof.Machine

/-! ### Witnesses of the statements -/

/-- A block in a phase in which no island runs, with the thermal trip asserted. -/
def asleep (p : Phase) : State :=
  { clk := { phase := p, plls := allPlls .off, inReset := List.range 24, pins := { thermTripN := false } }, host := { inReset := true } }
/-- TOP_RING_CFG's low half that enables a ring of 16 submissions and 65,536 completions. -/
def ringWord : RegWrite := { off := 0x10010, size := 8, value := 2 ^ 48 + 16 * 256 + 4 }
/-- TOP_ORING_CFG that enables an output ring of 16 entries. -/
def oringWord : RegWrite := { off := 0x20008, size := 8, value := 2 ^ 36 + 4 }
/-- TOP_EVT_CFG that enables an event ring of 65,536 entries. -/
def evtWord : RegWrite := { off := 0x308, size := 8, value := 2 ^ 36 + 16 }
/-- A host port with ring pair 3, output ring 5 and the event ring enabled: 16 entries each, two written. -/
def ringed : State :=
  { regs := (setFldAt (setFldAt (setFldAt (setFldAt (setFldAt (setFld (setFld State.reset Reg.TOP_EVT_CFG.enable 1) Reg.TOP_EVT_CFG.log2 4)
      Reg.TOP_ORING_CFG.enable [5] 1) Reg.TOP_ORING_CFG.log2 [5] 4) Reg.TOP_RING_CFG.enable [3] 1) Reg.TOP_RING_CFG.sq_log2 [3] 4)
      Reg.TOP_RING_CFG.cq_log2 [3] 4).regs
    host := { rings := [(3, { cqTail := 2, sqHead := 1, sqTail := 1 })], orings := [(5, { tail := 2 })], evtRing := { tail := 2 } } }
/-- An entry of ring pair 0, context 5, that names no session. -/
def sub0 : Sub := { ring := 0, tag := 7, nowait := false, noRerun := false, context := 5, handle := 0 }
/-- The reset state attached at level 3. -/
def attached3 : State := { State.reset with attached := 3 }
/-- A context of one attention layer. -/
def ctx1 : Ctx :=
  { partition := 0, keyId := 1, dkIndex := 0, key := [],
    params := { kvHeads := 1, group := 1, headDim := 64, layers := [{ attn := true, ssm := false, full := false, noRope := false }], inFp16 := false,
                outBf16 := false, lambda := 0x3E38AA3B, rotDims := 0, rotAdjacent := false, rates := [], kSel := 0, window := 0, ssmHeads := 0, ssmP := 0,
                ssmN := 0, ssmEps := 0, gateAfter := false, noNorm := false, ssm := [] } }
/-- That block with context 5. -/
def withCtx : State := { attached3 with contexts := [(5, ctx1)] }
/-- That block with partition 0 open to every class and four contexts. -/
def roomy : State :=
  { attached3 with lay := { State.reset.lay with active := { State.reset.lay.active with
      partitions := [{ enable := true, classMask := 15, maxContexts := 4, atticShare := 100, stepShare := 0 }] } } }
/-- And with context 5. -/
def roomyCtx : State := { roomy with contexts := [(5, ctx1)] }
/-- A layout that hosts every layer here, with one partition of all classes. -/
def layout1 : Layout :=
  { partitions := [{ enable := true, classMask := 15, maxContexts := 4, atticShare := 256, stepShare := 0 }]
    attic := { stackMask := 63, crateKib := 32768, slabKib := 1024, invKib := 1024 }
    store := { chanMask := 0xFFFF, rate := 4800, spillUnits := 1 }
    placement := { crateStacks := 63, slabStacks := 63 }
    roles := [{ kind := 1, epoch := 1, device := 0, key := 0xFF00 }]
    serial := 1 }
/-- A vocabulary of two strings in slot 0. -/
def vocab1 : Table := { body := .vocab { marker := 0, strings := [[65], [66]], special := [false, false] }, digest := 0, shared := true, owner := none, space := 1 }
/-- A context that binds it. -/
def ctxV : Ctx := { ctx1 with binding := some { vocab := some 0, embed := none, constr := none, dests := [], slice := false } }
/-- The handle of serial 0, generation 0 of context 5 of device 0. -/
def handle1 : Nat := 5 * 2 ^ 43
/-- A parked session of that context. -/
def sess1 : Session := { handle := handle1, state := .parked, cls := 1, step := 3, length := 4 }
/-- An entry that names it. -/
def sub1 : Sub := { sub0 with handle := handle1 }
/-- An input of the token 1. -/
def tokenOpen : OpenArgs :=
  { inLen := 4, data := [1, 0, 0, 0], cls := 1, flags := 4, outRing := 0, customer := 0, maxTokens := 0, seed := 0, park := 0, end_ := 0, params := none, rsv := 0 }
/-- A block with the layout, the context and the session. -/
def withSess : State :=
  { attached3 with
    lay := { active := layout1 }, contexts := [(5, ctxV)], tok := { slots := [(0, vocab1)] }
    sess := { table := [(hKey handle1, sess1)], serials := { nextFresh := 1 } } }
/-- An inventory node of context 5. -/
def node1 : InvNode := { hash := 9, parent := none, ctx := 5, fmt := 1, depth := 1, gen := 1, tUse := 0, born := 0, tokens := [], crates := [] }
/-- A lookup that waits for device 3. -/
def lookup1 : Lookup := { req := 2, probed := [3], waitingFor := [3], answers := [], committing := false, t := 0 }
/-- A publication that waits for device 3. -/
def op1 : InvOp := { request := 7, sub := sub1, publish := true, handle := handle1, waitingFor := [3] }
/-- `withSess` with that node, that lookup and that publication. -/
def withNode : State :=
  { withSess with inv := { nodes := [(4, node1)], ops := [op1] }, sess := { table := [(hKey handle1, { sess1 with lookup := some lookup1 })] } }
/-- An outcome is the value named. -/
def okIs {α : Type} [DecidableEq α] (e : Except (Status × Nat) α) (a : α) : Bool := match e with | .ok b => b = a | .error _ => false
/-- A swap that frees slot 3. -/
def swap1 : Swap := { sub := sub0, target := .free 3, ctxs := [], scope := [] }
/-- `withSess` with a second vocabulary in slot 2 that nothing binds, and a swap that waits. -/
def swapping1 : State := { withSess with tok := { slots := [(0, vocab1), (2, vocab1)], swaps := [swap1] } }
/-- A bind block that names the vocabulary in slot 0 and one destination. -/
def bindBlock : List Nat := [0, 0xFF, 0xFF, 1] ++ List.replicate 60 0
/-- EMB_CFG: mode 1, 500 µs, depth 1. -/
def embWord : RegWrite := { off := 0xB00200, size := 8, value := 2 ^ 32 + 500 * 2 ^ 16 + 1 }
/-- The session's entry of a part: started here. -/
def entry1 : PartEntry := { handle := handle1, step := 3, homeEpoch := 1, started := true, admitted := true }
/-- A part of that session, submitted and homed here. -/
def part1 : StepPart :=
  { stepRef := 1, submitter := 0, home := 0, cls := 1, first := 0, last := 0, context := 5, tokens := 1, block := false, noRerun := false,
    entries := [entry1], homeRec := [{}], participants := [0] }
/-- `withSess` with the session active in that part. -/
def stepping1 : State :=
  { withSess with steps := { parts := [part1] }, sess := { table := [(hKey handle1, { sess1 with state := .active })], serials := { nextFresh := 1 } } }
/-- A message for layer 0 of that step. -/
def qkv1 : AtnQkv :=
  { block := false, ssm := false, attn := true, rsv := 0, epoch := 1, src := 3, layer := 0, kvFirst := 0, kvCount := 1, gFirst := 0, gCount := 0,
    tokensM1 := 0, stepRef := 1, handle := handle1, step := 3, pos := 4, attempt := 0, length := 432, elems := List.replicate 192 0 }
/-- A frame that carries nothing. -/
def frame1 : Frame := { dst := 3, src := 0, vc := 0, demoted := false, phase := false, retx := false, startEpoch := 1, length := 0, txid := 0, body := .tack [] }
/-- A state with a command in front, as StepRunsQueueFront asks. -/
theorem wit_stepRunsQueueFront : ({ State.reset with pending := [.embDecay] } : State).pending = .embDecay :: [] := by decide

/-- Both cases of EmptyQueueCountsTime occur: after reset, and with the power off. -/
theorem wit_emptyQueueCountsTime : (State.reset.pending = [] ∧ live State.reset) ∧
    (asleep .off).pending = [] ∧ ¬ live (asleep .off) := by decide

/-- The block can be off. -/
theorem wit_manufacturingModeStopsThere : (asleep .off).clk.phase = .off := by decide

/-- The premises of IdentityReadsSameAfterEveryStep: the reset state with a command waiting, and its step. -/
theorem wit_identityReadsSameAfterEveryStep : ∃ t, step { State.reset with pending := [.embDecay] } = .next t ∧
    State.reset.part = .rb4816 ∧ State.reset.stepping = 0 ∧ liveField State.reset Reg.TOP_ID.pci_device [] = pciDevice .rb4816 % 2 ^ 16 ∧
    liveField State.reset Reg.TOP_ID.pci_vendor [] = Config.pciVendor % 2 ^ 16 ∧ liveField State.reset Reg.TOP_ID.part [] = 1 ∧
    liveField State.reset Reg.TOP_ID.stepping [] = 0 := ⟨_, rfl, by decide, by decide, by decide, rfl, by decide, by decide⟩

/-- A state that is off, as PowerOffChangesNothing asks, with a step that answers. -/
theorem wit_powerOffChangesNothing : (asleep .off).clk.phase = .off ∧ (∀ a b c d, Instr.pwrOkRise a b c d ∉ (asleep .off).pending) ∧
    { (asleep .off) with pending := (asleep .off).pending, out := (asleep .off).out } = asleep .off ∧ ∃ t, step (asleep .off) = .next t := ⟨by decide, fun _ _ _ _ => List.not_mem_nil, rfl, _, rfl⟩

/-- A tripped state with a step that answers, as ThermalTripHoldsUntilPowerFalls asks, and the reset state for its other clauses. -/
theorem wit_thermalTripHoldsUntilPowerFalls :
    ((asleep .tripped).clk.phase = .tripped ∧ (asleep .tripped).clk.pins.thermTripN = false ∧ (asleep .tripped).clk.plls = allPlls .off ∧
      (asleep .tripped).clk.inReset = List.range 24 ∧ (asleep .tripped).host.inReset = true ∧ ∀ n, Instr.pwrOkFall n ∉ (asleep .tripped).pending) ∧
    (∃ t, step (asleep .tripped) = .next t) ∧ State.reset.clk.phase ≠ .off := ⟨⟨by decide, by decide, by decide, by decide, by decide, fun _ => List.not_mem_nil⟩, ⟨_, rfl⟩, by decide⟩

/-- Two fields at different keys, and the reset file in canonical form. -/
theorem wit_fieldReadsWhatWasStored : keyOf Reg.MON_CFG.baud [] ≠ keyOf Reg.MON_CFG.enable [] ∧ keysRise State.reset.regs = true := by decide

/-- A range of two bytes, an address outside it, a canonical memory. -/
theorem wit_stagingMemoryReadsBack : 1 < [1, 2].length ∧ (4 < 5 ∨ 5 + [1, 2].length ≤ 4) ∧ Mem.wf [(3, 7)] = true := by decide

/-- A field at neither of the two keys. -/
theorem wit_resetStateHoldsResetValues : keyOf Reg.MON_CFG.baud [] ≠ keyOf Reg.TOP_INT_CAUSE.fatal [] ∧
    keyOf Reg.MON_CFG.baud [] ≠ keyOf Reg.CLK_START.cause [] := by decide

/-- Each clause of DoorbellsMoveRingIndices has its case, at the greatest value a ring takes too. -/
theorem wit_doorbellsMoveRingIndices :
    (hostReaches ringed ∧ doorbellMalformed (3 * 0x1000) 4 15 = false ∧ ringEnabled ringed 3 = true ∧ 15 < sqSize ringed 3) ∧
    (doorbellMalformed (3 * 0x1000 + 8) 4 2 = false ∧ 2 < cqSize ringed 3 ∧
      ringUsed (cqSize ringed 3) (ringOf ringed 3).cqHead 2 ≤ cqUsed ringed 3) ∧
    (doorbellMalformed (0x400000 + 5 * 0x1000) 8 2 = false ∧ fldAt ringed Reg.TOP_ORING_CFG.enable [5] ≠ 0 ∧ 2 < orSize ringed 5 ∧
      ringUsed (orSize ringed 5) (oringOf ringed 5).head 2 ≤ ringUsed (orSize ringed 5) (oringOf ringed 5).head (oringOf ringed 5).tail) ∧
    (doorbellMalformed 0x800000 4 1 = false ∧ fld ringed Reg.TOP_EVT_CFG.enable ≠ 0 ∧ 1 < evtSize ringed ∧
      ringUsed (evtSize ringed) ringed.host.evtRing.head 1 ≤ ringUsed (evtSize ringed) ringed.host.evtRing.head ringed.host.evtRing.tail) := by decide

/-- The rings of `ringed` with entries to signal. -/
def signalling : State :=
  { ringed with
    regs := (setFld (setFldAt (setFldAt ringed Reg.TOP_ORING_CFG.irq_count [5] 9) Reg.TOP_RING_CFG.irq_count [3] 9) Reg.TOP_EVT_CFG.irq_count 9).regs
    host := { rings := [(3, { cqTail := 2, unsignalled := 2 })], orings := [(5, { tail := 2, unsignalled := 1 })], evtRing := { tail := 2, unsignalled := 1 } } }
/-- Each clause of RingSetupAndFaults has its case: a doorbell write of 16 bits too many, the last byte of a reserved page, rings to
signal, and writes that enable rings of the least and the greatest size. -/
theorem wit_ringSetupAndFaults :
    (hostReaches ringed ∧ 0x3FFFFF < 0x400000 ∧ 0x3FF008 % 0x1000 < 16 ∧ doorbellMalformed 0x3FF008 4 0x10000 = true) ∧
    (0x7FFFFF < 0x800000 ∧ 16 ≤ 0x7FFFFF % 0x1000) ∧
    (serving signalling ∧ (ringOf signalling 3).armed = true ∧ 0 < (ringOf signalling 3).unsignalled ∧ 0 < cqUsed signalling 3 ∧
      0 < fldAt signalling Reg.TOP_RING_CFG.irq_count [3]) ∧
    ((oringOf signalling 5).armed = true ∧ 0 < (oringOf signalling 5).unsignalled ∧
      0 < ringUsed (orSize signalling 5) (oringOf signalling 5).head (oringOf signalling 5).tail ∧ 0 < fldAt signalling Reg.TOP_ORING_CFG.irq_count [5]) ∧
    (signalling.host.evtRing.armed = true ∧ 0 < signalling.host.evtRing.unsignalled ∧
      0 < ringUsed (evtSize signalling) signalling.host.evtRing.head signalling.host.evtRing.tail ∧ 0 < fld signalling Reg.TOP_EVT_CFG.irq_count) ∧
    (hostReaches State.reset ∧ ringEnabled State.reset 0 = false ∧ wget ringWord Reg.TOP_RING_CFG.enable = some 1 ∧
      wget ringWord Reg.TOP_RING_CFG.fault = some 0 ∧
      wgetD ringWord Reg.TOP_RING_CFG.cq_log2 (fldAt State.reset Reg.TOP_RING_CFG.cq_log2 [0]) = 16 ∧
      4 ≤ wgetD ringWord Reg.TOP_RING_CFG.sq_log2 (fldAt State.reset Reg.TOP_RING_CFG.sq_log2 [0]) ∧
      wgetD ringWord Reg.TOP_RING_CFG.sq_log2 (fldAt State.reset Reg.TOP_RING_CFG.sq_log2 [0]) ≤ 16) ∧
    (fldAt State.reset Reg.TOP_ORING_CFG.enable [0] = 0 ∧ wget oringWord Reg.TOP_ORING_CFG.enable = some 1 ∧
      wget oringWord Reg.TOP_ORING_CFG.fault = some 0 ∧ wget oringWord Reg.TOP_ORING_CFG.log2 = some 4) ∧
    (fld State.reset Reg.TOP_EVT_CFG.enable = 0 ∧ wget evtWord Reg.TOP_EVT_CFG.enable = some 1 ∧
      wget evtWord Reg.TOP_EVT_CFG.fault = some 0 ∧ wget evtWord Reg.TOP_EVT_CFG.log2 = some 16) := by decide

/-- An entry of the reset state's aggregation table to close, as EventTableCounts asks. -/
theorem wit_eventTableCounts : serving State.reset ∧
    (State.reset.events.agg.find? fun a => a.source = 0x02000000 && a.code = 0x0203 && a.epoch = 0).isSome = true := by decide

/-- Each clause of AttachmentVerbs has its case, after reset and attached at level 3. -/
theorem wit_attachmentVerbs : (accepts 0 State.reset sub0 ∧ sub0.ring = 0 ∧ missingCaps (taken State.reset sub0) 0 = 0 ∧ State.reset.attached = 0) ∧
    (accepts 1 attached3 sub0 ∧ attached3.contexts = [] ∧ attached3.detaching = [] ∧ attached3.attached = Nat.min 5 3) := by decide

/-- The cases of ContextVerbs: an attached block whose partition 0 takes contexts, a block of one layer, and a context to destroy. -/
theorem wit_contextVerbs : (accepts 1 roomy sub0 ∧ 0 ≤ 15 ∧ blobOk (1 :: List.replicate 95 0) = true ∧
      (parseParams roomy.attached (1 :: 1 :: 1 :: 0 :: 1 :: List.replicate 123 0) [] [] [1]).isSome = true ∧ tget? roomy.contexts sub0.context = none ∧
      (partEntry roomy 0).enable = true ∧ ctxsIn roomy 0 < (partEntry roomy 0).maxContexts ∧ recordKib ctx1.params ≤ stepSharedFree (taken roomy sub0)) ∧
    (accepts 1 withCtx sub0 ∧ ctxBad (taken withCtx sub0) sub0.context = none ∧ serving withCtx) := by decide

/-- What a statement asks of an admitted verb. -/
def accepted : Verdict → Bool | .accept _ _ _ _ => true | _ => false
/-- SES_OPEN's case in SessionVerbsRun: a context with a vocabulary, room and an input of one token. -/
theorem wit_sessionVerbsRun_open :
    accepts 1 withSess sub1 ∧ openArgsBad (taken withSess sub1) true sub1.context tokenOpen = none ∧ tget? withSess.contexts sub1.context = some ctxV ∧
      ctxV.torn = none ∧ (hasCap (taken withSess sub1) 0 || hasCap (taken withSess sub1) 1) = true ∧ withSess.steps.paused = false ∧
      swapping (taken withSess sub1) sub1.context = false ∧ nextSerial (taken withSess sub1) = some (1, 0) ∧
      (countedSess (taken withSess sub1)).length < sessionLimit (taken withSess sub1) ∧ shelfComes (taken withSess sub1) = true ∧
      accepted (decideVerb (taken withSess sub1) (openRecord (taken withSess sub1) (mkHandle 0 5 1 0) 0 tokenOpen) ctxV.params true
        (estimateT (taken withSess sub1) true 4)) = true := by decide
/-- The other verbs' cases: a parked session of that context. -/
theorem wit_sessionVerbsRun : let u := loseGone (promoteIfLost (taken withSess sub1) sub1.handle) sub1.handle
    accepts 2 withSess sub1 ∧ openArgsBad u false sub1.context tokenOpen = none ∧ verbSession u sub1 = .ok sess1 ∧ sess1.state = .parked ∧
      mustWait sess1 = false ∧ (hasCap u 0 || hasCap u 1) = true ∧ u.steps.paused = false ∧ swapping u sub1.context = false ∧
      paramsOf u sub1.context = some ctxV.params ∧ accepted (decideVerb u sess1 ctxV.params false (estimateT u true 4)) = true :=
  ⟨by decide, by decide, rfl, by decide, by decide, by decide, by decide, by decide, by decide, by decide⟩
/-- A session to cancel, to query and to publish from. -/
theorem wit_sessionVerbsRun_named : let u := promoteIfLost (taken withSess sub1) sub1.handle
    verbSession u sub1 = .ok sess1 ∧ sess1.rejoin = false ∧ sess1.state ≠ .retiring ∧ tget? u.mir.shadows (hKey sub1.handle) = none ∧ hasCap u 6 = true :=
  ⟨rfl, by decide, by decide, by decide, by decide⟩

/-- The cases of InventoryVerbAndMessages: the context of `withSess`, a node of it, a session whose lookup waits for device 3. -/
theorem wit_inventoryVerbAndMessages :
    (let u := promoteIfLost (taken withNode sub0) 0
     accepts 2 withNode sub0 ∧ sub0.handle = 0 ∧ nodeRef 4 1 ≠ 0 ∧ tget? u.contexts sub0.context = some ctxV ∧
       okIs (removeNode u sub0.context (nodeRef 4 1) none) (4, node1) = true ∧ hasCap u 6 = true ∧ ctxV.torn = none) ∧
    (serving withNode ∧ ctxBad (cleared withNode) 5 = none ∧ paramsOf (cleared withNode) 5 = some ctxV.params) ∧
    ((withNode.inv.nodes.find? fun n => n.2.indexed && n.2.ctx = 5 && n.2.fmt = 1 && n.2.depth = 1 && n.2.hash = 9) = some (4, node1)) ∧
    (invOp withNode 7 = some op1 ∧ op1.waitingFor.contains 3 = true ∧ op1.publish = true) ∧
    ((sessOf withNode handle1).bind (·.lookup) = some lookup1 ∧ lookup1.req = 2 ∧ lookup1.waitingFor.contains 3 = true ∧ lookup1.committing = false) :=
  ⟨⟨by decide, by decide, by decide, by decide, by decide, by decide, by decide⟩, ⟨by decide, by decide, by decide⟩, by decide, by decide, by decide⟩

/-- The cases of TableSwapsAndEmbeddingCache: slot 1 is empty, slot 2 holds a table that nothing binds, a swap waits, and a write of EMB_CFG. -/
theorem wit_tableSwapsAndEmbeddingCache :
    (let u := taken swapping1 sub0
     accepts 2 swapping1 sub0 ∧ slotTable swapping1 1 = none ∧ tget? swapping1.contexts sub0.context = some ctxV ∧ ctxV.torn = none ∧
       hasCap u (slotCap 1) = true ∧ tableFits u 1 (tableSpace 1 4096) = true ∧ hasCap u 8 = true ∧
       parseBind u bindBlock = some { vocab := some 0, embed := none, constr := none, dests := [0], slice := false } ∧
       bindVocabOk u { vocab := some 0, embed := none, constr := none, dests := [0], slice := false } = true ∧
       bindClash u sub0.context { vocab := some 0, embed := none, constr := none, dests := [0], slice := false } = false ∧
       slotTable swapping1 2 = some vocab1 ∧ vocab1.owner = none ∧ bindersOf u 2 = []) ∧
    (serving swapping1 ∧ (swapping1.tok.swaps.find? fun w => !swapBusy (cleared swapping1) w) = some swap1) ∧
    (hostReaches swapping1 ∧ wget embWord Reg.EMB_CFG.mode = some 1 ∧ limOk Reg.EMB_CFG.mode.lim 1 = true ∧ wget embWord Reg.EMB_CFG.decay_us = some 500 ∧
      limOk Reg.EMB_CFG.decay_us.lim 500 = true ∧ wget embWord Reg.EMB_CFG.depth = some 1 ∧ limOk Reg.EMB_CFG.depth.lim 1 = true) := by decide

/-- A waiter of device 0, context 9, class 0. -/
def waiter9 : SemWaiter := { dev := 0, ctx := 9, cls := 0, sub := sub0, since := 0 }
/-- Semaphore 1 held by context 5, semaphore 2 by context 9, semaphore 3 passed on, semaphore 4 held with a waiter. -/
def sems1 : State :=
  { withCtx with steps := { sems := [(1, { holder := some ⟨0, 5, 2⟩ }), (2, { holder := some ⟨0, 9, 2⟩ }), (3, { holder := some ⟨0, 9, 0⟩, granted := [(waiter9, none)] }),
      (4, { holder := some ⟨0, 5, 2⟩, waiters := [waiter9], inherit := some 0 }), (6, { mark := some ⟨1, 7, 0⟩ })] } }
/-- The cases of SemaphoreCommands: free, marked, held by the caller, held by another, passed on, inherited. -/
theorem wit_semaphoreCommands :
    accepts 1 sems1 sub0 ∧ ctxBad sems1 sub0.context = none ∧ serving sems1 ∧ (semOf sems1 4095).holder = none ∧ (semOf sems1 6).mark = some ⟨1, 7, 0⟩ ∧
      (semOf sems1 1).holder = some ⟨0, 5, 2⟩ ∧ (semOf sems1 2).holder = some ⟨0, 9, 2⟩ ∧ (semOf sems1 3).granted = [(waiter9, none)] ∧
      (semOf sems1 4).holder = some ⟨0, 5, 2⟩ ∧ (semOf sems1 4).inherit = some 0 ∧ nextWaiter (semOf sems1 4).waiters = some waiter9 := by decide

/-- The step of `stepping1` with a message held for a descriptor that has not come. -/
def held1 : State := { stepping1 with atn := { work := [{ id := 1, msg := { qkv1 with stepRef := 2 }, arrival := 0, hold := .descriptor }], nextWork := 2 } }
/-- The cases of AttentionMessages: taken, held, answered, stale, and a hold that is over. -/
theorem wit_attentionMessages :
    serving stepping1 ∧ promoteIfLost (cleared stepping1) handle1 = stepping1 ∧
      (match checkQkv stepping1 qkv1 false with | .take 0 _ => true | _ => false) = true ∧
      (match checkQkv stepping1 { qkv1 with stepRef := 2 } false with | .hold .descriptor => true | _ => false) = true ∧
      (match checkQkv stepping1 { qkv1 with step := 2 } false with | .answer .badHandle 0x6 => true | _ => false) = true ∧
      (match checkQkv stepping1 { qkv1 with attempt := 1 } false with | .stale => true | _ => false) = true ∧
      headerOk { qkv1 with rsv := 1 } = false ∧ tget? stepping1.contexts (hCtx handle1) = some ctxV ∧ messageOk ctxV.params qkv1 = true ∧
      handleCurrent withCtx qkv1.handle = false ∧ tget? withCtx.contexts (hCtx handle1) = some ctx1 ∧ messageOk ctx1.params qkv1 = true ∧
      handleCurrent stepping1 qkv1.handle = true ∧ ctxV.torn = none ∧ partOf stepping1 2 = none ∧ serving held1 ∧ (workOf held1 1).isSome = true ∧
      (match checkQkv (cleared held1) { qkv1 with stepRef := 2 } true with | .answer .badHandle 0x6 => true | _ => false) = true := by decide

/-- A delegated block of one position, one query head and one crate with nothing visible. -/
def dlg1 : DlgBlock :=
  { bf16Out := false, partial_ := false, lastPart := false, rsv := 0, epoch := 1, src := 3, shape := 4, cls := 1, positions := 1, qCount := 1, chunk := 16,
    part := 0, pos := 0, lambda := 0, request := 1, handle := handle1, q := List.replicate 64 0,
    crates := [{ visible := 0, index := 0, k := List.replicate (sectionBytes false 64) 0, v := List.replicate (sectionBytes false 64) 0 }] }
/-- A work that waits for request 7 of the delegate's epoch 4, and the delegate. -/
def delegated1 : State :=
  { stepping1 with
    atn := { work := [{ id := 1, msg := qkv1, arrival := 0, issued := true, dlg := [(7, 4, 0, 0, 0, 0)] }], nextWork := 2 }
    lay := { stepping1.lay with active := { layout1 with roles := layout1.roles ++ [{ kind := 5, epoch := 4, device := 9, key := 0 }] } } }
/-- The cases of DelegatedBlocks: a block within the limits, and an outstanding request. -/
theorem wit_delegatedBlocks :
    serving stepping1 ∧ dlgOk dlg1 = true ∧ serving delegated1 ∧
      (dlgWork delegated1 7).map (fun x => (x.1.id, x.2.1, x.2.2.1, x.2.2.2.1)) = some (1, 7, 4, 0) ∧ (delegateOf delegated1).map (·.epoch) = some 4 := by decide

/-- A command of work 1 for half 0, class 1. -/
def tile1 : TileCmd := { work := 1, half := 0, cls := 1, ctx := 5, handle := handle1, bytes := 64 }
/-- `stepping1` with a work, its command in a queue and another command of it on tile 3. -/
def tiled1 : State :=
  { stepping1 with
    atn := { work := [{ id := 1, msg := qkv1, arrival := 0, issued := true, tiles := 2 }], nextWork := 2 }
    den := { queues := [(1, [tile1])], running := [(3, tile1)] } }
/-- The host's command in progress on tile 3. -/
def testing1 : State := { State.reset with den := { hostCmd := some (3, List.replicate 64 0) } }
/-- A block that allows host commands. -/
def testable1 : State := setFld State.reset Reg.DEN_CFG.host_cmds 1
/-- The cases of TileCommands: a free tile, a running command that ends, times out or fails, and the host's command. -/
theorem wit_tileCommands :
    serving tiled1 ∧ tileFree tiled1 0 = true ∧ nextCmd tiled1 (tileHalf 0) = some (1, tile1) ∧ tiled1.den.hostCmd = none ∧ tget? tiled1.den.running 3 = some tile1 ∧
      (usableTiles (setFld tiled1 Reg.DEN_TILES.failed (putBit (fld tiled1 Reg.DEN_TILES.failed) 3 true))).isEmpty = false ∧ tile1.serve = false ∧
      (workOf (denFault { tiled1 with den := { tiled1.den with running := [] } } 3 5 tile1) 1).isSome = true ∧ serving testing1 ∧ testing1.den.hostCmd = some (3, List.replicate 64 0) ∧
      hostReaches testable1 ∧ flag testable1 Reg.DEN_TEST_CTL.busy = false ∧ (partTiles testable1.part).isEmpty = false ∧
      flag (setFld (written testable1) Reg.DEN_TEST_CTL.tile 3) Reg.DEN_CFG.host_cmds = true ∧
      (usableTiles (setFld (written testable1) Reg.DEN_TEST_CTL.tile 3)).contains 3 = true := by decide

/-- `stepping1` with an entry that may start and has not. -/
def startable1 : State :=
  { stepping1 with
    steps := { parts := [{ part1 with entries := [{ entry1 with started := false }] }] }
    lay := { stepping1.lay with active := { layout1 with sram := { layout1.sram with step := 4 } } } }
/-- A descriptor of one session. -/
def desc1 : StepDesc :=
  { noRerun := false, block := false, epoch := 1, src := 0, home := 0, stepRef := 9, cls := 1, first := 0, last := 0, context := 5, count := 1, tokens := 1,
    reserved := 0, entries := [⟨handle1, 3, 1⟩] }
/-- Two parts of which the second, of a greater class, holds what a link lacks for the first. -/
def short1 : State :=
  { stepping1 with
    steps := { parts := [part1, { part1 with stepRef := 2, cls := 3 }] }
    link := { links := [(0, { queues := [(1, [{ body := .frame frame1, part := some (1, handle1), flits := 2 }]),
      (3, [{ body := .frame frame1, part := some (2, handle1), flits := 4, sent := 2, heldShared := 8 }])] })] } }
/-- The cases of StepDescriptorsAndStarts. -/
theorem wit_stepDescriptorsAndStarts :
    serving startable1 ∧ startable1.lay.fast = none ∧ (([handle1].foldl promoteIfLost (cleared startable1)).lay.fast).isNone = true ∧
      descBad startable1 desc1 = none ∧ descBad startable1 { desc1 with epoch := 2 } = some (.staleRole, 1) ∧ descMalformed { desc1 with count := 2 } = true ∧
      descMalformed desc1 = false ∧ (partOf startable1 1).isSome = true ∧ canStart startable1 { part1 with entries := [{ entry1 with started := false }] } = true ∧
      (paramsOf startable1 5).isSome = true ∧ serving short1 ∧ creditShort short1 1 = some (0, 8) ∧
      (coverVictims (fun v => sharedCredits short1 v.stepRef 0) (victims short1 1) 8).map (·.map (·.stepRef)) = some [2] := by decide

/-- A submitted step of two sessions of which one is reported. -/
def submitted1 : Submitted :=
  { sub := sub0, resultAddr := 4096, desc := { desc1 with count := 2, entries := [⟨handle1, 3, 1⟩, ⟨handle1 + 1, 3, 1⟩] }, refs := [(9, [0, 1])], results := [(0, .ok, 0)] }
/-- `stepping1` with that step. -/
def submitting1 : State := { stepping1 with steps := { stepping1.steps with submitted := [submitted1] } }
/-- The cases of StepVerbsAtTheSubmitter: a submission, results that complete a step or do not, and a part to kill. -/
theorem wit_stepVerbsAtTheSubmitter :
    accepts 1 submitting1 sub0 ∧ desc1.count = 1 ∧ desc1.entries.length = desc1.count ∧ serving submitting1 ∧
      (submitting1.steps.submitted.find? fun t => t.refs.any (·.1 = 9)) = some submitted1 ∧
      firstFail [(0, .ok, 0), (1, .ok, 0)] = none ∧ firstFail [(0, .ok, 0), (1, .cancelled, 2)] = some (1, .cancelled, 2) ∧
      partOf submitting1 1 = some part1 ∧ isHome submitting1 part1 = true ∧ partOf submitting1 2 = none := by decide

/-- The home's part of a session that device 3 takes part in: not sealed, with the mirror's record sent, decided. -/
def homed1 (r : HomeEntry) : State :=
  { stepping1 with steps := { parts := [{ part1 with participants := [0, 3], entries := [{ entry1 with prepared := true }], homeRec := [r] }] } }
/-- A participant's part of a session homed at device 3. -/
def guested1 (e : PartEntry) : State := { stepping1 with steps := { parts := [{ part1 with home := 3, submitter := 3, entries := [e], homeRec := [], participants := [] }] } }
/-- An entry of a step message. -/
def stepEn (st : Status) (ep : Nat) : StepEntry := { index := 0, status := st, detail := 0, homeEpoch := ep, step := 0, token := 0 }
/-- A step message of device 3 for the part. -/
def stepM (l : List StepEntry) : StepMsg :=
  { mirror := false, resubmit := false, hasNext := false, epoch := 0, src := 3, stepRef := 1, attempt := 0, next := 0, entries := l }
/-- The cases of PrepareAndSealMessages. -/
theorem wit_prepareAndSealMessages :
    serving (homed1 {}) ∧ (stepM [stepEn .ok 0]).entries = [stepEn .ok 0] ∧
      (partOf (homed1 {}) 1).map (fun p => (p.entries, p.homeRec)) = some ([{ entry1 with prepared := true }], [{}]) ∧
      (partOf (homed1 { decided := true }) 1).map (·.homeRec) = some [{ decided := true }] ∧ partOf (homed1 {}) 2 = none ∧
      live (guested1 { entry1 with prepared := true }) ∧ (partOf (guested1 { entry1 with prepared := true }) 1).map (·.entries) = some [{ entry1 with prepared := true }] ∧
      sessOf (guested1 entry1) entry1.handle = some { sess1 with state := .active } ∧
      serialLt 16 0xFFFF sess1.homeEpoch = true ∧ serialLt 16 1 sess1.homeEpoch = false ∧ serialLt 32 entry1.step sess1.step = false ∧
      (partOf (homed1 { mirrorSent := true }) 1).map (·.homeRec) = some [{ mirrorSent := true }] ∧
      sessOf (homed1 {}) handle1 = some { sess1 with state := .active } ∧ isHome (guested1 entry1) { part1 with home := 3 } = false ∧
      liveEntry { entry1 with prepared := true } = true := by decide

/-- A part whose entry is one step ahead of its session. -/
def ahead1 : State := { stepping1 with steps := { parts := [{ part1 with entries := [{ entry1 with step := 4, started := false, admitted := false }] }] } }
/-- The cases of KillsAbortsAndEntryHolds. -/
theorem wit_killsAbortsAndEntryHolds :
    serving stepping1 ∧ (stepM [stepEn .preempted 0]).entries = [stepEn .preempted 0] ∧ partOf stepping1 1 = some part1 ∧ isHome stepping1 part1 = true ∧
      part1.homeRec[0]? = some ({} : HomeEntry) ∧ part1.entries[0]? = some entry1 ∧ attemptScope .preempted 0 = true ∧ attemptScope .tierFault 8 = false ∧
      (partOf (guested1 entry1) 1).map (·.entries) = some [entry1] ∧ isHome (guested1 entry1) { part1 with home := 3 } = false ∧ entry1.attempt = 0 ∧
      serving ahead1 ∧ (partOf ahead1 1).map (·.entries) = some [{ entry1 with step := 4, started := false, admitted := false }] ∧
      entryCheck ahead1 { part1 with entries := [{ entry1 with step := 4, started := false, admitted := false }] }
        { entry1 with step := 4, started := false, admitted := false } false = .wait ∧
      sessOf ahead1 handle1 = some { sess1 with state := .active } := by decide

/-- `stepping1` with an input of two bytes to tokenize. -/
def typed1 : State :=
  { stepping1 with sess := { table := [(hKey handle1, { sess1 with state := .prefilling, input := some { isTokens := false, inLen := 2, data := [65, 66], order := 0 } })] } }
/-- Logits of the whole vocabulary of two strings. -/
def logits1 : LogitsMsg := { epoch := 1, src := 3, first := 0, count := 2, fmt := 0, values := [0, 1], handle := handle1, step := 3, stepRef := 1, attempt := 0 }
/-- A session covered and ready to be drawn. -/
def covered1 : State :=
  { stepping1 with sess := { table := [(hKey handle1, { sess1 with state := .active, covered := true, coveredAt := some 0, logits := [{ first := 0, fmt := 0, values := [0, 1] }] })] } }
/-- The cases of TokenizingLogitsAndSampling. -/
theorem wit_tokenizingLogitsAndSampling :
    serving typed1 ∧ typed1.clk.inReset.contains 18 = false ∧ (nextInputOf typed1).map (·.1) = some handle1 ∧ (vocabOf typed1 (hCtx handle1)).isSome = true ∧
      serving stepping1 ∧ sessOf (promoteIfLost (cleared stepping1) handle1) handle1 = some { sess1 with state := .active } ∧
      (partOf (promoteIfLost (cleared stepping1) handle1) 1) = some part1 ∧ isHome (promoteIfLost (cleared stepping1) handle1) part1 = true ∧
      entryIndex part1 handle1 = some 0 ∧ liveEntry entry1 = true ∧ entry1.started = true ∧ entry1.attempt = 0 ∧
      logitsBad sess1 logits1 0 2 = none ∧ logitsBad sess1 logits1 1 2 = some (.versionMismatch, 7) ∧
      logitsCovered [{ first := 0, fmt := 0, values := [0, 1] }] 2 = true ∧ logitsCovered [{ first := 0, fmt := 0, values := [0] }] 2 = false ∧
      partOf (promoteIfLost (cleared stepping1) handle1) 7 = none ∧ serving covered1 ∧ (nextSample covered1).map (·.handle) = some handle1 ∧
      covered1.clk.inReset.contains 18 = false ∧ (vocabOf (modSess (cleared covered1) handle1 fun x => { x with coveredAt := none }) (hCtx handle1)).isSome = true := by decide

/-- An insert into bank 0. -/
def camIns : CamWrite := { sub := sub0, op := 1, bank := 0, width := 1, priority := 7, action := 9, key := 1, mask := 1, rsv := 0 }
/-- A block whose bank 0 belongs to context 5, with an item of generation 1 held. -/
def camReady : State :=
  { setFldAt (setFldAt (setFldAt withCtx Reg.CAM_BANK.width [0] 1) Reg.CAM_BANK.writable [0] 1) Reg.CAM_BANK.owner [0] 5 with
    cam := { gen := 2, held := [(1, 1)], drains := [(sub0, 1)] } }
/-- The cases of CamCommands: an insert that is taken, one that is refused, one in progress, drains, and lookups. -/
theorem wit_camCommands :
    accepts 3 camReady sub0 ∧ ctxBad camReady sub0.context = none ∧ camIns.sub = sub0 ∧ camKey 1 (1 :: List.replicate 9 0 ++ 1 :: List.replicate 13 0) = (1, 1, 0) ∧
      camWriteBad (taken camReady sub0) camIns = none ∧ (camWriteBad (taken camReady sub0) { camIns with op := 2, action := 0 }).isSome = true ∧
      (camWriteBad (taken camReady sub0) { camIns with op := 4, priority := 0, action := 0, key := 0, mask := 0 }) = none ∧
      serving camReady ∧ tget [] ({ camReady with cam := { writes := [(0, [camIns])] } } : State).cam.writes 0 = [camIns] ∧
      serialLt 32 camReady.cam.gen 2 = false ∧ camDrained camReady 1 = true ∧ camDrained camReady 2 = false ∧ hostReaches camReady := by decide

/-- A block with host jobs allowed and a busy thread of unit 0: its store is empty, so its first instruction stops it. -/
def jobs1 : State :=
  { setFld { withSess with nbu := { threads := [(thKey 0 0, { busy := true, store := [] }), (thKey 0 1, { busy := true, issuer := Issuer.frontEnd 1 })] } } Reg.NBU_CTL.host_jobs 1 with
    atn := { work := [{ id := 1, msg := qkv1, arrival := 0, issued := true, jobs := 1 }], nextWork := 2 } }
/-- The cases of NbuJobCommands: an idle thread, a busy one that runs, one that has stopped, one of a front end. -/
theorem wit_nbuJobCommands :
    hostReaches jobs1 ∧ flag jobs1 Reg.NBU_CTL.host_jobs = true ∧ nbuPresent jobs1 0 = true ∧ (threadOf jobs1 0 0).busy = true ∧ (threadOf jobs1 0 2).busy = false ∧
      bitsOf (2 ^ 48 * 64) 48 16 = 64 ∧ (storeFor jobs1 0 0).isSome = true ∧ (storeFor jobs1 0 7).isNone = true ∧ (threadOf jobs1 0 0).issuer = Issuer.host ∧ serving jobs1 ∧
      (match nbuRun [] 0 (jobStart jobs1 0 (threadOf jobs1 0 0)) with | .go _ => true | _ => false) = true ∧
      (match nbuRun [] 1 (jobStart jobs1 0 (threadOf jobs1 0 0)) with | .stop _ _ _ _ => true | _ => false) = true ∧
      (threadOf jobs1 0 1).issuer = Issuer.frontEnd 1 ∧ (workOf (endThread (cleared jobs1) 0 1 0x0A 0 0 0 false false) 1).isSome = true := by decide

/-- An index of one node: 16 elements of 8 bits. -/
def vindex1 : VsrIndex :=
  { id := 3, elem := 0, metric := 0, degree := 1, dim := 16, first := 0, count := 1, shard := 0, nodes := 1, entry := 0, page := 0, pages := 1, pairs := 6144, b0 := 0 }
/-- Its image but for the digest: header, then one node record with scale 1 and no neighbour. -/
def vimage1 : List Nat :=
  [0x53, 0x59, 0x56, 0x58, 1, 0, 0, 1, 16, 0, 3, 0, 0, 0, 1, 0, 0, 0, 0, 0, 1, 0, 0, 0] ++ List.replicate 104 0 ++
    (List.replicate 16 0 ++ [0, 0, 0x80, 0x3F] ++ List.replicate 28 0 ++ [0xFF, 0xFF, 0xFF, 0xFF] ++ List.replicate 12 0)
/-- `withSess` with room for indexes, that index in slot 2, a role for its shard here, and a query that waits for it. -/
def searching1 : State :=
  { withSess with
    lay := { active := { layout1 with attic := { layout1.attic with vsrKib := 64 }, roles := [{ kind := 3, epoch := 1, device := 0, key := 0 }] } }
    vsr := { slots := [(2, { index := vindex1, shared := true, owner := 5 })], next := 2,
             queries := [{ id := 1, sub := sub0, indexId := 3, first := 0, par := { k := 1, beam := 64, maxVisits := 10, filter := false, all := 0, any := 0, vec := [] },
                           partial_ := false, resultAddr := 0, waits := [(0, 4, false)] }] } }
/-- The cases of VectorSearchCommands. -/
theorem wit_vectorSearchCommands :
    hostReaches searching1 ∧ partWalker searching1.part = true ∧ vsrHeaderBad vimage1 = false ∧ vsrBodyBad vimage1 = false ∧ vimage1.length = 192 ∧ vsrNodeSize 16 0 1 = 64 ∧
      (let u := vsrCtl (written { State.reset with lay := searching1.lay }) 1 0 0 true 192
       hasCap u 4 = true ∧ (conflictWith u { no := 6, scope := [scIndex 0] }).isNone = true ∧ lowestRun (vsrRuns u) (vsrPages u) 1 = some 0) ∧
      accepts 3 searching1 sub0 ∧ ctxBad searching1 sub0.context = none ∧ hasCap (taken searching1 sub0) 4 = true ∧ vsrArgsBad 1 0 0 0 0 = false ∧ vsrArgsBad 0 0 0 0 0 = true ∧
      (searching1.vsr.slots.find? fun v => v.2.index.id = 3).map (·.1) = some 2 ∧ (searching1.vsr.slots.find? fun v => v.2.index.id = 4) = none ∧
      (((List.range 16).map fun i => (List.replicate 16 0).getD i 0).any fun b => (match decode32 b with | .fin _ => false | _ => true)) = false ∧
      serving searching1 ∧ hasCap searching1 4 = true ∧ (shardSlot searching1 3 0).map (·.1) = some 2 ∧ shardSlot searching1 3 1 = none ∧
      (searching1.vsr.queries.find? (·.id = 1)).map (fun q => q.waits.any (·.1 = 0)) = some true := by decide

/-- The header of a mirror message of device 3's home role for the session. -/
def mirHdr1 : MirrorHdr :=
  { last := false, layers := false, sync := false, status := .ok, epoch := 1, src := 3, handle := handle1, step := 3, seq := 2, attempt := 0, first := 0,
    lastLayer := 0, aux := 0, ref := 0 }
/-- The shadow of that session, whose home is device 3. -/
def shadow1 : MirShadow :=
  { desc := { sess1 with state := .shadow, shadowOf := .active, homeDev := 3 }, roles := [{ home := true, sender := 3, first := 0, lastLayer := 0, epoch := 1 }] }
/-- `withSess` with that shadow in place of the session. -/
def shadowed1 : State := { withSess with sess := {}, mir := { shadows := [(hKey handle1, shadow1)] } }
/-- The cases of MessagesTowardAShadow. -/
theorem wit_messagesTowardAShadow :
    serving shadowed1 ∧ (shadowOf (promoteIfLost (cleared shadowed1) handle1) handle1) = some shadow1 ∧ (mirLink shadowed1 handle1 true).isNone = true ∧
      (roleOf shadow1 3 true).map (fun r => (r.epoch, r.nextSeq, r.early.length)) = some (1, 2, 0) ∧ (roleOf shadow1 4 true).isNone = true ∧
      serialLt 32 1 2 = true ∧ serialLt 32 4 2 = false ∧ mirHdr1.epoch = 1 ∧ mirHdr1.seq = 2 ∧ (homeRole shadow1).map (·.synced) = some true ∧
      (let full : State := { shadowed1 with lay := { active := { layout1 with store := { layout1.store with spillUnits := 10 ^ 9 } } } }
       let full := commitCopies full mirHdr1.handle mirHdr1.src (!mirHdr1.layers) fun y => serialLt 32 y.step mirHdr1.step
       storeUnits full < storeUsed full + pagesOf (prepBytes { layers := [], tail := some { length := 1, maxTokens := 1, autoId := 0, autoState := 0 } })) := by decide

/-- The session's descriptor as a mirror message carries it. -/
def sdesc1 : SessDesc := descOf sess1
/-- `withSess` mirrored at device 3, with a state, a note, a copy and a retirement awaited, and a first report about device 7. -/
def mirrored1 : State :=
  { withSess with
    lay := { active := { layout1 with roles := layout1.roles ++ [{ kind := 2, epoch := 1, device := 7, key := 0 }] } }
    mir := { links := [{ handle := handle1, home := true, dev := 3, epoch := 1, first := 0, lastLayer := 0, m := 0, i := 0,
                         waits := [(1, .state), (2, .note 3), (3, .retire), (4, .prep 1 0)]
                         copies := [{ seq := 4, sentAt := 0, refused := true, copy := { layers := [], tail := none } }] }]
             reports := [{ lost := 7, observer := 4, link := 0, at_ := 0 }] }
    steps := { parts := [{ part1 with entries := [{ entry1 with prepWait := true }] }] } }
/-- `shadowed1` with device 3 lost. -/
def bereaved1 : State := { shadowed1 with mir := { shadowed1.mir with lost := [(0, { device := 3, timeUs := 0 })] } }
/-- The cases of MirrorsAndPromotion. -/
theorem wit_mirrorsAndPromotion :
    serving withSess ∧ tget? withSess.contexts (hCtx handle1) = some ctxV ∧ ctxV.torn = none ∧ (shadowOf withSess handle1).isNone = true ∧
      (tget? withSess.contexts (hCtx 0)).isNone = true ∧ serving mirrored1 ∧ (mirLink mirrored1 handle1 true).map (fun l => (l.dev, l.epoch)) = some (3, 1) ∧
      ((mirLink mirrored1 handle1 true).bind fun l => l.waits.find? (·.1 = 2)) = some (2, .note 3) ∧
      (copyFor mirrored1 handle1 ((mirLink mirrored1 handle1 true).getD { handle := 0, home := true, dev := 0, epoch := 0, first := 0, lastLayer := 0, m := 0, i := 0 })
        { seq := 4, sentAt := 0, refused := true, copy := { layers := [], tail := none } }).isSome = true ∧
      0 + fld { mirrored1 with timebase := 10 ^ 12 } Reg.CKP_MIR_CFG.prep_wait_us * 1000 ≤ 10 ^ 12 ∧
      (lostDevices mirrored1).contains 7 = false ∧ mirrored1.mir.oneByOne.contains 7 = false ∧ (rolesOf mirrored1 1 ++ rolesOf mirrored1 2).any (·.device = 7) = true ∧
      (mirrored1.mir.reports.find? fun r => r.lost = 7 && r.observer ≠ 5 && r.link / 8 ≠ 9 / 8).isSome = true ∧ withSess.device ≠ 7 ∧
      serving bereaved1 ∧ nextPromotion bereaved1 = some handle1 ∧ shadowOf bereaved1 handle1 = some shadow1 ∧ homeLost bereaved1 shadow1 = true ∧
      (homeRole shadow1).map (·.sender) = some 3 ∧ sessOf withSess handle1 = some sess1 ∧ sess1.guest = false := by decide

/-- `withSess` with cellar drive 0, a trunk key, and cuts: one of this home whose session is taken, one of device 3's, not yet copied. -/
def cutting1 : State :=
  { withSess with
    tier := { withSess.tier with targets := [{ remote := false, number := 0 }] }
    sec := { withSess.sec with trunk := [(fld withSess Reg.SEC_CFG.trunk_index, 5)] }
    trunk := { withSess.trunk with nextReq := 9, cuts :=
      [{ home := 0, request := 1, context := 5, serial := 1, store := 256, extent := 0, pages := 0, hosts := [3], sessions := [{ handle := handle1, cut := true, taken := true }] },
       { home := 3, request := 1, context := 5, serial := 1, store := 256, extent := 0, pages := 0, sessions := [{ handle := handle1, cut := true }] },
       { home := 3, request := 2, context := 5, serial := 1, store := 256, extent := 0, pages := 0, sessions := [{ handle := handle1, cut := true, taken := true }] }] } }
/-- A CUT of device 3 for that session. -/
def cutReq1 : TrunkReq := { op := 1, epoch := 1, src := 3, request := 7, context := 5, serial := 1, store := 256, handles := [(handle1, 3)], shard := none, pairs := [] }
/-- The cases of TrunkCuts. -/
theorem wit_trunkCuts :
    accepts 2 cutting1 sub0 ∧
      (let u := [handle1].foldl promoteIfLost (taken cutting1 sub0)
       ctxBad u 5 = none ∧ cutRefusal u 5 [handle1] = none ∧ (tget? u.sec.trunk (fld u Reg.SEC_CFG.trunk_index)).isSome = true ∧
       (match admitActivity u { no := 5, scope := [scCtx 5, scStore 256] } with | .ok v => (canReserve v 256 [handle1]).isSome && (canReserve v 257 [handle1]).isNone | .error _ => false) = true) ∧
      serving cutting1 ∧ (cutRec cutting1 3 7).isNone = true ∧ (canReserve (cleared cutting1) 256 [handle1]).isSome = true ∧ (canReserve (cleared cutting1) 0 [handle1]).isNone = true ∧
      (match admitActivity (cleared cutting1) { no := 5, scope := [scCtx 5, scStore 256] } with | .ok _ => true | .error _ => false) = true ∧
      (cutRec cutting1 3 1).isSome = true ∧ (cutRec cutting1 0 1).map (fun c => (c.hosts, c.drained.length, c.done, c.sessions.all (·.taken))) = some ([3], 0, false, true) ∧
      (cutRec cutting1 3 1).map (fun c => c.sessions.any fun y => y.handle = handle1 && y.cut && !y.taken) = some true ∧
      (cutRec cutting1 3 2).map (fun c => (c.home, c.done, c.sessions.all (·.taken))) = some (3, false, true) ∧ cutting1.device = 0 := by decide

/-- A shard of one session at its cut, with its descriptor and no copies. -/
def shardSec1 : ShardSess := { handle := handle1, cutStep := 3, length := 0, desc := some (descOf sess1), crates := [], slabs := [] }
/-- A manifest of that shard. -/
def manifest1 : Manifest :=
  { context := 5, serial := 1, shards := [{ device := 0, first := 0, last := 255, home := true, extent := 0, length := 0, digest := 0 }], sessions := [(handle1, 3)],
    key := 0, digest := 0, r := 0, s := 0 }
/-- A restore that waits for device 3. -/
def rest1 : TrunkRest := { request := 4, sub := sub0, context := 5, resultAddr := 0, hosts := [3], shard := [], log := [] }
/-- `withSess` without the session's row but with shelves, and that restore. -/
def restoring1 : State := { withSess with sess := { State.reset.sess with serials := { nextFresh := 1 } }, trunk := { rests := [rest1] } }
/-- The cases of RestoresLogsAndHandovers. -/
theorem wit_restores :
    accepts 2 restoring1 sub0 ∧
      (let u := taken restoring1 sub0
       ctxBad u 5 = none ∧ (manifest1.shards.all fun r => (shardHost u r).isSome) = true ∧ (paramsOf u 5).isSome = true ∧
       (match restHandles u 5 manifest1.sessions, paramsOf u 5 with
        | some (s1, pairs), some p =>
          let homeSecs := [shardSec1].filter fun q => q.desc.isSome && pairs.any (·.1 = q.handle)
          let recs := homeSecs.map fun q => (q, restoredSession s1 (q.desc.getD (descOf { handle := 0 })) (((pairs.find? (·.1 = q.handle)).map (·.2)).getD 0) q.cutStep (logOf [] q.handle))
          let s3 := recs.foldl (fun s r => loadShard s { r.2 with length := r.1.length } p r.1) (recs.foldl (fun s r => setSess s { r.2 with length := r.1.length }) s1)
          decide (pairs.length ≤ homeSecs.length) && restoreRoom s3 (recs.map (·.2.handle))
        | _, _ => false) = true) ∧
      serving restoring1 ∧ (paramsOf restoring1 5).isSome = true ∧ restOf restoring1 4 = some rest1 ∧ rest1.hosts.contains 3 = true ∧
      hostReaches restoring1 ∧ flag (setFld (written restoring1) Reg.CKP_HANDOVER.device 3) Reg.CKP_HANDOVER.busy = false := by decide

/-- A native connection 9 to device 3 with a READ that waits for its bytes. -/
def conn1 : Conn := { num := 9, native := !false, device := 3, remote := 4, reqs := [{ id := 0, op := 0x82, key := 0, offset := 0, length := 4, data := [], move := 0 }] }
/-- Connection 9, a RoCEv2 connection 10 and a region of the first domain for both. -/
def remote1 : State :=
  { withSess with rma := { conns := [(9, conn1), (10, { conn1 with num := 10, native := false })], regions := [(0, { read := true, write := true, pd := 0, tag := 0, offset := 0, length := 1 })] } }
/-- The next WRITE of four bytes. -/
def rm1 : RmMsg :=
  { type := 0, retry := false, epoch := 0, src := 3, pool := 0, conn := 9, id := 1, key := 0, imm := 0, offset := 0, length := 4, rsv := 0, data := [1, 2, 3, 4] }
/-- A WRITE packet of four bytes. -/
def rpkt1 : RocePkt :=
  { op := 0x0A, qp := 10, psn := 1, ackReq := true, ect := false, ce := false, dscp := 0, srcPort := 0, offset := 0, key := 0, length := 4, imm := 0, syndrome := 0, data := [1, 2, 3, 4] }
/-- The cases of RemoteMemoryRequestsAndAnswers. -/
theorem wit_remoteMemory :
    serving remote1 ∧ connOf remote1 9 = some conn1 ∧ conn1.state = .ready ∧ conn1.place = .cached ∧ rm1.id = wrapAdd 32 conn1.recvH 1 ∧
      (rmChecks (cleared remote1) conn1 { rm1 with type := 0x80 } false).2 = none ∧ (rmChecks (cleared remote1) conn1 { rm1 with type := 0x81 } false).2 = none ∧
      (rmChecks (cleared remote1) { conn1 with recvSlots := 4 } { rm1 with type := 0x84 } false).2 = none ∧
      (rmChecks (cleared remote1) conn1 { rm1 with type := 0x82, data := [] } false).2 = none ∧
      (conn1.recvH + 2 ^ 32 - 0) % 2 ^ 32 < 4096 ∧ 4096 ≤ (conn1.recvH + 2 ^ 32 - 5) % 2 ^ 32 ∧ roceDropped remote1 rpkt1 = false ∧
      (let c := { conn1 with num := 10, native := false }
       connOf remote1 10 = some c ∧ extendPsn 1 (wrapAdd 32 c.recvH 1) = wrapAdd 32 c.recvH 1 ∧ (roceChecks (cleared remote1) c none rpkt1 false).2.1 = none ∧
       (c.recvH + 2 ^ 32 - extendPsn 0 (wrapAdd 32 c.recvH 1)) % 2 ^ 32 < 4096 ∧ 4096 ≤ (c.recvH + 2 ^ 32 - extendPsn 5 (wrapAdd 32 c.recvH 1)) % 2 ^ 32) ∧
      roceRequest rpkt1.op = true ∧ roceRequest 0 = false ∧ (connOf remote1 77).elim true (·.state = .error) = true := by decide

/-- `remote1` with port 2's priority 3 held by a pause and sending one itself, and connection 9 waiting, under congestion control. -/
def congested1 : State :=
  { remote1 with
    rma := { remote1.rma with conns := [(9, { conn1 with rnrWait := true, cc := true })] }
    link := { remote1.link with ports := [(2, { pfc := [(3, { paused := true, pausing := true })] })] } }
/-- The cases of RetriesRatesPausesAndEngineFaults. -/
theorem wit_retriesRates :
    serving remote1 ∧ connOf remote1 9 = some conn1 ∧ conn1.reqs ≠ [] ∧ conn1.rnrWait = false ∧ conn1.retries < conn1.retry ∧ serving congested1 ∧
      (connOf congested1 9).map (fun c => (c.rnrWait, c.cc, c.state)) = some (true, true, .ready) ∧ pfcOn congested1 2 3 = true ∧
      (prioOf congested1 2 3).storm = false ∧ (prioOf congested1 2 3).pausing = true ∧ 1024 * fldAt congested1 Reg.RMA_PFC.xon_kib [2] < 300000 ∧
      (prioOf congested1 2 4).pausing = false ∧ pfcOn congested1 2 4 = true ∧ 0 < 1024 * fldAt congested1 Reg.RMA_PFC.xoff_kib [2] ∧
      (prioOf congested1 2 3).paused = true ∧ fldAt congested1 Reg.RMA_PFC.storm_ms [2] ≠ 0 := by decide

/-- `remote1` with a valid connection 11 described in RMA_CONN_DATA, domain 4 of context 5, a fence of it, a spill and a fetch under way. -/
def fenced1 : State :=
  let s := { remote1 with rma := { remote1.rma with
    conns := [(9, { conn1 with place := .spilling 0 }), (10, { conn1 with num := 10, place := .fetching 1 })], fences := [{ sub := some sub0, pd := 4, gen := 1 }] } }
  let word (s : State) (w v : Nat) : State := setFldAt s Reg.RMA_CONN_DATA.word [w] v
  setFldAt (setFldAt (word (word (word s 0 (11 + 2 ^ 40)) 1 (4 + 3 * 2 ^ 32 + 5 * 2 ^ 48)) 3 (10 + 7 * 2 ^ 8 + 16 * 2 ^ 16)) Reg.RMA_PD.valid [4] 1) Reg.RMA_PD.owner [4] 5
/-- The cases of ConnectionsRegionsAndFences. -/
theorem wit_connections :
    hostReaches fenced1 ∧ fld (written fenced1) Reg.RMA_CONN_CTL.busy ≠ 1 ∧ connFrom (setFld (written remote1) Reg.RMA_CONN_CTL.op 1) = none ∧
      (let v := setFld (written fenced1) Reg.RMA_CONN_CTL.op 1
       (connFrom v).map (fun c => (c.num, pdValid v c.pd, (connOf v c.num).isNone)) = some (11, true, true) ∧ v.rma.conns.length < 16384 + spillCount v ∧ cacheUsed v < 16384) ∧
      (connOf fenced1 77).isNone = true ∧ serving fenced1 ∧ (connOf fenced1 9).map (·.place) = some (.spilling 0) ∧ (connOf fenced1 10).map (·.place) = some (.fetching 1) ∧
      cacheUsed fenced1 < 16384 ∧ accepts 2 fenced1 sub0 ∧ ctxBad (taken fenced1 sub0) 5 = none ∧ pdValid fenced1 4 = true ∧
      fldAt (taken fenced1 sub0) Reg.RMA_PD.owner [4] = 5 ∧ (fenced1.rma.fences.any fun f => f.pd = 4 && f.gen = 1) = true := by decide

/-- `withSess` with links 0 UP, 1 held, 2 in training, agreed, bay 0 native and bay 1 Ethernet, port 2 UP and port 3 held, a master key. -/
def linked1 : State :=
  { withSess with
    device := 1
    regs := (setFldAt (setFldAt (setFldAt withSess Reg.LNK_CTL.enable [0] 1) Reg.LNK_CTL.enable [2] 1) Reg.ETH_CTL.enable [3] 1).regs
    lay := { active := { layout1 with bays := [{ personality := 1 }, { personality := 2 }, {}, {}, {}, {}] } }
    clk := { withSess.clk with inReset := [] }
    sec := { withSess.sec with lmk := [(0, [1])] }
    link := { links := [(0, { st := .up, partner := 3 }), (1, { st := .held, agreed := true, partner := 3 }),
                        (2, { st := .training, agreed := true, resumed := true, partner := 3, keys := { mine := some 5, theirs := some 6, derived := some ({ key := 1, salt := 0 }, { key := 2, salt := 0 }) } })]
              ports := [(2, { st := .up }), (3, { st := .held })] } }
/-- The cases of LinkTrainingLossAndReturn. -/
theorem wit_linkTraining :
    live linked1 ∧ hostReaches linked1 ∧ (lnkOf linked1 0).st = .up ∧ (lnkOf (bumpAt (cleared linked1) Reg.LNK_ERR.fec_uncorr [0] 3) 0).st = .up ∧
      (lnkOf linked1 1).st = .held ∧ (lnkOf linked1 1).agreed = true ∧ (lnkOf linked1 2).st = .training ∧ (lnkOf linked1 2).agreed = true ∧
      lnkEnabled linked1 2 = true ∧ lnkEnabled (written linked1) 0 = true ∧ portPresent linked1.part 0 = true ∧ (ethOf linked1 2).st = .up ∧
      (ethOf linked1 3).st = .held ∧ ethEnabled linked1 3 = true := by decide

/-- `linked1` with link 3 UP with a control flit to send, link 4 with a flit to replay, both with a suspended partner. -/
def linked2 : State :=
  { linked1 with link := { linked1.link with links :=
    [(0, { st := .up, partner := 3 }), (3, { st := .up, ctl := [.expressResume], partnerSuspended := true, errLow := some 0 }),
     (4, { st := .up, again := [{ seq := 0, ack := 0, vc := 0, sof := true, eof := true, pool := 7, returned := 0, body := .idle }] })] } }
/-- A whole frame in one flit. -/
def flit1 : Flit := { seq := 0, ack := 0xFFFF, vc := 0, sof := true, eof := true, pool := 7, returned := 0, body := .data frame1 0 }
/-- The cases of FlitsCreditsTimeAndShapers. -/
theorem wit_flits :
    live linked2 ∧ (lnkOf linked2 0).st = .up ∧ (lnkOf linked2 0).ctl = [] ∧ (lnkOf linked2 0).again = [] ∧ (lnkOf linked2 3).st = .up ∧
      (lnkOf linked2 3).ctl = [.expressResume] ∧ (lnkOf linked2 3).partnerSuspended = true ∧ (lnkOf linked2 3).errLow.isSome = true ∧
      (lnkOf linked2 4).st = .up ∧ (lnkOf linked2 4).ctl = [] ∧ (lnkOf linked2 4).again.length = 1 ∧
      flit1.seq = ((lnkOf (takeHead (cleared linked2) 0 ⟨0xFFFF, 7, 0⟩) 0).lastIn + 1) % 2 ^ 16 ∧ flit1.crcOk = true ∧ { flit1 with seq := 9 }.crcOk = true ∧
      (9 : Nat) ≠ ((lnkOf (takeHead (cleared linked2) 0 ⟨0xFFFF, 7, 0⟩) 0).lastIn + 1) % 2 ^ 16 ∧ (ethOf linked2 2).st = .up ∧ hostReaches linked2 ∧
      portPresent linked2.part 0 = true := by decide

/-- `linked1` with link 0 keyed, its sending key worn, and link 3 with a rekey outstanding. -/
def keyed1 : State :=
  let k : DirKey := { key := 1, salt := 2, counter := 2 ^ 47, seq := 1 }
  { linked1 with link := { linked1.link with links :=
    [(0, { st := .up, partner := 3, keys := { tx := some k, rx := some k } }), (2, lnkOf linked1 2), (3, { st := .up, partner := 3, keys := { tx := some k, rx := some k, rekey := some (7, { k with seq := 2 }) } })] } }
/-- A KEY flit of a sequence number. -/
def keyFlit1 (q : Nat) : KeyFlit := { op := 0, lmk := 0, phase := false, seq := q, nonce := 6, mac := 0 }
/-- The cases of LinkKeySetupAndRekeying. -/
theorem wit_linkKeys :
    live keyed1 ∧ (lnkOf keyed1 2).st = .training ∧ (lnkOf keyed1 2).resumed = true ∧ (lnkOf keyed1 2).partner = 3 ∧ (lnkOf keyed1 2).keys.mine = some 5 ∧
      (lnkOf keyed1 2).keys.theirs = some 6 ∧ (lnkOf keyed1 2).keys.derived.isSome = true ∧ (tget? keyed1.sec.lmk 0).isSome = true ∧ (tget? keyed1.sec.lmk 1).isNone = true ∧
      (lmkOf (cleared keyed1) 2 3 0).isSome = true ∧ (tget? keyed1.sec.lmk (lnkOf keyed1 2).keys.lmk).isSome = true ∧
      (let v := takeHead (cleared keyed1) 0 ⟨0, 7, 0⟩
       ((lnkOf v 0).keys.rx).map (·.seq) = some 1) ∧ (keyFlit1 2).seq = (1 + 1) % 2 ^ 32 ∧ (keyFlit1 1).seq = 1 ∧
      ((lnkOf (takeHead (cleared keyed1) 3 ⟨0, 7, 0⟩) 3).keys.rekey).map (·.2.seq) = some 2 ∧
      ((lnkOf keyed1 0).keys.tx).map (fun k => decide (2 ^ 47 ≤ k.counter)) = some true ∧ (lnkOf keyed1 0).keys.rekey = none ∧ (lnkOf keyed1 3).keys.rekey.isSome = true := by decide

/-- `linked1` with link 0 keyed for frame1's key, a transaction to device 3 sent on it, a held frame of device 4 and a PTP master. -/
def framed1 : State :=
  { linked1 with
    regs := (setFld { linked1 with regs := linked1.regs } Reg.ETH_PTP.port 2).regs
    link := { linked1.link with
      links := [(0, { st := .up, partner := 3, keys := { rx := some { key := 0, salt := 0 } } })]
      txns := [{ dest := 3, txid := 8, msg := .undefined 0 0, vc := 0, cls := none, partition := none, flow := 0, port := some 0 }]
      windows := [(6, { startEpoch := 1, high := 2, marks := [(2, some (.ok, 0))] })]
      held := [{ frame := { frame1 with src := 4, txid := 1, body := .msg (.undefined 0 0) }, port := 0 }]
      ptp := { state := 2, port := 2, best := some { priority1 := 0, class_ := 0, accuracy := 0, variance := 0, priority2 := 0, identity := 9, steps := 0 } } } }
/-- A message to this device. -/
def frame2 : Frame := { frame1 with dst := 1, src := 5, intact := true, body := .msg (.undefined 0 0) }
/-- A tunnel segment of that frame. -/
def seg1 (last : Bool) : TunnelSeg := { first := true, last := last, frameNo := 3, offset := 0, length := 100, frame := some frame2, control := none }
/-- A PTP Sync of the best clock. -/
def ptp1 : PtpMsg := { type := 0, domain := fld framed1 Reg.ETH_PTP.domain, seq := 0, twoStep := false, time := 0, correction := 0, source := 9, requester := 0, clock := none }
/-- The cases of FramesTransactionsAndEthernet. -/
theorem wit_frames :
    live framed1 ∧ portState framed1 0 = .up ∧ frame1.dst ≠ framed1.device ∧ frame2.dst = framed1.device ∧ (tagOk (cleared framed1) 0 frame2).2 = true ∧
      (tagOk (cleared framed1) 0 { frame2 with key := 9 }).2 = false ∧ (tget? (tagOk (cleared framed1) 0 frame2).1.link.windows 5).isNone = true ∧
      roleCheck framed1 5 (.semReq 1 sub0 0 0) = .pass ∧ (tget? framed1.link.windows 6).map (fun w => (w.startEpoch, w.marks.find? (·.1 = 2))) = some (1, some (2, some (.ok, 0))) ∧
      ((txnOf framed1 3 8).map fun t => (t.port.isSome, stillSending framed1 t)) = some (true, false) ∧
      (framed1.link.held.find? fun h => h.frame.src = 4 && h.frame.txid = 1).isSome = true ∧ (ethOf framed1 2).st = .up ∧
      ((ethOf framed1 2).reasm.find? fun r => r.src = 5 && r.frameNo = 3) = none ∧
      (camLookup (cleared framed1) 1 (2 ^ 64 - 1) 2 0).isNone = true ∧ ptpPort framed1 2 = true ∧ framed1.link.ptp.state = 2 ∧
      (framed1.link.ptp.best.map (·.identity)) = some 9 := by decide

/-- A slab of that session in the attic, in the state named. -/
def obj1 (st : CrateState) : Obj :=
  { kind := .slab, creator := 0, layer := 0, index := 0, ctx := 5, partition := 0, cls := 1, bx16 := false, heads := 0, dim := 0, size := 512, state := st }
/-- `withSess` at partition 0 open, with a queued sink, write-back, age move and raise, and running moves 11 to 14. -/
def laddered1 (q : Nat) (k : MoveKind) : State :=
  { withSess with tier :=
    { objs := [(1, obj1 .sinking), (2, { obj1 .rising with lower := some { tier := 1, target := 0, unit := 0, bytes := [], step := 0 } }), (3, obj1 .resident),
               (4, { obj1 .sinking with attic := false, lower := some { tier := 1, target := 0, unit := 0, bytes := [], step := 0 } })]
      queues := [(q, [{ id := 9, obj := if k = .sink then 1 else if k = .raise then 2 else if k = .writeback then 3 else 4, kind := k, cls := 1, partition := 0 }])]
      running := [{ id := 11, obj := 1, kind := .sink, cls := 1, partition := 0 }, { id := 12, obj := 2, kind := .raise, cls := 1, partition := 0 },
                  { id := 13, obj := 3, kind := .writeback, cls := 1, partition := 0 }, { id := 14, obj := 4, kind := .age, cls := 1, partition := 0 }]
      targets := [{ remote := false, number := 0 }] } }
/-- The cases of LadderMovesAndTargets. -/
theorem wit_ladder :
    (let s := laddered1 0 .sink
     serving s ∧ (s.tier.running.filter fun m => match objOf s m.obj with | some o => engineOf o = 0 | none => false).length < 256 ∧ s.clk.inReset.contains 15 = false ∧
       (tget? s.clk.plls 15).elim false (·.state = .coasting) = false ∧ s.clk.inReset.contains 20 = false ∧ (nextMove (cleared s) 0).map (·.2.kind) = some .sink ∧
       (nextMove (cleared withSess) 0).isNone = true ∧ (runningMove s 11).isSome = true ∧ (runningMove s 12).isSome = true ∧ (runningMove s 13).isSome = true ∧
       (runningMove s 14).isSome = true ∧ (objOf s 1).map (·.state) = some .sinking ∧ (objOf s 2).map (·.state) = some .rising ∧ (objOf s 4).map (·.state) = some .sinking ∧
       (s.tier.targets.any fun t => t.remote = false && t.number = 0 && !t.lost) = true) ∧
      (nextMove (cleared (laddered1 5 .writeback)) 0).map (·.2.kind) = some .writeback ∧ (nextMove (cleared (laddered1 7 .age)) 0).map (·.2.kind) = some .age ∧
      (nextMove (cleared (laddered1 1 .raise)) 0).map (·.2.kind) = some .raise ∧ lowerGone (laddered1 1 .raise) (obj1 .rising) = false := by decide

/-- `withSess` with the session at a place and in a state. -/
def placed1 (p : Place) (st : SesState) : State :=
  { withSess with sess := { withSess.sess with table := [(hKey handle1, { sess1 with place := p, state := st })] } }
/-- The cases of ShelvesRegulatorsAndTallies. -/
theorem wit_shelves :
    serving (placed1 .spilling .parked) ∧ placeOf (placed1 .spilling .parked) handle1 = some .spilling ∧ serving (placed1 .fetching .parked) ∧
      placeOf (placed1 .fetching .parked) handle1 = some .fetching ∧ serving (placed1 .shelf .retiring) ∧
      (sessOf (placed1 .shelf .retiring) handle1).map (fun x => (x.guest, x.state, sessMoving (placed1 .shelf .retiring) x, x.heldChunks, x.waiting.isEmpty)) = some (false, .retiring, false, [], true) ∧
      (placed1 .shelf .retiring).mir.pinned.contains handle1 = false ∧ hostReaches withSess := by decide

/-- An image of two CLOCKS sections' worth of nothing. -/
def image1 : Image := { flags := 2, serial := 2, baseSerial := 1, composition := 0, digest := 0, keySlot := 0, sections := {} }
/-- `withSess` in a fast recomposition, and in a micro-program reload of stack 0. -/
def recomposing1 : State :=
  { withSess with lay := { withSess.lay with fast := some { image := image1 }, tail := some image1, reloads := [{ section_ := { stackMask := 1, entries := [], code := [] }, left := [0], serial := 2 }] } }
/-- The cases of LayoutLoadsAndReloads. -/
theorem wit_layout :
    hostReaches withSess ∧ fld (setFld (written withSess) Reg.LAY_CTRL.op 1) Reg.LAY_STATUS.busy ≠ 1 ∧ fld (setFld (written withSess) Reg.LAY_CTRL.op 2) Reg.LAY_STATUS.busy ≠ 1 ∧
      (let b := setFld withSess Reg.LAY_STATUS.busy 1
       hostReaches b ∧ fld (setFld (written b) Reg.LAY_CTRL.op 1) Reg.LAY_STATUS.busy = 1 ∧ fld (setFld (written b) Reg.LAY_CTRL.op 2) Reg.LAY_STATUS.busy = 1) ∧
      serving recomposing1 ∧ recomposing1.lay.fast = some { image := image1 } ∧ unsealedSteps (cleared recomposing1) = [] ∧ recomposing1.lay.tail = some image1 ∧
      stackIdle recomposing1 0 = true ∧ (recomposing1.lay.reloads.any fun r => r.left.contains 0) = true := by decide

/-- `withSess` with a scrub of stack 0 that the host asked for under way. -/
def scrubbing1 : State := { withSess with maint := { running := [{ no := 1, scope := [0], host := true, target := 0 }] } }
/-- The cases of MaintenanceAndWarnings. -/
theorem wit_maint :
    hostReaches scrubbing1 ∧
      (let u (no t : Nat) := setFld (setFld (setFld (written scrubbing1) Reg.MNT_REQ.activity no) Reg.MNT_REQ.target t) Reg.MNT_REQ.fw_slot 0
       let a (no t : Nat) : Activity := { no := no, scope := requestScope no t, host := true, target := t, fw := fld (u no t) Reg.MNT_REQ.fw_slot }
       fld (u 1 0) Reg.MNT_STATUS.busy ≠ 1 ∧ requestUnit (u 1 0) 1 0 = true ∧ conflictWith (u 1 0) (a 1 0) = some 1 ∧ requestUnit (u 1 1) 1 1 = true ∧
         conflictWith (u 1 1) (a 1 1) = none ∧ requestUnit (u 1 9) 1 9 = false ∧ requestUnit (u 4 0) 4 0 = true ∧ conflictWith (u 4 0) (a 4 0) = none) ∧
      serving scrubbing1 ∧ requestUnit scrubbing1 1 0 = true ∧ (scrubbing1.maint.running.find? fun a => a.no = 1 && a.scope = requestScope 1 0).isSome = true := by decide

/-- The card of the smallest part. -/
def small1 : State := { withSess with part := .rb4808 }
/-- The cases of RegisterAccessesAndSnapshots. -/
theorem wit_registers :
    hostReaches withSess ∧ ¬ ((3 : Nat) = 4 ∨ (3 : Nat) = 8) ∧ registerAt 0x10 = true ∧ unitAt withSess.part 0x10 = true ∧ inCommandArea 0x10 = false ∧
      registerAt 0x2000000 = true ∧ unitAt withSess.part 0x2000000 = true ∧ inCommandArea 0x2000000 = true ∧
      hostReaches small1 ∧ registerAt 0x700000 = true ∧ unitAt small1.part 0x700000 = false ∧
      registerAt 0x1800000 = true ∧ unitAt withSess.part 0x1800000 = true ∧ inCommandArea 0x1800000 = false ∧ 
      ownBlock 1 = true ∧ ownBlock 0x3F = false := by decide
/-- The card with a shadow held. -/
def halfRead1 : State := { withSess with host := { withSess.host with shadow := some { off := 0x10, high := 7 } } }
/-- The shadow's case of RegisterAccessesAndSnapshots. -/
theorem wit_shadow : hostReaches halfRead1 ∧ ([1, 2, 4, 8] : List Nat).contains 4 = true ∧ (0x14 : Nat) % 4 = 0 ∧ (0x14 : Nat) % 8 ≠ 0 ∧
    halfRead1.host.shadow = some { off := 0x10, high := 7 } := by decide

/-- The card with SPDM session 1 set up and session 2 still open. -/
def spdm1 : State :=
  { withSess with sec := { withSess.sec with spdm :=
    { asked := true, version := some 0x12, algorithms := true, sessions := [{ id := 1, secure := true }, { id := 2 }], nextId := 3 } } }
/-- The cases of KeyProvisioningAndLockdown: no set-up session, a set-up one, slots that a request may name, a reset island. -/
theorem wit_keys :
    live spdm1 ∧ secureSession spdm1 none = false ∧ secureSession spdm1 (some 2) = false ∧ secureSession spdm1 (some 1) = true ∧
      tget? spdm1.sec.slots 1 = none ∧ slotLive spdm1 0 = true ∧ ¬ 1 ∈ spdm1.sec.revoked ∧ hostReaches spdm1 := by decide

/-- The cases of SpdmRequests: before and after algorithms are agreed, an open, a set-up and no session. -/
theorem wit_spdm :
    live withSess ∧ withSess.sec.spdm.algorithms = false ∧ live spdm1 ∧ spdm1.sec.spdm.algorithms = true ∧
      spdm1.sec.spdm.sessions.find? (·.id = 9) = none ∧ spdm1.sec.spdm.sessions.find? (·.id = 2) = some { id := 2 } ∧
      secureSession spdm1 (some 2) = false ∧ secureSession spdm1 (some 1) = true := by decide

/-- The block with PWR_OK low, held by SYS_RST_N, and with the host port in reset. -/
def offed1 : State := { withSess with clk := { withSess.clk with phase := .off } }
/-- The block held by SYS_RST_N. -/
def holding1 : State := { withSess with clk := { withSess.clk with phase := .held, cause := 2 } }
/-- The block in service with the host port in reset. -/
def perst1 : State := { withSess with host := { withSess.host with inReset := true } }
/-- The cases of ColdStartsFromPowerAndCommand. -/
theorem wit_starts :
    offed1.clk.phase = .off ∧ hostReaches withSess ∧ holding1.clk.phase = .held ∧ holding1.clk.phase ≠ .off ∧ ¬ live holding1 ∧ live perst1 ∧
      perst1.host.inReset = true ∧ ¬ 17 ∈ perst1.clk.inReset ∧ perst1.clk.pcieDown = false := by decide

/-- The block while saving, saved with SYS_RST_N low, and released. -/
def saving2 : State := { withSess with clk := { withSess.clk with phase := .saving } }
/-- The block with its save done, or given up. -/
def saved2 (done : Bool) : State := { withSess with clk := { withSess.clk with phase := .saved, warm := some { store := {}, done := done, saveUs := 90 } } }
/-- The block at its warm boot. -/
def warming2 (firmware : Bool) : State :=
  { saved2 true with clk := { (saved2 true).clk with phase := .warm }, lay := { withSess.lay with firmwareOk := firmware } }
/-- The cases of WarmSavesWarmStartsAndRejoin. -/
theorem wit_warm :
    live withSess ∧ hostReaches withSess ∧ saving2.clk.phase = .saving ∧ (saved2 true).clk.phase = .saved ∧ (saved2 false).clk.warm.isSome = true ∧
      (warming2 false).clk.phase = .warm ∧ (warming2 false).lay.firmwareOk = false ∧ (warming2 true).lay.firmwareOk = true ∧
      fallbackReason (cleared (warming2 true)) (retainedImage (cleared (warming2 true)) true) false true true true = some 2 ∧
      fallbackReason (cleared (warming2 true)) (retainedImage (cleared (warming2 true)) true) true true true true = none ∧ serving withSess := by decide

/-- The block with islands 2, 17 and 20 in reset. -/
def resetting1 : State := { withSess with clk := { withSess.clk with inReset := [2, 17, 20] } }
/-- The cases of IslandResetsAndReturns. -/
theorem wit_islands :
    serving resetting1 ∧ 2 ∈ resetting1.clk.inReset ∧ 17 ∈ resetting1.clk.inReset ∧ 20 ∈ resetting1.clk.inReset ∧ (3 : Nat) < 22 ∧ ¬ 3 ∈ resetting1.clk.inReset ∧
      (21 : Nat) < 22 ∧ ¬ 21 ∈ resetting1.clk.inReset ∧ (22 : Nat) ≤ 23 := by decide

/-- The block with OSC_MGMT failed. -/
def oscless1 : State := { withSess with clk := { withSess.clk with oscOk := false } }
/-- The cases of ClockMonitorsThrottlesAndDroops. -/
theorem wit_clocks :
    live withSess ∧ withSess.clk.oscOk = true ∧ live oscless1 ∧ oscless1.clk.oscOk = false ∧ serving withSess ∧
      100 ≤ maxOf [40, 100] ∧ ¬ (100 ≤ maxOf [40, 98] ∨ true = false ∨ false = true) ∧ maxOf [40, 98] ≤ 98 := by decide

/-- The block in boot ROM, where ROM Criti runs, and with the monitor switched off by a power loss. -/
def roming1 : State := { withSess with clk := { withSess.clk with phase := .rom } }
/-- The cases of CritiPrintingCommands. -/
theorem wit_criti :
    critiTakes offed1 = false ∧ critiTakes withSess = true ∧ romForm withSess = false ∧ critiTakes roming1 = true ∧ romForm roming1 = true := by decide

/-- The block with a delay after a failed check, and under lockdown. -/
def delayed1 : State := { withSess with dbg := { withSess.dbg with criti := { failures := 1, notBefore := 1000 } } }
/-- The block under lockdown. -/
def locked1 : State := setFld withSess Reg.SEC_CFG.lockdown 1
/-- The cases of CritiRatesAuthenticationAndWrites. -/
theorem wit_critiAuth :
    critiTakes offed1 = false ∧ critiTakes withSess = true ∧ baudCode 921600 = some 1 ∧ baudCode 9600 = none ∧ critiTakes delayed1 = true ∧
      delayed1.timebase < delayed1.dbg.criti.notBefore ∧ withSess.dbg.criti.notBefore ≤ withSess.timebase ∧
      critiTakes locked1 = true ∧ flag locked1 Reg.SEC_CFG.lockdown = true ∧ flag withSess Reg.SEC_CFG.lockdown = false ∧
      (drawChallenge (cleared locked1)).1.regs = locked1.regs ∧ (drawChallenge (cleared withSess)).1.regs = withSess.regs ∧
      locked1.dbg.criti.notBefore ≤ locked1.timebase := by
  refine ⟨by decide, by decide, by decide, by decide, by decide, by decide, by decide, by decide, by decide, by decide, rfl, rfl, by decide⟩

/-- The block with a delay on JTAG, with a level-2 grant, and held with its save done. -/
def jtagged1 : State := { withSess with dbg := { withSess.dbg with level := 2, jtag := { failures := 1, notBefore := 1000 } } }
/-- The cases of JtagAndDebugPort. -/
theorem wit_jtag :
    withSess.clk.phase ≠ .off ∧ (saved2 true).clk.phase ≠ .off ∧ running (saved2 true) = false ∧ running jtagged1 = true ∧ jtagged1.clk.phase ≠ .off ∧
      jtagged1.timebase < jtagged1.dbg.jtag.notBefore ∧ running withSess = true ∧ withSess.dbg.jtag.notBefore ≤ withSess.timebase ∧
      (3 : Nat) < 4 ∧ (8 : Nat) < 2 ^ 64 := by decide

/-- An entry with a zero mask, and keys that agree on the bits of the mask 6. -/
theorem wit_camMask :
    (∀ i < 64, (6 : Nat).testBit i = true → (7 : Nat).testBit i = (6 : Nat).testBit i) ∧ (0 : Nat) = 0 := by decide

/-- A port that is UP and a frame for device 5. -/
theorem wit_misroute : portState linked1 0 = .up ∧ ({ frame1 with dst := 5 } : Frame).dst ≠ linked1.device := by decide

/-- The card with tokens in two buckets. -/
def bucketed1 : State := { withSess with steps := { withSess.steps with buckets := [(0, 900), (47, -5)] } }
/-- The cases of RegulatorLoadEmptiesChangedBucketsOnly: entry 0 changes, entry 47 does not. -/
theorem wit_regulators :
    regulatorOf (applyRegulators bucketed1 [{ rate := 7 }]) 0 0 ≠ regulatorOf bucketed1 0 0 ∧ bucketLevel bucketed1 0 0 = 900 ∧
      regulatorOf (applyRegulators bucketed1 [{ rate := 7 }]) 15 2 = regulatorOf bucketed1 15 2 ∧ bucketLevel bucketed1 15 2 = -5 := by decide

/-! ### Ill-formed operands are refused, one for each check of WellFormed.lean -/

/-- A well-formed and an ill-formed field, unit number, list, byte string and optional operand. -/
theorem test_wf_fields :
    bits 8 255 = true ∧ bits 8 256 = false ∧ below 48 47 = true ∧ below 48 48 = false ∧ listWf 16 [65536] = false ∧ bytesWf [1, 256] = false ∧
      optWf 64 none = true ∧ optWf 64 (some (2 ^ 64)) = false := by decide
/-- A submission's ring, tag, context and handle; a register write off its alignment or wider than 8 bytes; a ring. -/
theorem test_wf_host :
    subWf sub0 = true ∧ subWf { sub0 with ring := 1024 } = false ∧ subWf { sub0 with context := 1024 } = false ∧ writeWf ringWord = true ∧
      writeWf { ringWord with off := 0x10012 } = false ∧ writeWf { ringWord with size := 2 } = false ∧ ringWf (.pair 1024) = false ∧ ringWf (.out 1024) = false := by decide
/-- Step descriptors and messages. -/
theorem test_wf_steps :
    descEntryWf { handle := 2 ^ 64, step := 0, homeEpoch := 0 } = false ∧ stepDescWf desc1 = true ∧ stepDescWf { desc1 with cls := 4 } = false ∧
      stepMsgWf (stepM []) = true ∧ stepMsgWf { stepM [] with attempt := 65536 } = false := by decide
/-- Mirror messages, sessions on the wire, arguments of an open, inventory and search requests. -/
theorem test_wf_sessions :
    mirrorWf mirHdr1 = true ∧ mirrorWf { mirHdr1 with step := 2 ^ 32 } = false ∧ openWf tokenOpen = true ∧ openWf { tokenOpen with data := [256] } = false ∧
      sessWf sdesc1 = true ∧ sessWf { sdesc1 with cls := 4 } = false ∧
      invWf { op := 1, epoch := 0, src := 2048, context := 0, fmt := 0, pin := false, all := false, request := 0, value := 0, handle := 0, hash := 0, tokens := [] } = false ∧
      vsrWf { filter := false, epoch := 0, src := 0, context := 1024, indexId := 0, shard := 0, k := 1, beam := 1, request := 0, maxVisits := 1, all := 0, any := 0, dim := 0, vec := [] } = false := by decide
/-- Attention, delegated and token messages. -/
theorem test_wf_messages :
    qkvWf { qkv1 with elems := [65536] } = false ∧ dlgWf dlg1 = true ∧ dlgWf { dlg1 with epoch := 65536 } = false ∧ logitsWf logits1 = true ∧
      logitsWf { logits1 with values := [2 ^ 32] } = false := by decide
/-- Flits, frames, HELLO, KEY, segments, Ethernet keys. -/
theorem test_wf_links :
    headWf ⟨0, 5, 0⟩ = false ∧ flitWf { flit1 with vc := 8 } = false ∧ frameWf frame1 = true ∧ frameWf { frame1 with dst := 2048 } = false ∧
      helloWf { verMin := 1, verMax := 1, kind := 0, device := 1, link := 0, crypto := 0, startEpoch := 1, credits := [1], replay := 0, rank := 0 } = false ∧
      keyWf (keyFlit1 0) = true ∧ keyWf { keyFlit1 0 with lmk := 256 } = false ∧ segWf { seg1 true with length := 8193 } = false ∧
      ethWf { etherType := 65536, vlan := 0, pcp := 0, tagged := false, proto := 0, dscp := 0, ecn := 0, dport := 0, sport := 0, ipSrc := 0 } = false := by decide
/-- Remote memory, RoCEv2 and trunk messages. -/
theorem test_wf_remote :
    rmWf rm1 = true ∧ rmWf { rm1 with conn := 2 ^ 24 } = false ∧ rmAckWf { kind := 4, status := 0, detail := 0, src := 0, conn := 0, id := 0, expected := 0 } = false ∧
      roceWf { rpkt1 with psn := 2 ^ 24 } = false ∧ trunkReqWf cutReq1 = true ∧ trunkReqWf { cutReq1 with context := 1024 } = false ∧
      trunkRspWf { op := 1, src := 2048, request := 0, status := .ok, detail := 0, handle := 0, extent := 0, length := 0, digest := 0 } = false := by decide
/-- Whole commands. -/
theorem test_wf_commands :
    wf (.attach sub0 1 3 0x40C 0) = true ∧ wf (.attach sub0 256 3 0 0) = false ∧ wf (.semAcquire sub0 4096 0 0) = false ∧ wf (.registerWrite ringWord) = true := by decide

/-! ### Worked examples of the spec -/

/-- The handle of device 0x008, context 5, serial 0x1_2345, generation 3 (chapter "Sessions"). -/
theorem test_handle : mkHandle 0x008 5 0x12345 3 = 0x0100280123450003 := by decide
/-- The context and the serial of that handle. -/
theorem test_handle_fields : hCtx 0x0100280123450003 = 5 ∧ hSerial 0x0100280123450003 = 0x12345 := by decide
/-- One BX8 group: 0.75, -1.5, 3.1 (as 13002342 · 2^-22), 0.15625, 0.21875. -/
theorem test_bx8_group :
    (packGroup false (quantizeGroup 63 ([some ⟨3, -2⟩, some ⟨-3, -1⟩, some ⟨13002342, -22⟩, some ⟨5, -5⟩, some ⟨7, -5⟩] ++ List.replicate 11 (some ⟨0, 0⟩)))).take 7 =
      [0x7B, 0x00, 0x0C, 0xB4, 0x4C, 0x40, 0x00] := by decide
/-- The tweak of pool 7 at unit 0x4000 (chapter "Isolation, keys and attestation"). -/
theorem test_pool_tweak : poolTweak 7 0x4000 = 0x0207000000004000 := by decide
/-- A host reference 500 ppm fast: each window passes, the sum of 64 does not (chapter "Power-up, cold and warm start, clocks"). -/
theorem test_drift :
    lossOk 0 1000 = true ∧ lossOk 0 1001 = true ∧ lossOk 0 989 = false ∧ driftOk 0 ((List.replicate 32 [1000, 1001]).flatten) = false ∧
      driftOk 0 ((List.replicate 32 [1000, 1000]).flatten) = true := by decide
/-- The block as its TIMEBASE stands at a value. -/
def atTime (t : Nat) : State := { withSess with timebase := t }
/-- A first 32-bit read of TIMEBASE returns its low half and keeps the high one (chapter "Register reference"). -/
theorem test_timebase_low : hostRead (atTime 0x1FFFFFFF0) 0x210 4 =
    ({ atTime 0x1FFFFFFF0 with host := { withSess.host with shadow := some { off := 0x210, high := 1 } } }, 0xFFFFFFF0) := by decide
/-- The second read, 100 ns later, returns the shadow. -/
theorem test_timebase_high :
    (hostRead { atTime 0x200000054 with host := { withSess.host with shadow := some { off := 0x210, high := 1 } } } 0x214 4).2 = 1 := by decide
/-- Without a shadow it would have returned the live half. -/
theorem test_timebase_live : (hostRead (atTime 0x200000054) 0x214 4).2 = 2 := by decide

end Sys2Proof.Tests
end

section
/-! SUPPORT. What an idle cycle, a write and a read of a register do, case by case (R565 to R572), and the statements
they settle. -/
namespace Sys2Proof.Machine

/-! ### Time on an empty queue -/

theorem run_whenLive_shut {s : State} (f : State → State) (h : ¬ live s) : run s (whenLive f) = .next (cleared s) := by
  unfold run
  rw [whenLive_shut f (s := cleared s) h]
  rfl

theorem step_empty {s : State} (h : s.pending = []) : step s = run s (whenLive fun s => settleHost (tickTime s)) := by
  simp only [step, h, idleStep]

/-- Settles O2: the idle cycle is a run behind the gate of a live block. -/
theorem emptyQueueCountsTime : Obligations.EmptyQueueCountsTime := by
  intro s hq
  rw [step_empty hq]
  exact ⟨run_whenLive _, run_whenLive_shut _⟩

/-! ### Writes of registers -/

/-- A write that the access rules admit: 4 or 8 aligned bytes within a register that exists (R565, R568). -/
def WriteOk (w : RegWrite) : Prop :=
  (w.size = 4 ∨ w.size = 8) ∧ w.off % w.size = 0 ∧ registerAt (w.off / 8 * 8) = true

theorem regWrite_bad {s : State} {w : RegWrite} (h : ¬ WriteOk w) : regWrite s w = badAccess s w.off false true := by
  refine if_pos ?_
  simpa [WriteOk, or_iff_not_imp_left] using h

/-- A write that the access rules admit reaches the register's unit, where that is on the part (R6). -/
theorem regWrite_ok {s : State} {w : RegWrite} (h : WriteOk w) :
    regWrite s w = if unitAt s.part w.off then (if inCommandArea (w.off / 8 * 8) then cmdAreaWrite s w else blockWrite s w) else s := by
  obtain ⟨hsize, halign, hreg⟩ := h
  have hadmit : (!(w.size = 4 || w.size = 8) || w.off % w.size ≠ 0 || !registerAt (w.off / 8 * 8)) = false := by
    simpa [halign, hreg] using or_iff_not_imp_left.mp hsize
  unfold regWrite
  rw [hadmit]
  cases unitAt s.part w.off <;> rfl

theorem regWrite_absent {s : State} {w : RegWrite} (h : WriteOk w) (hunit : unitAt s.part w.off = false) : regWrite s w = s := by
  rw [regWrite_ok h, hunit]
  rfl

theorem regWrite_area {s : State} {w : RegWrite} (h : WriteOk w) (hunit : unitAt s.part w.off = true)
    (harea : inCommandArea (w.off / 8 * 8) = true) : regWrite s w = cmdAreaWrite s w := by
  rw [regWrite_ok h, if_pos hunit, if_pos harea]

theorem regWrite_block {s : State} {w : RegWrite} (h : WriteOk w) (hunit : unitAt s.part w.off = true)
    (harea : inCommandArea (w.off / 8 * 8) = false) : regWrite s w = blockWrite s w := by
  rw [regWrite_ok h, hunit, harea]
  rfl

/-- Blocks 05, 0A and 18 have no register with a rule of its own. -/
theorem blockWrite_plain {s : State} {w : RegWrite} (h : [0x05, 0x0A, 0x18].contains (w.off / 2 ^ 20) = true) :
    blockWrite s w = putFields s w := by
  have hblock : w.off / 8 * 8 / 2 ^ 20 = w.off / 2 ^ 20 := by omega
  have hcases : w.off / 2 ^ 20 = 0x05 ∨ w.off / 2 ^ 20 = 0x0A ∨ w.off / 2 ^ 20 = 0x18 := by simpa using h
  rcases hcases with e | e | e <;> simp only [blockWrite, hblock, e]

theorem exec_registerWrite {s : State} (w : RegWrite) (h : hostReaches s) :
    exec (.registerWrite w) s = .next (keepFixed s (settleHost (regWrite (written s) w))) := run_hostAccess _ h

/-! ### Reads of registers -/

/-- A read that the access rules admit: 1, 2, 4 or 8 aligned bytes within a register that exists (R565, R568). -/
def ReadOk (off size : Nat) : Prop :=
  List.contains [1, 2, 4, 8] size = true ∧ off % size = 0 ∧ registerAt (off / 8 * 8) = true

theorem hostRead_bad {s : State} {off size : Nat} (h : ¬ ReadOk off size) :
    hostRead s off size = (badAccess (dropShadow s) off false false, 0) := by
  refine if_pos ?_
  simpa [ReadOk, or_iff_not_imp_left] using h

/-- What a read that the access rules admit returns and leaves as the shadow (R569, R570). -/
theorem hostRead_ok {s : State} {off size : Nat} (h : ReadOk off size) :
    hostRead s off size =
      (let u := dropShadow s
       let v := readReg u (off / 8 * 8)
       if size = 4 && off % 8 = 0 then ({ u with host := { u.host with shadow := some { off := off / 8 * 8, high := v / 2 ^ 32 } } }, v % 2 ^ 32)
       else if size = 4 && s.host.shadow.elim false (fun h => h.off = off / 8 * 8) then (u, s.host.shadow.elim 0 (·.high))
       else (u, bitsOf v (8 * (off % 8)) (8 * size))) := by
  obtain ⟨hsize, halign, hreg⟩ := h
  refine if_neg ?_
  rw [hsize]
  simp [halign, hreg]

theorem exec_bar0Read {s : State} (off size : Nat) (h : hostReaches s) :
    exec (.bar0ReadLowHalf off size) s =
      .next (keepFixed s (emit (hostRead (cleared s) off size).1 (.read (hostRead (cleared s) off size).2))) := run_hostAccess _ h

/-! ### Snapshots -/

/-- A freeze of a block that has a number of its own takes TOP_SNAP_TIME first, then the block's read-only fields with
the block marked as frozen and no value kept yet (log entry 25). -/
theorem freezeBlock_own {s : State} {b : Nat} (h : ownBlock b = true) :
    freezeBlock s b =
      (let v := setFld s Reg.TOP_SNAP_TIME.timebase s.timebase
       let w := { v with host := { v.host with frozen := some { block := b, values := [] } } }
       { w with host := { w.host with frozen := some { block := b, values := ((regFields.filter fun f => f.ty = .ro && blockOf f.addr = b).map (fieldValues w)).flatten } } }) :=
  if_pos h

theorem freezeBlock_other {s : State} {b : Nat} (h : ownBlock b = false) : freezeBlock s b = s :=
  if_neg (by simp [h])

theorem exec_topSnapFreeze {s : State} (n : Nat) (h : hostReaches s) :
    exec (.topSnapFreeze n) s =
      .next (keepFixed s (freezeBlock (setFld (written s) Reg.TOP_SNAP_CTL.block n) (fld (setFld (written s) Reg.TOP_SNAP_CTL.block n) Reg.TOP_SNAP_CTL.block))) :=
  run_hostAccess _ h

/-- Settles O47: each access runs behind the host's gate, and the lemmas on regWrite, hostRead and freezeBlock say what it does there. -/
theorem registerAccessesAndSnapshots : Obligations.RegisterAccessesAndSnapshots := by
  refine ⟨fun s w h => ?writes, fun s off size h => ?reads, fun s n m h => ?snapshots⟩
  case writes =>
    rw [exec_registerWrite w h]
    refine ⟨fun hbad => ?_, fun hok hunit => ?_, fun hok hunit harea => ?_, fun hok hunit hblock => ?_, fun hok hunit hblock hplain => ?_⟩
    · rw [regWrite_bad hbad]
    · rw [regWrite_absent (s := written s) hok hunit]
    · rw [regWrite_area (s := written s) hok hunit harea]
    · rw [regWrite_block (s := written s) hok hunit hblock]
    · rw [regWrite_block (s := written s) hok hunit hblock, blockWrite_plain hplain]
      rfl
  case reads =>
    rw [exec_bar0Read off size h]
    refine ⟨fun hbad => ?_, fun hok h4 hlow => ?_, fun sh hok h4 hhigh hsh hoff => ?_, fun hok h4 => ?_⟩
    · rw [hostRead_bad hbad]
    · rw [hostRead_ok hok]
      simp [h4, hlow]
    · rw [hostRead_ok hok]
      simp [h4, hhigh, hsh, hoff]
    · rw [hostRead_ok hok]
      simp [h4]
  case snapshots =>
    rw [exec_topSnapFreeze n h]
    refine ⟨fun hown => ?_, fun hown => ?_, run_hostAccess _ h, ⟨run_hostAccess _ h, run_hostAccess _ h⟩, run_hostAccess _ h, run_hostAccess _ h⟩
    · rw [freezeBlock_own hown]
      rfl
    · rw [freezeBlock_other hown]

end Sys2Proof.Machine
end

section
/-! SUPPORT. The session verbs of a command that passes the checks of its row (R26, R93, R94, R109, R333, R630), and the
statement they settle. -/
namespace Sys2Proof.Machine

/-! ### The verbs behind their gates -/

theorem exec_sesOpen {s : State} {sub : Sub} (a : OpenArgs) (h : accepts 1 s sub) :
    exec (.sesOpen sub a) s = .next (keepFixed s (settleAll (doOpen (taken s sub) sub a))) := run_act_verb _ h

theorem exec_sesResume {s : State} {sub : Sub} (a : OpenArgs) (h : accepts 2 s sub) :
    exec (.sesResume sub a) s =
      .next (keepFixed s (settleAll (doResume (loseGone (promoteIfLost (taken s sub) sub.handle) sub.handle) sub a))) :=
  run_act_verb _ h

theorem exec_sesCancel {s : State} {sub : Sub} (h : accepts 1 s sub) :
    exec (.sesCancel sub 0) s = .next (keepFixed s (settleAll (doCancel (promoteIfLost (taken s sub) sub.handle) sub))) :=
  run_act_verb _ h

theorem exec_sesQuery {s : State} {sub : Sub} (h : accepts 1 s sub) :
    exec (.sesQuery sub 0) s = .next (keepFixed s (settleAll (doQuery (promoteIfLost (taken s sub) sub.handle) sub))) :=
  run_act_verb _ h

theorem exec_pfxInsert {s : State} {sub : Sub} (maxChunks flags : Nat) (h : accepts 2 s sub) :
    exec (.pfxInsert sub maxChunks flags 0) s =
      .next (keepFixed s (settleAll (doInsert (promoteIfLost (taken s sub) sub.handle) sub maxChunks flags 0))) :=
  run_act_verb _ h

/-- Equal effects give equal outcomes. -/
theorem next_settleAll_congr {s t u : State} (h : t = u) :
    (.next (keepFixed s (settleAll t)) : Host.Outcome State Fault Refusal) = .next (keepFixed s (settleAll u)) := by
  rw [h]

/-- DENSE or DELEGATE suffices for the verbs that bring an input (R53). -/
theorem noPrefillUnit_eq_false {s : State} (h : (hasCap s 0 || hasCap s 1) = true) : (!hasCap s 0 && !hasCap s 1) = false := by
  rw [← Bool.not_or, h]
  rfl

/-! ### SES_OPEN -/

/-- The general checks of R630 passed, a SES_OPEN comes before the hatch. -/
theorem doOpen_checked {s : State} {sub : Sub} {a : OpenArgs} {c : Ctx} (hargs : openArgsBad s true sub.context a = none)
    (hctx : tget? s.contexts sub.context = some c) (htorn : c.torn = none) (hcap : (hasCap s 0 || hasCap s 1) = true)
    (hpaused : s.steps.paused = false) (hswap : swapping s sub.context = false) : doOpen s sub a = openAdmit s sub a c := by
  simp only [doOpen, hargs, hctx, noPrefillUnit_eq_false hcap, htorn, hpaused, hswap, Option.isSome_none, Bool.false_eq_true, if_false]

/-- What a SES_OPEN that the hatch admits makes of the state (R93, R96, R99, R101). -/
theorem openAdmit_accept {s : State} {sub : Sub} {a : OpenArgs} {c : Ctx} {serial gen draw : Nat} {room : Headroom}
    {cost : List LedgerCost} {outside : Bool} (hserial : nextSerial s = some (serial, gen))
    (hlimit : (countedSess s).length < sessionLimit s) (hshelf : shelfComes s = true)
    (hhatch : decideVerb s (openRecord s (mkHandle s.device sub.context serial gen) c.partition a) c.params true
      (estimateT s (isTokenInput a) a.inLen) = .accept room cost outside draw) :
    openAdmit s sub a c =
      (let h := mkHandle s.device sub.context serial gen
       let v := holdVerb (setSess (takeSerial s) { openRecord s h c.partition a with
          place := if shelvesUsed s < shelves s then Place.shelf else .waiting
          mirrorDev := match chooseMirror s serial [] with | some m => m.1 | none => 0x7FF
          verb := some { sub := sub, resume := false } }) h room cost outside (estimateT s (isTokenInput a) a.inLen) draw
       startInput (checkSpill (postChunk (assignTrack v h false) h (mkChunk .opened h 0 0 false false [] [sub.tag, sub.ring]))) h a) := by
  have hroom : (decide (sessionLimit s ≤ (countedSess s).length) || !shelfComes s) = false := by
    rw [hshelf, decide_eq_false (Nat.not_le.mpr hlimit)]
    rfl
  simp only [openAdmit, hserial, hroom, hhatch, Bool.false_eq_true, if_false] <;> rfl

/-! ### SES_RESUME -/

/-- The checks of R26 passed, a SES_RESUME comes before the hatch. -/
theorem doResume_checked {s : State} {sub : Sub} {a : OpenArgs} {x : Session} {p : Params}
    (hargs : openArgsBad s false sub.context a = none) (hses : verbSession s sub = .ok x) (hstate : x.state = .parked ∨ x.state = .dormant)
    (hwait : mustWait x = false) (hcap : (hasCap s 0 || hasCap s 1) = true) (hpaused : s.steps.paused = false)
    (hswap : swapping s sub.context = false) (hparams : paramsOf s sub.context = some p) : doResume s sub a = resumeAdmit s sub a x p := by
  have hlive : x.state ≠ .retiring := by rcases hstate with e | e <;> simp [e]
  have hidle : (decide (x.state ≠ .parked) && decide (x.state ≠ .dormant)) = false := by rcases hstate with e | e <;> simp [e]
  simp only [doResume, hargs, hses, hlive, hwait, hidle, noPrefillUnit_eq_false hcap, hpaused, hswap, hparams, Bool.false_eq_true, if_false]

/-- What a SES_RESUME that the hatch admits makes of the state (R26, R93, R308). -/
theorem resumeAdmit_accept {s : State} {sub : Sub} {a : OpenArgs} {x : Session} {p : Params} {draw : Nat} {room : Headroom}
    {cost : List LedgerCost} {outside : Bool}
    (hhatch : decideVerb s x p false (estimateT s (isTokenInput a) a.inLen) = .accept room cost outside draw) :
    resumeAdmit s sub a x p =
      (let v := modTrack (setSess s { x with verb := some { sub := sub, resume := true }, tStart := s.timebase, tTouch := s.timebase, supplied := 0, inTokens := [],
                                             latency := { x.latency with ttftOpen := true, outside := false, tbtMaxNs := 0, resMaxNs := 0 }, state := .resuming })
         x fun k => { k with tbtMax := 0, resMax := 0 }
       let v := rehold (holdVerb v x.handle room cost outside (estimateT s (isTokenInput a) a.inLen) draw) x.handle
       startInput ((keepSet v x).foldl (fun s id => match objOf s id with
         | some o => if o.state = .home && !hasMove s id then requestRaise s id (qDemand x.cls) else s
         | none => s) v) x.handle a) := by
  simp only [resumeAdmit, hhatch] <;> rfl

/-! ### SES_CANCEL, SES_QUERY, PFX_INSERT -/

/-- A cancel marks the session, ends what waited behind it with CANCELLED and tries to end it (R109). -/
theorem doCancel_marks {s : State} {sub : Sub} {x : Session} (hses : verbSession s sub = .ok x) (hjoin : x.rejoin = false)
    (hlive : x.state ≠ .retiring) :
    doCancel s sub =
      (let v := x.waiting.foldl (fun s w => complete s w.sub .cancelled 0 [])
         (setSess s { x with cancelPending := true, cancels := x.cancels ++ [sub], waiting := [] })
       tryCancel (if x.place = .spilled then startFetch v sub.handle else v) sub.handle) := by
  simp only [doCancel, hses, hjoin, hlive, Bool.false_eq_true, if_false]
  rfl

/-- A query of a session homed here reads its descriptor (R94, R119). -/
theorem doQuery_home {s : State} {sub : Sub} {x : Session} (hshadow : tget? s.mir.shadows (hKey sub.handle) = none)
    (hses : verbSession s sub = .ok x) (hwait : mustWait x = false) : doQuery s sub = complete s sub .ok 0 (queryResults x) := by
  simp only [doQuery, hshadow, hses, hwait, Bool.false_eq_true, if_false]

/-- An insertion stays with the session, and starts at once only where no part of it is in flight (R333, R337). -/
theorem doInsert_pends {s : State} {sub : Sub} {x : Session} {flags : Nat} (maxChunks : Nat) (hflags : flags < 2)
    (hses : verbSession s sub = .ok x) (hcap : hasCap s 6 = true) (hwait : mustWait x = false)
    (hstate : x.state = .active ∨ x.state = .parked ∨ x.state = .dormant) :
    doInsert s sub maxChunks flags 0 =
      (let v := setSess s { x with publish := some (sub, maxChunks, flags = 1) }
       if inFlight v sub.handle then v else startPublish v sub.handle) := by
  have hform : (decide (0 ≠ 0) || decide (2 ≤ flags)) = false := by simpa using hflags
  have hbusy : (decide (x.state ≠ .active) && decide (x.state ≠ .parked) && decide (x.state ≠ .dormant)) = false := by
    rcases hstate with e | e | e <;> simp [e]
  simp only [doInsert, hform, hses, hcap, hwait, hbusy, Bool.not_true, Bool.false_eq_true, if_false]

/-- Settles O17: each verb runs behind its gate, its checks do not fail, and what is left of it is the effect stated. -/
theorem sessionVerbsRun : Obligations.SessionVerbsRun := by
  refine ⟨?opens, ?resumes, ?cancels, ?queries, ?inserts⟩
  case opens =>
    intro s sub a c serial gen draw room cost outside h u _ _ _ hargs hctx htorn hcap hpaused hswap hserial hlimit hshelf hhatch
    have hadmit := doOpen_checked hargs hctx htorn hcap hpaused hswap
    exact (exec_sesOpen a h).trans (next_settleAll_congr (hadmit.trans (openAdmit_accept hserial hlimit hshelf hhatch)))
  case resumes =>
    intro s sub a x p draw room cost outside h u _ hargs hses hstate hwait hcap hpaused hswap hparams hhatch
    have hadmit := doResume_checked hargs hses hstate hwait hcap hpaused hswap hparams
    exact (exec_sesResume a h).trans (next_settleAll_congr (hadmit.trans (resumeAdmit_accept hhatch)))
  case cancels =>
    intro s sub x h u hses hjoin hlive
    rw [exec_sesCancel h, doCancel_marks hses hjoin hlive]
  case queries =>
    intro s sub x h u hshadow hses hwait
    rw [exec_sesQuery h, doQuery_home hshadow hses hwait]
    rfl
  case inserts =>
    intro s sub x maxChunks flags h hflags u hses hcap hwait hstate
    rw [exec_pfxInsert maxChunks flags h, doInsert_pends maxChunks hflags hses hcap hwait hstate]

end Sys2Proof.Machine
end

section
/-! SUPPORT. What the reset and the return of one island do, island by island (R20, R21, R525, R542), and the statement
they settle. -/
namespace Sys2Proof.Machine

/-! ### The units of an island in reset -/

/-- An attic stack: its threads are idle, and walks that read it fail. -/
theorem unitsReset_attic {i : Nat} (s : State) (h : i < 6) :
    unitsReset s i =
      walksFail { s with nbu := { s.nbu with threads := s.nbu.threads.map fun t => if t.1 / 4 / 1024 = i then (t.1, { t.2 with busy := false }) else t } } :=
  if_pos h

/-- A half of the dense engine: its tile commands go, with the blocks they served and the host's command. -/
theorem unitsReset_dense {i : Nat} (s : State) (h : i = 6 ∨ i = 7) :
    unitsReset s i =
      (let gone := (tvals (s.den.running.filter fun t => tileHalf t.1 = i - 6)).filter (·.serve)
       { s with den := { s.den with
           running := s.den.running.filter fun t => tileHalf t.1 ≠ i - 6, serving := s.den.serving.filter fun v => !gone.any (·.work = v.id),
           hostCmd := s.den.hostCmd.filter fun c => tileHalf c.1 ≠ i - 6 } }) := by
  rcases h with rfl | rfl <;> rfl

/-- A bay: its eight links and its two Ethernet ports go down. -/
theorem unitsReset_bay {i : Nat} (s : State) (hlow : 9 ≤ i) (hhigh : i ≤ 14) :
    unitsReset s i = [2 * (i - 9), 2 * (i - 9) + 1].foldl ethGoDown (((List.range 8).map (8 * (i - 9) + ·)).foldl lnkGoDown s) := by
  have hattic : ¬ i < 6 := by omega
  have hdense : ¬ (i = 6 ∨ i = 7) := by omega
  simp [unitsReset, hattic, hdense, hlow, hhigh]

theorem unitsReset_store {i : Nat} (s : State) (h : i = 15 ∨ i = 16) : unitsReset s i = fetchesFail s := by
  rcases h with rfl | rfl <;> rfl

theorem unitsReset_host (s : State) : unitsReset s 17 = hostResets s := rfl

/-- The fabric, service, control and security islands lose nothing beyond the steps and contexts with work in them (log 112). -/
theorem unitsReset_other {i : Nat} (s : State) (hattic : ¬ i < 6) (hdense : ¬ (i = 6 ∨ i = 7)) (hbay : ¬ (9 ≤ i ∧ i ≤ 14))
    (hstore : ¬ (i = 15 ∨ i = 16)) (hhost : ¬ i = 17) : unitsReset s i = s := by
  simp only [unitsReset, Bool.or_eq_true, Bool.and_eq_true, decide_eq_true_eq, if_neg hattic, if_neg hdense, if_neg hbay, if_neg hstore, if_neg hhost]

/-! ### The reset -/

theorem islandReset_ignored {s : State} {i : Nat} (h : 22 ≤ i ∨ i ∈ s.clk.inReset) : islandReset s i = s :=
  if_pos (by simpa using h)

theorem islandReset_taken {s : State} {i : Nat} (hlow : i < 22) (hup : ¬ i ∈ s.clk.inReset) :
    islandReset s i =
      (let d : State := { s with clk := { s.clk with inReset := s.clk.inReset ++ [i] } }
       if 20 ∈ d.clk.inReset ∧ 21 ∈ d.clk.inReset then coldStart d 3
       else (tornBy d i).eraseDups.foldl (fun t c => teardown t c { trigger := Config.islandTrigger, unit := i, code := 0 } none)
         (unitsReset (killIn d i) i)) := by
  have htaken : (decide (22 ≤ i) || s.clk.inReset.contains i) = false := by simpa [hup] using hlow
  simp only [islandReset, htaken, Bool.false_eq_true, if_false, Bool.and_eq_true, List.contains_iff_mem]

/-! ### The return -/

theorem islandReturns_ignored {s : State} {i : Nat} (h : ¬ i ∈ s.clk.inReset) : islandReturns s i = s :=
  if_pos (by simpa using h)

/-- A security island leaves reset, copies the other's keys and posts its event (R525). -/
theorem resync_returns {s : State} {half : Nat} (h : 20 + half ∈ s.clk.inReset) :
    resync s half = report { s with clk := { s.clk with inReset := s.clk.inReset.filter (· ≠ 20 + half) } } 0x1707 half 0 [half] :=
  if_pos (by simpa using h)

theorem islandReturns_security {s : State} {i : Nat} (hdown : i ∈ s.clk.inReset) (hsec : i = 20 ∨ i = 21) :
    islandReturns s i = report { s with clk := { s.clk with inReset := s.clk.inReset.filter (· ≠ i) } } 0x1707 (i - 20) 0 [i - 20] := by
  have hhalf : 20 + (i - 20) = i := by omega
  have hresync : islandReturns s i = resync s (i - 20) := by simp [islandReturns, hdown, hsec]
  rw [hresync, resync_returns (hhalf.symm ▸ hdown), hhalf]

theorem islandReturns_other {s : State} {i : Nat} (hdown : i ∈ s.clk.inReset) (hsec : ¬ (i = 20 ∨ i = 21)) :
    islandReturns s i =
      (let d : State := { s with clk := { s.clk with inReset := s.clk.inReset.filter (· ≠ i) } }
       let e : State := { d with steps := { d.steps with parts := d.steps.parts.map fun p => if p.islandKilled = some i then { p with islandKilled := none } else p } }
       if i = 17 then hostReturns e else if i < 6 then nbuKick e else e) := by
  have htaken : (!s.clk.inReset.contains i) = false := by simpa using hdown
  simp only [islandReturns, htaken, Bool.false_eq_true, if_false, Bool.or_eq_true, decide_eq_true_eq, if_neg hsec]
  by_cases hhost : i = 17
  · subst hhost
    rfl
  · rw [if_neg hhost, if_neg hhost]

/-! ### The commands -/

theorem exec_islandReset {s : State} (i : Nat) (h : serving s) :
    exec (.islandReset i) s = .next (keepFixed s (settleAll (islandReset (cleared s) i))) := run_act _ h

theorem exec_islandReturn {s : State} (i : Nat) (h : serving s) :
    exec (.islandReturn i) s = .next (keepFixed s (settleAll (islandReturns (cleared s) i))) := run_act _ h

/-- Settles O52: both commands run behind the service gate, and the lemmas on islandReset, unitsReset and islandReturns say
what they do there. -/
theorem islandResetsAndReturns : Obligations.IslandResetsAndReturns := by
  intro s i h fin u down
  rw [exec_islandReset i h, exec_islandReturn i h]
  refine ⟨fun hno => ?ignored, fun hlow hup => ?reset, fun hup => ?idle, fun hdown => ?back⟩
  case ignored => rw [islandReset_ignored (s := cleared s) hno]
  case reset =>
    intro d k b lost
    have hunits : unitsReset k i = lost := by
      simp only [lost]
      split_ifs with hattic hdense hbay hstore hhost
      · exact unitsReset_attic k hattic
      · exact unitsReset_dense k hdense
      · exact unitsReset_bay k hbay.1 hbay.2
      · exact unitsReset_store k hstore
      · rw [hhost, unitsReset_host]
        rfl
      · exact unitsReset_other k hattic hdense hbay hstore hhost
    rw [islandReset_taken (s := cleared s) hlow hup, ← hunits]
  case idle => rw [islandReturns_ignored (s := cleared s) hup]
  case back =>
    intro d e
    by_cases hsec : i = 20 ∨ i = 21
    · rw [islandReturns_security (s := cleared s) hdown hsec, if_pos hsec]
    · rw [islandReturns_other (s := cleared s) hdown hsec, if_neg hsec]

end Sys2Proof.Machine
end

section
/-! SUPPORT. The verbs of the attachment, for an entry that passes the first checks (R38, R47 to R53, R628), and the
statement they settle. -/
namespace Sys2Proof.Machine

/-! ### Their commands -/

theorem exec_invalidOpcode {s : State} {sub : Sub} (h : accepts 0 s sub) :
    exec (.invalidOpcode sub) s = .next (keepFixed s (refuse (taken s sub) sub .versionMismatch 0x2)) :=
  run_verb _ h

theorem exec_attach {s : State} {sub : Sub} (minLevel maxLevel required rsv : Nat) (h : accepts 0 s sub) :
    exec (.attach sub minLevel maxLevel required rsv) s =
      .next (keepFixed s (doAttach (taken s sub) sub minLevel maxLevel required rsv)) :=
  run_verb _ h

theorem exec_queryCap {s : State} {sub : Sub} (h : accepts 0 s sub) :
    exec (.queryCap sub 0) s =
      .next (keepFixed s (complete (taken s sub) sub .ok 0 [s.attached, ctlMin, ctlMax, capWord (taken s sub)])) :=
  run_verb _ h

theorem exec_detach {s : State} {sub : Sub} (rsv : Nat) (h : accepts 1 s sub) :
    exec (.detach sub rsv) s = .next (keepFixed s (settleAll (doDetach (taken s sub) sub rsv))) :=
  run_act_verb _ h

/-! ### ATTACH -/

/-- The level that ATTACH agrees on is one that the block and the host both have, so none of the refusals of R49 applies. -/
theorem doAttach_agreed {s : State} {sub : Sub} {minLevel maxLevel required : Nat} (hring : sub.ring = 0) (hmax : 1 ≤ maxLevel)
    (hmin : minLevel ≤ 3) (hcaps : missingCaps s required = 0) (hlevel : s.attached = 0 ∨ s.attached = Nat.min maxLevel 3) :
    doAttach s sub minLevel maxLevel required 0 =
      (let t := { s with attached := Nat.min maxLevel 3 }
       complete t sub .ok 0 (attachResults t (Nat.min maxLevel 3) 0)) := by
  have hmeet : (decide (maxLevel < ctlMin) || decide (ctlMax < minLevel)) = false :=
    Bool.or_eq_false_iff.mpr ⟨decide_eq_false (Nat.not_lt.mpr hmax), decide_eq_false (Nat.not_lt.mpr hmin)⟩
  have hsame : (decide (s.attached ≠ 0) && decide (s.attached ≠ Nat.min maxLevel ctlMax)) = false := by
    rcases hlevel with e | e <;> simp [e, ctlMax]
  simp only [doAttach, hring, hmeet, hcaps, hsame, ne_eq, not_true_eq_false, Bool.false_eq_true, if_false]
  rfl

/-! ### DETACH -/

/-- Where no context is left, the one DETACH that waits completes and the attachment ends. -/
theorem endDetach_alone {s : State} {sub : Sub} (hctx : s.contexts = []) (hdet : s.detaching = [sub]) :
    endDetach s = complete { s with detaching := [], attached := 0 } sub .ok 0 [] := by
  simp [endDetach, hctx, hdet]

theorem doDetach_noContexts {s : State} {sub : Sub} (hctx : s.contexts = []) (hdet : s.detaching = []) :
    doDetach s sub 0 = complete { s with detaching := [], attached := 0 } sub .ok 0 [] := by
  have hends : doDetach s sub 0 = endDetach { s with detaching := [sub] } := by
    simp only [doDetach, hctx, hdet, ne_eq, not_true_eq_false, if_false]
    rfl
  rw [hends, endDetach_alone (s := { s with detaching := [sub] }) hctx rfl]

/-! ### Before ATTACH -/

/-- Without an attachment an entry whose verb has a level is refused, whatever the verb would do (R47). -/
theorem verb_unattached {level : Nat} {s : State} {sub : Sub} (f : State → State) (hlevel : level ≠ 0) (h : accepts 0 s sub)
    (hdetached : s.attached = 0) : verb level sub f (cleared s) = refuse (taken s sub) sub .versionMismatch 0x1 := by
  obtain ⟨_, hhost, htag, _⟩ := h
  have htag' : (ringOf (cleared s) sub.ring).tags.contains sub.tag = false := htag
  have hnone : (decide (level ≠ 0) && decide ((taken s sub).attached = 0)) = true := by
    simpa using ⟨hlevel, hdetached⟩
  unfold verb
  simp only [hhost, htag', hnone, Bool.false_eq_true, if_false, if_true]

theorem exec_semAcquire_unattached {s : State} {sub : Sub} (sem cls rsv : Nat) (h : accepts 0 s sub) (hdetached : s.attached = 0) :
    exec (.semAcquire sub sem cls rsv) s = .next (keepFixed s (refuse (taken s sub) sub .versionMismatch 0x1)) := by
  refine (run_whenUp _ h.1).trans ?_
  rw [verb_unattached _ Nat.one_ne_zero h hdetached]

/-- Settles O15: each entry reaches its verb, whose refusals do not apply, or stops at the level check. -/
theorem attachmentVerbs : Obligations.AttachmentVerbs := by
  refine ⟨?invalid, ?attaches, ?queries, ?detaches, ?alone, ?before⟩
  case invalid => exact fun s sub h => exec_invalidOpcode h
  case attaches =>
    intro s sub minLevel maxLevel required h hring hmax hmin hcaps hlevel
    rw [exec_attach minLevel maxLevel required 0 h, doAttach_agreed hring hmax hmin hcaps hlevel]
    rfl
  case queries => exact fun s sub h => exec_queryCap h
  case detaches => exact fun s sub h => exec_detach 0 h
  case alone =>
    intro s sub h hctx hdet
    rw [exec_detach 0 h, doDetach_noContexts (s := taken s sub) hctx hdet]
  case before => exact fun s sub sem cls rsv h hdetached => exec_semAcquire_unattached sem cls rsv h hdetached

end Sys2Proof.Machine
end

section
/-! SUPPORT. How the Ladder's moves start, complete and fail, case by case (R136, R139, R148 to R156), and the statement
they settle. -/
namespace Sys2Proof.Machine

/-! ### Their commands -/

theorem exec_ladderMoveStart {s : State} (e : Nat) (h : serving s) :
    exec (.ladderMoveStart e) s = .next (keepFixed s (settleAll (ladderStart (cleared s) e))) := run_act _ h

theorem exec_moveFailed {s : State} (id : Nat) (h : serving s) :
    exec (.moveFailed id) s = .next (keepFixed s (settleAll (moveFails (cleared s) id))) := run_act _ h

theorem exec_tierDeadlineExpiry {s : State} (id : Nat) (h : serving s) :
    exec (.tierDeadlineExpiry id) s = .next (keepFixed s (settleAll (moveFails (cleared s) id))) := run_act _ h

theorem exec_faultyTargetExpiry {s : State} (remote : Bool) (n : Nat) (h : serving s) :
    exec (.faultyTargetExpiry remote n) s = .next (keepFixed s (settleAll
      (let u := cleared s
       { u with tier := { u.tier with targets := u.tier.targets.map fun t =>
           if t.remote = remote && t.number = n then { t with faulty := false } else t } }))) := run_act _ h

theorem exec_cellarTargetLost {s : State} (remote : Bool) (n : Nat) (h : serving s) :
    exec (.cellarTargetLost remote n) s = .next (keepFixed s (settleAll (targetLost (cleared s) remote n))) := run_act _ h

/-- A move whose copy does not travel as remote memory requests is this controller's to complete (R478). -/
theorem remoteMove_own {s : State} {id : Nat} {m : Move} (hrun : runningMove s id = some m) (hown : m.asked = false) :
    remoteMove s id = false := by
  rw [remoteMove, hrun]
  exact hown

theorem exec_raiseComplete_own {s : State} {id : Nat} {m : Move} (crcOk : Bool) (h : serving s) (hrun : runningMove s id = some m)
    (hown : m.asked = false) :
    exec (.raiseComplete id crcOk) s = .next (keepFixed s (settleAll (raiseComplete (cleared s) id crcOk))) := by
  refine (run_act _ h).trans ?_
  rw [remoteMove_own (s := cleared s) hrun hown]
  rfl

theorem exec_sinkComplete_own {s : State} {id : Nat} {m : Move} (h : serving s) (hrun : runningMove s id = some m)
    (hown : m.asked = false) :
    exec (.sinkComplete id) s = .next (keepFixed s (settleAll (sinkComplete (cleared s) id))) := by
  refine (run_act _ h).trans ?_
  rw [remoteMove_own (s := cleared s) hrun hown]
  rfl

theorem exec_writebackComplete_own {s : State} {id : Nat} {m : Move} (h : serving s) (hrun : runningMove s id = some m)
    (hown : m.asked = false) :
    exec (.writebackComplete id) s = .next (keepFixed s (settleAll (writebackComplete (cleared s) id))) := by
  refine (run_act _ h).trans ?_
  rw [remoteMove_own (s := cleared s) hrun hown]
  rfl

/-! ### Starting a move -/

/-- The running moves of an engine. -/
def engineMoves (s : State) (e : Nat) : List Move :=
  s.tier.running.filter fun m => match objOf s m.obj with | some o => engineOf o = e | none => false

/-- An engine starts moves: fewer than 256 of its own run, and the store-room island, PLL and security island of its half
serve (R139, R558). -/
def EngineServes (s : State) (e : Nat) : Prop :=
  (engineMoves s e).length < 256 ∧ s.clk.inReset.contains (15 + e) = false ∧
    (tget? s.clk.plls (15 + e)).elim false (·.state = .coasting) = false ∧ s.clk.inReset.contains (20 + e) = false

theorem ladderStart_serving {s : State} {e : Nat} (h : EngineServes s e) :
    ladderStart s e = match nextMove s e with | some (q, m) => startMove s e q m | none => s := by
  obtain ⟨hfew, hstore, hpll, hsec⟩ := h
  have hstarts : (decide (256 ≤ (engineMoves s e).length) || s.clk.inReset.contains (15 + e) ||
      (tget? s.clk.plls (15 + e)).elim false (·.state = .coasting) || s.clk.inReset.contains (20 + e)) = false := by
    rw [hstore, hpll, hsec, decide_eq_false (Nat.not_le.mpr hfew)]
    rfl
  exact if_neg (Bool.eq_false_iff.mp hstarts)

theorem ladderStart_idle {s : State} {e : Nat} (h : EngineServes s e) (hnext : nextMove s e = none) : ladderStart s e = s := by
  rw [ladderStart_serving h, hnext]

theorem ladderStart_starts {s : State} {e q : Nat} {m : Move} (h : EngineServes s e) (hnext : nextMove s e = some (q, m)) :
    ladderStart s e = startMove s e q m := by
  rw [ladderStart_serving h, hnext]

/-- The state with a move taken out of its queue. -/
abbrev dequeue (s : State) (e q : Nat) (m : Move) : State :=
  setQueue s e q (dropFirst (fun x => x.id = m.id) (queueOf s e q))

/-- The target that an age move takes, as its move keeps it: 256 and more for a remote pool. -/
def ageTarget (s : State) (o : Obj) : Nat := match cellarTarget s o with | some t => 256 * b2n t.remote + t.number | none => 0

theorem objOf_setQueue (s : State) (e q : Nat) (l : List Move) (id : Nat) : objOf (setQueue s e q l) id = objOf s id := rfl

section
variable {s : State} {m : Move} {o : Obj} (e q : Nat) (hobj : objOf s m.obj = some o)
include hobj

theorem startMove_sink (hkind : m.kind = .sink) : startMove s e q m = beginMove (dequeue s e q m) m o 0 := by
  simp only [startMove, objOf_setQueue, hobj, hkind]

theorem startMove_writeback (hkind : m.kind = .writeback) (hres : o.state = .resident) :
    startMove s e q m = beginMove (dequeue s e q m) m o 0 := by
  simp only [startMove, objOf_setQueue, hobj, hkind, hres, if_true]

theorem startMove_age (hkind : m.kind = .age) :
    startMove s e q m = beginMove (dequeue s e q m) m o (ageTarget (dequeue s e q m) o) := by
  simp only [startMove, objOf_setQueue, hobj, hkind]
  rfl

/-- A raise whose object has its place already starts where a copy is left to read (R151, R156). -/
theorem startMove_raise (hkind : m.kind = .raise) (hcopy : lowerGone (dequeue s e q m) o = false) (hrising : o.state = .rising) :
    startMove s e q m = checkAttic (beginMove (dequeue s e q m) m o 0) := by
  simp [startMove, objOf_setQueue, hobj, hkind, hcopy, hrising]

end

/-! ### Completing and failing a move -/

/-- The copy below that a write-back leaves: the object's bytes at the step it read, where the old copy lies or in the store
room. -/
def refreshedCopy (s : State) (m : Move) (o : Obj) : Lower :=
  match o.lower with
  | some l => { l with bytes := storedBytes s o, step := m.step }
  | none => { tier := 1, target := 0, unit := nextUnit s 1 0, bytes := storedBytes s o, step := m.step }

/-- The copy below that a sink leaves: that of a clean object, else one written to the store room now. -/
def sunkCopy (s : State) (o : Obj) : Option Lower :=
  if !o.dirty && o.lower.isSome then o.lower
  else some { tier := 1, target := 0, unit := (match o.lower with | some l => if l.tier = 1 then l.unit else nextUnit s 1 0 | none => nextUnit s 1 0),
              bytes := storedBytes s o, step := o.step }

/-- The bytes of the copy below that a raise brings. -/
def lowerBytes (o : Obj) : Mem := match o.lower with | some l => l.bytes | none => []

theorem objOf_endMove (s : State) (id obj : Nat) : objOf (endMove s id) obj = objOf s obj := rfl

section
variable {s : State} {id : Nat} {m : Move} {o : Obj} (hrun : runningMove s id = some m) (hobj : objOf s m.obj = some o)
include hrun hobj

theorem raiseComplete_rising (crcOk : Bool) (hrising : o.state = .rising) :
    raiseComplete s id crcOk = if crcOk then raised (endMove s id) m o else raiseFails (endMove s id) m o := by
  simp [raiseComplete, hrun, hobj, hrising]

theorem sinkComplete_sinking (hsinking : o.state = .sinking) : sinkComplete s id = sunk (endMove s id) m o := by
  simp [sinkComplete, hrun, hobj, hsinking]

/-- A write-back refreshes the copy below; the object stays dirty where its step changed meanwhile (R148). -/
theorem writebackComplete_refreshes (hkind : m.kind = .writeback) :
    writebackComplete s id =
      checkStore (afterMove (setObj (endMove s id) m.obj
        { o with lower := some (refreshedCopy (endMove s id) m o), dirty := if o.step = m.step then false else o.dirty }) m.obj []) := by
  simp only [writebackComplete, hrun, hkind, hobj]
  rfl

theorem moveFails_raise (hkind : m.kind = .raise) : moveFails s id = raiseFails (endMove s id) m o := by
  simp only [moveFails, hrun, objOf_endMove, hobj, hkind]

theorem moveFails_sink (hkind : m.kind = .sink) : moveFails s id = sinkFails (endMove s id) m o := by
  simp only [moveFails, hrun, objOf_endMove, hobj, hkind]

end

/-- A raise leaves the object RESIDENT and clean, the bytes of its copy below in the attic (R151). -/
theorem raised_raise {s : State} {m : Move} (o : Obj) (hkind : m.kind = .raise) :
    raised s m o = afterMove (bump (setObj (placeBytes s o (lowerBytes o)) m.obj
      { o with state := .resident, dirty := false, active := 0 }) Reg.LAD_COUNT.raises) m.obj (ownersOf s m.obj) := by
  simp only [raised, hkind]
  rfl

/-- A sink out of the attic leaves the object HOME and clean: a clean copy below stays, else a new one is written (R150). -/
theorem sunk_sink {s : State} {m : Move} (o : Obj) (hkind : m.kind = .sink) :
    sunk s m o = checkStore (afterMove (raiseBehind (bump (setObj (wipeAttic s o) m.obj
      { o with state := .home, attic := false, dirty := false, lower := sunkCopy s o, active := 0 }) Reg.LAD_COUNT.sinks) m.obj) m.obj
      (ownersOf s m.obj)) := by
  simp only [sunk, hkind, if_true]
  rfl

/-- An age move gives the copy below the tier, target and unit that the move took (R136). -/
theorem sunk_age {s : State} {m : Move} (o : Obj) (hkind : m.kind = .age) :
    sunk s m o = checkStore (afterMove (raiseBehind (bump (setObj s m.obj
      { o with state := .home, lower := o.lower.map fun l => { l with tier := if 256 ≤ m.target then 3 else 2, target := m.target % 256, unit := m.unit } })
      Reg.LAD_COUNT.sinks) m.obj) m.obj (ownersOf s m.obj)) := by
  have hnot : m.kind ≠ .sink := by simp [hkind]
  simp only [sunk, hnot, if_false]

/-- A sink that fails loses nothing: SINK_FAULT, and the object is RESIDENT and dirty (R155). -/
theorem sinkFails_sink {s : State} {m : Move} (o : Obj) (hkind : m.kind = .sink) :
    sinkFails s m o = checkAttic (afterMove (setObj (report s 0x0402 (o.creator % 2 ^ 24) 0 [crateId o, 1]) m.obj
      { o with state := .resident, dirty := true, raiseAfter := none }) m.obj (ownersOf s m.obj)) := by
  simp only [sinkFails, hkind]

/-! ### Cellar targets -/

/-- The loss of a target that is not lost yet (R55, R156, R514). -/
theorem targetLost_first {s : State} {remote : Bool} {n : Nat}
    (hthere : (s.tier.targets.any fun t => t.remote = remote && t.number = n && !t.lost) = true) :
    targetLost s remote n =
      (let v := { s with tier := { s.tier with targets := s.tier.targets.map fun t =>
         if t.remote = remote && t.number = n then { t with lost := true } else t } }
       noteCap (storeLost (report v 0x0406 (256 * b2n remote + n) 0 [b2n remote, n]) (256 * b2n (!remote) + n))) :=
  if_neg (by simp [hthere])

/-- Settles O43: each command runs behind the service gate, and the lemmas on starts, completions, failures and targets say
what it does there. -/
theorem ladderMovesAndTargets : Obligations.LadderMovesAndTargets := by
  refine ⟨?starts, ?ends, ?targets⟩
  case starts =>
    intro s e h hfew hstore hpll hsec fin u
    have hserves : EngineServes (cleared s) e := ⟨hfew, hstore, hpll, hsec⟩
    rw [exec_ladderMoveStart e h]
    refine ⟨fun hnext => ?idle, fun q m o hnext hobj => ?next⟩
    case idle => rw [ladderStart_idle hserves hnext]
    case next =>
      rw [ladderStart_starts hserves hnext]
      refine ⟨fun hkind => ?_, fun hkind hres => ?_, fun hkind => ?_, fun hkind hcopy hrising => ?_⟩
      · rw [startMove_sink (s := cleared s) e q hobj hkind]
      · rw [startMove_writeback (s := cleared s) e q hobj hkind hres]
      · rw [startMove_age (s := cleared s) e q hobj hkind]
        rfl
      · rw [startMove_raise (s := cleared s) e q hobj hkind hcopy hrising]
  case ends =>
    intro s id m o h hrun hobj fin u
    refine ⟨fun hown hkind hrising => ?raise, fun hown hkind hsinking => ?sink, fun hown hkind hsinking => ?age,
      fun hown hkind => ?writeback, fun hkind => ?raiseFails, fun hkind => ?sinkFails⟩
    case raise =>
      rw [exec_raiseComplete_own true h hrun hown, exec_raiseComplete_own false h hrun hown,
        raiseComplete_rising (s := cleared s) hrun hobj true hrising, raiseComplete_rising (s := cleared s) hrun hobj false hrising,
        if_pos rfl, if_neg Bool.false_ne_true, raised_raise o hkind]
      exact ⟨rfl, rfl⟩
    case sink =>
      rw [exec_sinkComplete_own h hrun hown, sinkComplete_sinking (s := cleared s) hrun hobj hsinking, sunk_sink o hkind]
      rfl
    case age =>
      rw [exec_sinkComplete_own h hrun hown, sinkComplete_sinking (s := cleared s) hrun hobj hsinking, sunk_age o hkind]
    case writeback =>
      rw [exec_writebackComplete_own h hrun hown, writebackComplete_refreshes (s := cleared s) hrun hobj hkind]
      rfl
    case raiseFails =>
      rw [exec_moveFailed id h, exec_tierDeadlineExpiry id h, moveFails_raise (s := cleared s) hrun hobj hkind]
      exact ⟨rfl, rfl⟩
    case sinkFails =>
      rw [exec_moveFailed id h, exec_tierDeadlineExpiry id h, moveFails_sink (s := cleared s) hrun hobj hkind, sinkFails_sink o hkind]
      exact ⟨rfl, rfl⟩
  case targets =>
    intro s remote n h
    refine ⟨exec_faultyTargetExpiry remote n h, fun hthere => ?lost⟩
    case lost => rw [exec_cellarTargetLost remote n h, targetLost_first (s := cleared s) hthere]

end Sys2Proof.Machine
end

section
/-! SUPPORT. Which buckets a load of regulators empties (R71), and the statement it settles. -/
namespace Sys2Proof.Machine

/-- One step of a load of regulators: the bucket of entry `k` is emptied where the entry changes. -/
def emptyChanged (old new : List Regulator) (s : State) (k : Nat) : State :=
  if new.getD k {} ≠ old.getD k {} then setBucket s (k / 3) (k % 3) 0 else s

/-- The state with the entries of a REGULATORS section in place, its buckets as they were. -/
def setRegulators (s : State) (n : List Regulator) : State :=
  { s with lay := { s.lay with active := { s.lay.active with regulators := n } } }

theorem applyRegulators_eq (s : State) (n : List Regulator) :
    applyRegulators s n = (List.range 48).foldl (emptyChanged s.lay.active.regulators n) (setRegulators s n) := rfl

theorem bucketIx_div_mod (k : Nat) : bucketIx (k / 3) (k % 3) = k := Nat.div_add_mod k 3

theorem emptyChanged_lay (old new : List Regulator) (s : State) (k : Nat) : (emptyChanged old new s k).lay = s.lay := by
  unfold emptyChanged
  split
  · exact setBucket_lay ..
  · rfl

theorem bucketLevel_emptyChanged (old new : List Regulator) (s : State) (k p r : Nat) :
    bucketLevel (emptyChanged old new s k) p r =
      if bucketIx p r = k ∧ new.getD (bucketIx p r) {} ≠ old.getD (bucketIx p r) {} then 0 else bucketLevel s p r := by
  unfold emptyChanged
  split
  case isTrue hchange =>
    rw [bucketLevel_setBucket_zero, bucketIx_div_mod]
    refine if_congr ⟨fun hk => ⟨hk, hk ▸ hchange⟩, And.left⟩ rfl rfl
  case isFalse hsame => exact (if_neg fun ⟨hk, hchange⟩ => hsame (hk ▸ hchange)).symm

theorem foldl_emptyChanged_lay (old new : List Regulator) (ks : List Nat) (s : State) :
    (ks.foldl (emptyChanged old new) s).lay = s.lay := by
  induction ks generalizing s with
  | nil => rfl
  | cons k ks ih => rw [List.foldl_cons, ih, emptyChanged_lay]

/-- Over a list of entries, a bucket is emptied where its entry is listed and changes. -/
theorem bucketLevel_foldl_emptyChanged (old new : List Regulator) (ks : List Nat) (s : State) (p r : Nat) :
    bucketLevel (ks.foldl (emptyChanged old new) s) p r =
      if bucketIx p r ∈ ks ∧ new.getD (bucketIx p r) {} ≠ old.getD (bucketIx p r) {} then 0 else bucketLevel s p r := by
  induction ks generalizing s with
  | nil => simp
  | cons k ks ih =>
    rw [List.foldl_cons, ih, bucketLevel_emptyChanged, ← ite_or]
    exact if_congr (by rw [List.mem_cons, or_and_right, or_comm]) rfl rfl

theorem regulatorOf_applyRegulators (s : State) (n : List Regulator) (p r : Nat) :
    regulatorOf (applyRegulators s n) p r = n.getD (bucketIx p r) {} := by
  rw [applyRegulators_eq, regulatorOf, foldl_emptyChanged_lay]
  rfl

/-- A load empties the bucket of an entry of the table that it changes, and no other. -/
theorem bucketLevel_applyRegulators (s : State) (n : List Regulator) (p r : Nat) :
    bucketLevel (applyRegulators s n) p r =
      if bucketIx p r < 48 ∧ n.getD (bucketIx p r) {} ≠ regulatorOf s p r then 0 else bucketLevel s p r := by
  rw [applyRegulators_eq, bucketLevel_foldl_emptyChanged]
  simp only [List.mem_range]
  rfl

/-- Settles O59: the load goes through the 48 entries of the table one by one and empties the bucket of each that changes. -/
theorem regulatorLoadEmptiesChangedBucketsOnly : Obligations.RegulatorLoadEmptiesChangedBucketsOnly := by
  intro s n p r hp hr t
  have hentry : regulatorOf t p r = n.getD (bucketIx p r) {} := regulatorOf_applyRegulators s n p r
  have hlevel : bucketLevel t p r =
      if bucketIx p r < 48 ∧ n.getD (bucketIx p r) {} ≠ regulatorOf s p r then 0 else bucketLevel s p r :=
    bucketLevel_applyRegulators s n p r
  have hlisted : bucketIx p r < 48 := by unfold bucketIx; omega
  rw [← hentry] at hlevel
  exact ⟨hentry, fun hchanged => hlevel.trans (if_pos ⟨hlisted, hchanged⟩),
    fun hsame => hlevel.trans (if_neg fun h => h.2 hsame)⟩

end Sys2Proof.Machine
end

section
/-! SUPPORT. How the operations on layout images run, case by case (R77 to R82, R86, R214), and the statement they settle. -/
namespace Sys2Proof.Machine

/-! ### Their commands -/

theorem exec_layLoad {s : State} (img : List Nat) (h : hostReaches s) :
    exec (.layLoad img) s = .next (keepFixed s (settleWhole (layStart (written s) 1 fun u => layLoad u img))) := run_hostActL _ h

theorem exec_layProgramSlot {s : State} (img : List Nat) (h : hostReaches s) :
    exec (.layProgramSlot img) s = .next (keepFixed s (settleWhole (layStart (written s) 2 fun u => layProgram u img))) :=
  run_hostActL _ h

theorem exec_fastRecompQuiesceExpiry {s : State} {f : FastRecomp} (h : serving s) (hfast : s.lay.fast = some f) :
    exec .fastRecompQuiesceExpiry s = .next (keepFixed s (settleWhole (fastApply (fastKill (cleared s))))) := by
  refine (run_actU _ h).trans ?_
  rw [if_pos (by rw [hfast]; rfl)]

theorem exec_microprogReloadDone {s : State} (k : Nat) (h : serving s) :
    exec (.microprogReloadDone k) s = .next (keepFixed s (settleWhole (reloadDone (cleared s) k))) := run_actU _ h

/-- Equal effects give equal outcomes. -/
theorem next_settleWhole_congr {s t u : State} (h : t = u) :
    (.next (keepFixed s (settleWhole t)) : Host.Outcome State Fault Refusal) = .next (keepFixed s (settleWhole u)) := by
  rw [h]

/-! ### Starting an operation (R79, R82) -/

/-- The state in which an operation of LAY_CTRL runs: its number stored, busy and copied set. -/
def opened (s : State) (op : Nat) : State :=
  setFld (setFld (setFld s Reg.LAY_CTRL.op op) Reg.LAY_STATUS.busy 1) Reg.LAY_STATUS.copied 1

theorem layStart_busy {s : State} {op : Nat} (f : State → State)
    (hbusy : fld (setFld s Reg.LAY_CTRL.op op) Reg.LAY_STATUS.busy = 1) :
    layStart s op f = setFld (setFld s Reg.LAY_CTRL.op op) Reg.LAY_STATUS.overrun 1 := if_pos hbusy

theorem layStart_idle {s : State} {op : Nat} (f : State → State)
    (hidle : fld (setFld s Reg.LAY_CTRL.op op) Reg.LAY_STATUS.busy ≠ 1) : layStart s op f = f (opened s op) := if_neg hidle

/-! ### Loading an image and writing a slot -/

/-- The state in which a fast recomposition waits for its steps to be sealed (R86). -/
def quiescing (s : State) (i : Image) : State :=
  { s with lay := { s.lay with fast := some { image := i } }, steps := { s.steps with paused := true } }

section
variable {s : State} {img : List Nat}

theorem layLoad_unreadable {e : ImgBad} (hread : stagedRead s img = .error e) :
    layLoad s img = layRefused s (leAt img 20 4) e := by
  simp only [layLoad, hread]

theorem layLoad_lateBad {i : Image} {r : Nat} (hread : stagedRead s img = .ok i) (hlate : lateBad s i = some r) :
    layLoad s img = layRefused s i.serial ⟨r, 0⟩ := by
  simp only [layLoad, hread, hlate]

/-- An image that passes every check is applied at once, or with FAST when no step is left unsealed (R78, R86). -/
theorem layLoad_accepted {i : Image} (hread : stagedRead s img = .ok i) (hlate : lateBad s i = none) :
    layLoad s img =
      if bitOf i.flags 1 then
        if (unsealedSteps (quiescing s i)).isEmpty then fastApply (quiescing s i) else quiescing s i
      else applyImage s i := by
  simp only [layLoad, hread, hlate]
  rfl

theorem layProgram_unreadable {e : ImgBad} (hread : stagedRead s img = .error e) :
    layProgram s img = layRefused s (leAt img 20 4) e := by
  simp only [layProgram, hread]

/-- The slot that is not active takes the image and is marked valid, and the operation ends OK (R81, log entry 91). -/
theorem layProgram_readable {i : Image} (hread : stagedRead s img = .ok i) :
    layProgram s img =
      (let toB := decide (fld s Reg.LAY_SPI.active_slot = 0)
       let p := { s with lay := if toB then { s.lay with slotB := some i } else { s.lay with slotA := some i } }
       let q := setFld p Reg.LAY_SPI.slot_valid (putBit (fld p Reg.LAY_SPI.slot_valid) (b2n toB) true)
       layStatus (report q 0x0201 i.serial 0 [i.serial, 0, 0]) .ok 0 0) := by
  simp only [layProgram, hread]

end

/-! ### The end of a fast recomposition (R86) -/

/-- The held image is applied, then the descriptors held meanwhile are taken (log entry 90). -/
theorem fastApply_held {s : State} {f : FastRecomp} (hfast : s.lay.fast = some f) :
    fastApply s = resumeAll (applyImage { s with lay := { s.lay with fast := none } } f.image) f.descs := by
  simp only [fastApply, hfast]

/-! ### The reload of a stack's micro-program (R214) -/

/-- Stack `k` has its new store and is no longer awaited; a reload that awaits no stack is gone. -/
def reloaded (s : State) (i : Image) (k : Nat) : State :=
  let u := takeStore s i k
  { u with lay := { u.lay with reloads :=
      (u.lay.reloads.map fun r => { r with left := r.left.filter (· ≠ k) }).filter fun r => !r.left.isEmpty } }

/-- The end of the reload's activity, where one runs. -/
def endReload (s : State) : State :=
  match s.maint.running.find? (·.no = 8) with | some a => endActivity s 8 a.scope | none => s

section
variable {s : State} {k : Nat} {i : Image} (htail : s.lay.tail = some i) (hidle : stackIdle s k = true)
  (hawaited : (s.lay.reloads.any fun r => r.left.contains k) = true)
include htail hidle hawaited

/-- An awaited stack whose NBUs are idle takes its store (R214). -/
theorem reloadDone_awaited :
    reloadDone s k =
      if !(reloaded s i k).lay.reloads.isEmpty then nbuKick (reloaded s i k)
      else nbuKick (applyLast (endReload { reloaded s i k with lay := { (reloaded s i k).lay with tail := none } }) i) := by
  unfold reloadDone
  rw [htail]
  exact if_neg (by rw [hidle, hawaited]; decide)

theorem reloadDone_more (hmore : (reloaded s i k).lay.reloads.isEmpty = false) : reloadDone s k = nbuKick (reloaded s i k) :=
  (reloadDone_awaited htail hidle hawaited).trans (if_pos (by rw [hmore]; rfl))

/-- The last stack lets the sections after MICROPROG be applied (R78, log entry 92). -/
theorem reloadDone_last (hlast : (reloaded s i k).lay.reloads.isEmpty = true) :
    reloadDone s k =
      nbuKick (applyLast (endReload { reloaded s i k with lay := { (reloaded s i k).lay with tail := none } }) i) :=
  (reloadDone_awaited htail hidle hawaited).trans (if_neg (by rw [hlast]; decide))

end

/-- Settles O45: each command runs behind its gate, and the lemmas on images, the fast recomposition and the reload say what
it does there. -/
theorem layoutLoadsAndReloads : Obligations.LayoutLoadsAndReloads := by
  refine ⟨?operations, ?quiesce, ?reload⟩
  case operations =>
    intro s img h fin at_ v refuse
    rw [exec_layLoad img h, exec_layProgramSlot img h]
    refine ⟨fun hbusy => ?loadBusy, fun hbusy => ?slotBusy, fun hidle => ?load, fun hidle => ?slot⟩
    case loadBusy => rw [layStart_busy _ hbusy]
    case slotBusy => rw [layStart_busy _ hbusy]
    case load =>
      rw [layStart_idle _ hidle]
      cases hread : stagedRead (v 1) img with
      | error e => exact congrArg fin (layLoad_unreadable hread)
      | ok i =>
        dsimp only
        cases hlate : lateBad (v 1) i with
        | some r => exact congrArg fin (layLoad_lateBad hread hlate)
        | none => exact congrArg fin (layLoad_accepted hread hlate)
    case slot =>
      rw [layStart_idle _ hidle]
      cases hread : stagedRead (v 2) img with
      | error e => exact congrArg fin (layProgram_unreadable hread)
      | ok i => exact congrArg fin (layProgram_readable hread)
  case quiesce =>
    intro s f h hfast k hkept
    rw [exec_fastRecompQuiesceExpiry h hfast]
    exact next_settleWhole_congr (fastApply_held hkept)
  case reload =>
    intro s k i h htail hidle hawaited
    rw [exec_microprogReloadDone k h]
    cases hlast : (reloaded (cleared s) i k).lay.reloads.isEmpty
    case false =>
      have hmore := reloadDone_more (s := cleared s) htail hidle hawaited hlast
      exact next_settleWhole_congr (hmore.trans (if_neg (Bool.eq_false_iff.mp hlast)).symm)
    case true =>
      exact next_settleWhole_congr ((reloadDone_last (s := cleared s) htail hidle hawaited hlast).trans (if_pos hlast).symm)

end Sys2Proof.Machine
end

section
/-! SUPPORT. How shelves are given on, sessions forgotten, buckets and tallies refilled, case by case (R97 to R100, R110, R259,
R312, R314), and the statement they settle. -/
namespace Sys2Proof.Machine

/-! ### Their commands -/

theorem exec_spillComplete {s : State} (hd : Nat) (h : serving s) :
    exec (.spillComplete hd) s = .next (keepFixed s (settleAll (spillDone (cleared s) hd))) := run_act _ h

theorem exec_fetchComplete {s : State} (hd : Nat) (h : serving s) :
    exec (.fetchComplete hd) s = .next (keepFixed s (settleAll (fetchDone (cleared s) hd))) := run_act _ h

theorem exec_sessionFree {s : State} (hd : Nat) (h : serving s) :
    exec (.sessionFree hd) s = .next (keepFixed s (settleAll (freeSession (cleared s) hd))) := run_act _ h

theorem exec_regulatorRefill {s : State} (h : serving s) :
    exec .regulatorRefill s = .next (keepFixed s (settleAll (retryFetches (checkSpill (nbuKick
      ((List.range s.lay.active.regulators.length).foldl refillBucket (cleared s))))))) := run_act _ h

theorem exec_tallyReplenish {s : State} (h : serving s) :
    exec .tallyReplenish s = .next (keepFixed s (settleAll ((ratedTallies s).foldl replenish (cleared s)))) := run_act _ h

theorem exec_hatTallyAdd {s : State} (i n : Nat) (sub : Bool) (h : hostReaches s) :
    exec (.hatTallyAdd i n sub) s = .next (keepFixed s (settleAll (tallyAddWrite (written s) i (n % 2 ^ 48) sub))) :=
  run_hostAct _ h

/-! ### Shelves -/

section
variable {s : State} {hd : Nat}

/-- A session was named while its descriptor was being spilled (R98). -/
def spillWanted (s : State) (hd : Nat) : Bool :=
  match sessOf s hd with | some x => !x.waiting.isEmpty || x.cancelPending || inFlight s hd | none => false

theorem spillDone_spilling (hplace : placeOf s hd = some .spilling) :
    spillDone s hd =
      (let v := giveShelf (setPlace s hd .spilled)
       checkSpill (if spillWanted v hd then startFetch v hd else v)) :=
  if_neg (not_not_intro hplace)

/-- A fetched descriptor takes a free shelf; where none is left it stays where it is (R100). -/
theorem fetchDone_fetching (hplace : placeOf s hd = some .fetching) :
    fetchDone s hd =
      if shelvesUsed s < shelves s then checkSpill (runWaiting (tryCancel (setPlace s hd .shelf) hd) hd) else checkSpill s := by
  refine (if_neg (not_not_intro hplace)).trans ?_
  rw [← ite_not]
  exact if_congr Nat.not_le rfl rfl

/-- The state with a session and its selected sets forgotten, and its serial free where this controller gave it (R89). -/
def forgotten (s : State) (hd : Nat) : State :=
  let z := s.sess.serials
  { s with
    sess := { s.sess with
      table := tdel s.sess.table (hKey hd), serials := if hDev hd = s.device then { z with freed := z.freed ++ [hSerial hd] } else z }
    atn := { s.atn with selected := tfilter (fun k _ => k / 256 ≠ hKey hd) s.atn.selected } }

/-- Nothing of a RETIRING session homed here is left to wait for (R110). -/
theorem freeSession_ready {x : Session} (hses : sessOf s hd = some x) (hhome : x.guest = false) (hstate : x.state = .retiring)
    (hstill : sessMoving s x = false) (hpinned : s.mir.pinned.contains hd = false) (hchunks : x.heldChunks = [])
    (hwait : x.waiting = []) :
    freeSession s hd = giveShelf (freeTrack (forgotten s hd) x) := by
  simp only [freeSession, hses, hhome, hstate, hstill, hpinned, hchunks, hwait]
  rfl

end

/-! ### Regulators and tallies -/

/-- A refill adds the rate up to the burst (R259). -/
theorem refillBucket_eq_min (s : State) (i : Nat) :
    refillBucket s i =
      (let r := s.lay.active.regulators.getD i {}
       if r.rate = 0 then s
       else setBucket s (i / 3) (i % 3) (min ((r.burstKib * 1024 : Nat) : Int) (bucketLevel s (i / 3) (i % 3) + (r.rate : Int)))) := by
  simp only [refillBucket, min_def_lt]

/-- The state with the fraction of a token that a replenishment carries over (R312). -/
def carried (s : State) (i f : Nat) : State :=
  { s with hatch := { s.hatch with fraction := if f % 1000 = 0 then tdel s.hatch.fraction i else tset s.hatch.fraction i (f % 1000) } }

/-- A metered tally takes the whole tokens of its fraction and a thousandth of its rate, up to its cap (R312). -/
theorem replenish_eq (s : State) (i : Nat) :
    replenish s i =
      if tallyMetered s i = false then s
      else
        (let f := tget 0 s.hatch.fraction i + fldAt s Reg.HAT_TALLY.rate [i]
         let cap := fldAt s Reg.HAT_TALLY.cap [i]
         let b := tallyBalance s i
         if f / 1000 = 0 ∨ cap ≤ b then carried s i f
         else tallyRaised (tallyAdd (carried s i f) i (Nat.min (f / 1000) (cap - b))) i) := by
  simp only [replenish, Bool.not_eq_true', Bool.or_eq_true, decide_eq_true_eq]
  rfl

theorem tallyAddWrite_subtract {s : State} {i : Nat} (n : Nat) (hi : i < 4096) :
    tallyAddWrite s i n true = setFldAt s Reg.HAT_TALLY.balance [i] (tallyBalance s i - n) :=
  if_neg (Nat.not_le.mpr hi)

theorem tallyAddWrite_add {s : State} {i n : Nat} (hi : i < 4096) (hn : n ≠ 0) :
    tallyAddWrite s i n false = tallyRaised (tallyAdd s i n) i :=
  (if_neg (Nat.not_le.mpr hi)).trans (if_neg hn)

/-- Settles O44: each command runs behind its gate, and the lemmas on shelves, buckets and tallies say what it does there. -/
theorem shelvesRegulatorsAndTallies : Obligations.ShelvesRegulatorsAndTallies := by
  refine ⟨?shelves, ?refills, ?adds⟩
  case shelves =>
    intro s hd h fin u
    refine ⟨fun hplace => ?spill, fun hplace => ?fetch, fun x hses hhome hstate hstill hpinned hchunks hwait => ?free⟩
    case spill =>
      rw [exec_spillComplete hd h, spillDone_spilling (s := cleared s) hplace]
      rfl
    case fetch =>
      rw [exec_fetchComplete hd h, fetchDone_fetching (s := cleared s) hplace]
      rfl
    case free =>
      rw [exec_sessionFree hd h, freeSession_ready (s := cleared s) hses hhome hstate hstill hpinned hchunks hwait]
      rfl
  case refills =>
    intro s h
    rw [exec_regulatorRefill h, exec_tallyReplenish h,
      List.foldl_ext refillBucket _ (cleared s) fun u i _ => refillBucket_eq_min u i,
      List.foldl_ext replenish _ (cleared s) fun u i _ => replenish_eq u i]
    exact ⟨rfl, rfl⟩
  case adds =>
    intro s i n h hi hn
    rw [exec_hatTallyAdd i n true h, exec_hatTallyAdd i n false h, Nat.mod_eq_of_lt hn]
    refine ⟨?subtract, fun hpos => ?add⟩
    case subtract => rw [tallyAddWrite_subtract n hi]
    case add => rw [tallyAddWrite_add hi hpos]

end Sys2Proof.Machine
end

section
/-! SUPPORT. How a mirror message toward a shadow is taken in its turn, and what the messages do there (R104, R107, R482 to
R487, R494, R495), and the statement they settle. -/
namespace Sys2Proof.Machine

/-! ### Their commands -/

/-- A MIRROR_SYNC that this controller's own mirror did not send is one toward a shadow here (R494). -/
theorem anySync_shadow {s : State} {q : MirrorHdr} (valid : Nat) (bytes : List Nat)
    (hother : ∀ l, mirLink s q.handle (!q.layers) = some l → l.dev ≠ q.src ∨ l.epoch ≠ q.epoch) :
    anySync s q valid bytes = toShadow s q (.sync valid bytes) := by
  unfold anySync
  cases hlink : mirLink s q.handle (!q.layers) with
  | none => rfl
  | some l => exact if_neg (by simpa [imp_iff_not_or] using hother l hlink)

theorem exec_mirrorSync_shadow {s : State} {q : MirrorHdr} (valid : Nat) (bytes : List Nat) (h : serving s)
    (hother : ∀ l, mirLink s q.handle (!q.layers) = some l → l.dev ≠ q.src ∨ l.epoch ≠ q.epoch) :
    exec (.mirrorSync q valid bytes) s = .next (keepFixed s (settleAll (toShadow (cleared s) q (.sync valid bytes)))) := by
  refine (run_act _ h).trans ?_
  rw [anySync_shadow (s := cleared s) valid bytes hother]

/-! ### The order of messages (R485) -/

/-- The role that a message's sender has in the shadow it names. -/
def roleToward (s : State) (q : MirrorHdr) : Option ShadowRole := (shadowOf s q.handle).bind fun d => roleOf d q.src (!q.layers)

/-- The state with a message kept until its turn, in the role of its sender. -/
def keptEarly (s : State) (q : MirrorHdr) (b : MirrorBody) : State :=
  match shadowOf s q.handle with
  | some d => setShadow s (modRole d q.src (!q.layers) fun r => { r with early := r.early ++ [(q, b)] })
  | none => s

section
variable {s : State} {q : MirrorHdr} (b : MirrorBody)

theorem toShadow_noRole (hrole : roleToward (promoteIfLost s q.handle) q = none) :
    toShadow s q b =
      mirAck (promoteIfLost s q.handle) q (if (sessOf (promoteIfLost s q.handle) q.handle).isSome then .staleRole else .badHandle) := by
  unfold roleToward at hrole
  simp only [toShadow, hrole]

variable {r : ShadowRole} (hrole : roleToward (promoteIfLost s q.handle) q = some r)
include hrole

/-- A message of a known role is judged by its epoch, then by its number. -/
theorem toShadow_role :
    toShadow s q b =
      (let u := promoteIfLost s q.handle
       if q.epoch ≠ r.epoch then mirAck u q .staleRole
       else if q.seq = r.nextSeq then runMirror (r.early.length + 1) u q b
       else if serialLt 32 q.seq r.nextSeq then mirAck u q .ok
       else keptEarly u q b) := by
  unfold roleToward at hrole
  simp only [toShadow, hrole]
  rfl

theorem toShadow_otherEpoch (hepoch : q.epoch ≠ r.epoch) : toShadow s q b = mirAck (promoteIfLost s q.handle) q .staleRole :=
  (toShadow_role b hrole).trans (if_pos hepoch)

variable (hepoch : q.epoch = r.epoch)
include hepoch

theorem toShadow_next (hseq : q.seq = r.nextSeq) :
    toShadow s q b = runMirror (r.early.length + 1) (promoteIfLost s q.handle) q b :=
  (toShadow_role b hrole).trans ((if_neg (not_not_intro hepoch)).trans (if_pos hseq))

variable (hseq : q.seq ≠ r.nextSeq)
include hseq

/-- A number already passed is acknowledged without an effect (log entry 83). -/
theorem toShadow_passed (hpassed : serialLt 32 q.seq r.nextSeq = true) : toShadow s q b = mirAck (promoteIfLost s q.handle) q .ok := by
  rw [toShadow_role b hrole]
  simp only [hepoch, hseq, hpassed, ne_eq, not_true_eq_false, if_false, if_true]

/-- A later number waits for its turn. -/
theorem toShadow_early {d : MirShadow} (hshadow : shadowOf (promoteIfLost s q.handle) q.handle = some d)
    (hlater : serialLt 32 q.seq r.nextSeq = false) :
    toShadow s q b =
      setShadow (promoteIfLost s q.handle) (modRole d q.src (!q.layers) fun r => { r with early := r.early ++ [(q, b)] }) := by
  rw [toShadow_role b hrole]
  simp only [keptEarly, hepoch, hseq, hlater, hshadow, ne_eq, not_true_eq_false, Bool.false_eq_true, if_false]

end

/-! ### The effects -/

section
variable {s : State} {q : MirrorHdr} {d : MirShadow} (hshadow : shadowOf s q.handle = some d)
include hshadow

/-- A note is kept with those of its step's predecessor (R107). -/
theorem processMirror_note (token index : Nat) (hold : List Nat) :
    processMirror s q (.note token index hold) = (setShadow s { d with
      notes := (d.notes.filter fun m => m.step ≠ q.step && decide (q.step ≤ m.step + 1)) ++
        [{ step := q.step, token := token, index := index, hold := hold, ref := q.ref, idx := q.aux }]
      desc := { d.desc with fixed := true, pendingToken := token } }, .ok) := by
  simp only [processMirror, takeNote, hshadow]

/-- A handover promotes a shadow that is SYNCED (R495). -/
theorem processMirror_handover {r : ShadowRole} (hrole : homeRole d = some r) :
    processMirror s q .handover = if r.synced then (promoteShadow s q.handle false, .ok) else (s, .busyMaint) := by
  simp only [processMirror, hshadow, Option.bind_some, hrole]

end

/-- A copy that the store has no room for commits those of earlier steps all the same (R487). -/
theorem processMirror_prep_full {s : State} {q : MirrorHdr} {p : PrepCopy}
    (hfull : let u := commitCopies s q.handle q.src (!q.layers) fun y => serialLt 32 y.step q.step
             storeUnits u < storeUsed u + pagesOf (prepBytes p)) :
    processMirror s q (.prep p) = (commitCopies s q.handle q.src (!q.layers) fun y => serialLt 32 y.step q.step, .noCapacity) :=
  if_pos hfull

/-- Settles O32: each command takes its message toward the shadow, and the lemmas on the order of messages and on their effects
say what it does there. -/
theorem messagesTowardAShadow : Obligations.MessagesTowardAShadow := by
  refine ⟨?order, ?effects⟩
  case order =>
    intro s q b c h hcommand u role
    have hexec : exec c s = .next (keepFixed s (settleAll (toShadow (cleared s) q b))) := by
      rcases hcommand with ⟨_, rfl, rfl⟩ | ⟨_, _, _, rfl, rfl⟩ | ⟨_, rfl, rfl⟩ | ⟨rfl, rfl⟩ | ⟨_, rfl, rfl⟩ | ⟨rfl, rfl⟩ |
        ⟨valid, bytes, rfl, rfl, hother⟩
      iterate 6 exact run_act _ h
      exact exec_mirrorSync_shadow valid bytes h hother
    rw [hexec]
    refine ⟨fun hnone => ?noRole, fun r hrole =>
      ⟨fun hepoch => ?stale, fun hepoch hseq hearly => ?next, fun hepoch hseq hpassed => ?passed, fun d hshadow hepoch hseq hlater => ?early⟩⟩
    case noRole => rw [toShadow_noRole b hnone]
    case stale => rw [toShadow_otherEpoch b hrole hepoch]
    case next =>
      rw [toShadow_next b hrole hepoch hseq, hearly]
      rfl
    case passed => rw [toShadow_passed b hrole hepoch hseq hpassed]
    case early => rw [toShadow_early b hrole hepoch hseq hshadow hlater]
  case effects =>
    intro s q d hshadow
    exact ⟨processMirror_note hshadow, fun r hrole => processMirror_handover hshadow hrole, fun p hfull => processMirror_prep_full hfull⟩

end Sys2Proof.Machine
end

section
/-! SUPPORT. How mirrors open, are acknowledged, refused and dropped, how losses are reported and claimed, and how shadows are
promoted and homes demoted, case by case (R101, R102, R106, R485, R488 to R494), and the statement they settle. -/
namespace Sys2Proof.Machine

/-! ### Their commands -/

theorem exec_mirrorOpen {s : State} (q : MirrorHdr) (d : SessDesc) (toks : List Nat) (h : serving s) :
    exec (.mirrorOpen q d toks) s = .next (keepFixed s (settleAll (takeOpen (cleared s) q d toks))) := run_act _ h

theorem exec_mirrorAck {s : State} (q : MirrorHdr) (h : serving s) :
    exec (.mirrorAck q) s = .next (keepFixed s (settleAll (takeAck (cleared s) q))) := run_act _ h

theorem exec_mirrorDropped {s : State} (hd : Nat) (home : Bool) (cause : Nat) (h : serving s) :
    exec (.mirrorDropped hd home cause) s = .next (keepFixed s (settleAll (dropMirror (cleared s) hd home cause))) := run_act _ h

theorem exec_prepResendExpiry {s : State} (hd : Nat) (home : Bool) (h : serving s) :
    exec (.prepResendExpiry hd home) s = .next (keepFixed s (settleAll (prepResend (cleared s) hd home))) := run_act _ h

theorem exec_lostReport {s : State} (lost obs link : Nat) (h : serving s) :
    exec (.lostReport lost obs link) s = .next (keepFixed s (settleAll (lostReport (cleared s) lost obs link))) := run_act _ h

theorem exec_roleClaim {s : State} (src lost epoch first last m i : Nat) (h : serving s) :
    exec (.roleClaim src lost epoch first last m i) s =
      .next (keepFixed s (settleAll (takeClaim (cleared s) src lost epoch first last m i))) := run_act _ h

theorem exec_shadowPromote {s : State} {hd : Nat} (h : serving s) (hnext : nextPromotion s = some hd) :
    exec .shadowPromote s = .next (keepFixed s (settleAll (promoteIfLost (cleared s) hd))) := by
  refine (run_act _ h).trans ?_
  rw [show nextPromotion (cleared s) = some hd from hnext]

theorem exec_sessionDemoted {s : State} (hd e : Nat) (h : serving s) :
    exec (.sessionDemoted hd e) s = .next (keepFixed s (settleAll (demote (cleared s) hd (some e)))) := run_act _ h

/-! ### Opening -/

/-- The shadow that a MIRROR_OPEN makes (R101, R102): the descriptor it carries, the role it asks for and, for a token fixed
already, its note. -/
def openedShadow (s : State) (q : MirrorHdr) (d : SessDesc) (toks : List Nat) : MirShadow :=
  { desc := { sessOfDesc d with shadowOf := d.state, state := .shadow, inTokens := toks, tTouch := s.timebase, guest := false }
    roles := [{ home := !q.layers, sender := q.src, first := q.first, lastLayer := q.lastLayer, epoch := q.epoch, m := bitsOf q.aux 0 8,
                i := bitsOf q.aux 8 8, synced := !q.sync }]
    notes := if d.fixed then [{ step := d.step, token := d.pendingToken, index := d.step, hold := d.holdBytes, ref := 0, idx := 0 }] else [] }

section
variable {s : State} {q : MirrorHdr} (d : SessDesc) (toks : List Nat)

theorem takeOpen_noContext (hctx : tget? s.contexts (hCtx q.handle) = none) : takeOpen s q d toks = mirAck s q .protection := by
  simp only [takeOpen, hctx]

/-- A first mirror message for a session makes its shadow, where a shelf is left for it (R96, R99). -/
theorem takeOpen_first {c : Ctx} (hctx : tget? s.contexts (hCtx q.handle) = some c) (htorn : c.torn = none)
    (hshadow : shadowOf s q.handle = none) :
    takeOpen s q d toks =
      if shelfForShadow s then checkSpill (mirAck (setShadow s (openedShadow s q d toks)) q .ok) else mirAck s q .noCapacity := by
  simp only [takeOpen, hctx, htorn, hshadow, Option.isSome_none, Bool.false_eq_true, if_false, Bool.not_eq_true']
  cases shelfForShadow s <;> rfl

end

/-! ### Acknowledgements -/

/-- A link with nothing awaited any longer for one of its messages. -/
def unawaited (l : MirLink) (ref : Nat) : MirLink :=
  { l with waits := l.waits.filter fun z => z.1 ≠ ref, copies := l.copies.filter fun c => c.seq ≠ ref }

/-- A link with the copy that one of its messages carried marked as refused. -/
def refusedCopy (l : MirLink) (ref : Nat) : MirLink :=
  { l with copies := l.copies.map fun c => if c.seq = ref then { c with refused := true } else c }

theorem ackStale_eq_false {q : MirrorHdr} {l : MirLink} (hdev : l.dev = q.src) (hepoch : l.epoch = q.epoch) :
    (decide (l.dev ≠ q.src) || decide (l.epoch ≠ q.epoch)) = false := by simp [hdev, hepoch]

section
variable {s : State} {q : MirrorHdr} {l : MirLink} {w : Nat × MirWait} (hlink : mirLink s q.handle (!q.layers) = some l)
  (hwait : l.waits.find? (·.1 = q.ref) = some w) (hdev : l.dev = q.src) (hepoch : l.epoch = q.epoch)
include hlink hwait hdev hepoch

theorem takeAck_state (hok : q.status = .ok) (hstate : w.2 = .state) : takeAck s q = setLink s (unawaited l q.ref) := by
  simp only [takeAck, hlink, hwait, ackStale_eq_false hdev hepoch, hok, hstate]
  rfl

/-- The chunk and the seal that waited for a note go on (R107). -/
theorem takeAck_note {step : Nat} (hok : q.status = .ok) (hnote : w.2 = .note step) :
    takeAck s q = noteAcked (setLink s (unawaited l q.ref)) q.handle step := by
  simp only [takeAck, hlink, hwait, ackStale_eq_false hdev hepoch, hok, hnote]
  rfl

/-- A mirror that has retired is closed (R110). -/
theorem takeAck_retire (hok : q.status = .ok) (hretire : w.2 = .retire) :
    takeAck s q = dropLink (setLink s (unawaited l q.ref)) q.handle (!q.layers) := by
  simp only [takeAck, hlink, hwait, ackStale_eq_false hdev hepoch, hok, hretire]
  rfl

/-- A copy refused for room stays awaited, marked as refused (R488). -/
theorem takeAck_copyRefused {ref att : Nat} (hfull : q.status = .noCapacity) (hprep : w.2 = .prep ref att) :
    takeAck s q = setLink s (refusedCopy l q.ref) := by
  simp only [takeAck, hlink, hwait, ackStale_eq_false hdev hepoch, hfull, hprep]
  rfl

end

/-! ### Dropping and sending again -/

/-- The state in which a session's mirror is given up, its loss reported (R494). -/
def mirrorLess (s : State) (hd : Nat) (home : Bool) (cause : Nat) : State :=
  let u := dropLink (report s 0x1606 (hSerial hd) 0 [hd, cause]) hd home
  if home then modSess u hd fun x => { x with mirrorDev := 0x7FF } else u

section
variable {s : State} {hd : Nat} {home : Bool} {l : MirLink} (hlink : mirLink s hd home = some l)
include hlink

theorem dropMirror_there (cause : Nat) :
    dropMirror s hd home cause = replaceMirror (releaseMirror (mirrorLess s hd home cause) hd home) hd home := by
  simp only [dropMirror, hlink]
  rfl

/-- A copy that has waited prep_wait_us since it was first sent costs its mirror (R488). -/
theorem prepResend_overdue (hlate : ∃ c ∈ l.copies, copyOverdue s hd l c = true) :
    prepResend s hd home = dropMirror s hd home Status.noCapacity.code := by
  simp only [prepResend, hlink, List.any_eq_true.mpr hlate, if_true]

theorem prepResend_inTime (htime : ∀ c ∈ l.copies, copyOverdue s hd l c = false) :
    prepResend s hd home = (l.copies.filter (·.refused)).foldl (fun s c => resendCopy s hd home c) s := by
  simp only [prepResend, hlink, List.any_eq_false.mpr fun c hc => Bool.eq_false_iff.mp (htime c hc), Bool.false_eq_true, if_false]

end

/-! ### Losses and claims -/

/-- The loss reports that a second report may confirm: those within witness_us (R490). -/
def freshReports (s : State) : List LossReport :=
  s.mir.reports.filter fun r => decide (s.timebase ≤ r.at_ + fld s Reg.CKP_MIR_CFG.witness_us * 1000)

theorem lostReport_own {s : State} {lost : Nat} (obs link : Nat) (hown : lost = s.device) :
    lostReport s lost obs link = report s 0x1603 obs 0 [obs] := if_pos hown

/-- A report of a device named here waits for a second from another observer and another bay of the lost device, or is that
second one (R490). -/
theorem lostReport_named {s : State} {lost : Nat} (obs link : Nat) (hother : lost ≠ s.device) (htable : (lostDevices s).contains lost = false)
    (hone : s.mir.oneByOne.contains lost = false) (hnamed : (rolesOf s 1 ++ rolesOf s 2).any (·.device = lost) = true) :
    lostReport s lost obs link =
      match (freshReports s).find? fun r => r.lost = lost && r.observer ≠ obs && r.link / 8 ≠ link / 8 with
      | some r => enterLost { s with mir := { s.mir with reports := (freshReports s).filter (·.lost ≠ lost) } } lost r.observer obs
      | none => { s with mir := { s.mir with reports := freshReports s ++ [{ lost := lost, observer := obs, link := link, at_ := s.timebase }] } } := by
  simp only [lostReport, hother, htable, hone, hnamed, if_false, Bool.or_self, Bool.false_eq_true, Bool.not_true, Bool.false_and]
  rfl

/-- A claim for another device's layers is only kept and reported. -/
theorem takeClaim_other {s : State} {lost : Nat} (src epoch first last m i : Nat) (hother : lost ≠ s.device) :
    takeClaim s src lost epoch first last m i =
      report { s with mir := { s.mir with claims := s.mir.claims ++
        [{ claimer := src, lost := lost, epoch := epoch, first := first, lastLayer := last, m := m, i := i }] } } 0x1605 lost 0 [lost, first, last, m, i] :=
  if_pos (by rwa [report_device])

/-! ### Promotion and demotion -/

/-- A shadow whose home is in the promotion table is promoted without a further report (R491). -/
theorem promoteIfLost_table {s : State} {hd : Nat} {d : MirShadow} {r : ShadowRole} (hshadow : shadowOf s hd = some d)
    (hlost : homeLost s d = true) (hrole : homeRole d = some r) (hone : s.mir.oneByOne.contains r.sender = false) :
    promoteIfLost s hd = promoteShadow s hd true := by
  simp only [promoteIfLost, hshadow, hlost, hrole, hone, Option.elim_some, Bool.false_eq_true, if_true, if_false]

theorem demote_newer {s : State} {hd : Nat} {x : Session} (e : Nat) (hses : sessOf s hd = some x) :
    demote s hd (some e) = leaveHome s hd .staleRole e fun s => report s 0x1604 (hSerial hd) e [hd, e] := by
  simp only [demote, hses, Option.getD_some]

/-- Settles O33: each command runs behind the service gate, and the lemmas on mirrors, losses, claims and promotions say what it
does there. -/
theorem mirrorsAndPromotion : Obligations.MirrorsAndPromotion := by
  refine ⟨?opens, ?acks, ?drops, ?losses, ?claims, ?promotes, ?demotes⟩
  case opens =>
    intro s q d toks c h
    rw [exec_mirrorOpen q d toks h]
    refine ⟨fun hctx => ?noContext, fun hctx htorn hshadow => ?first⟩
    case noContext => rw [takeOpen_noContext (s := cleared s) d toks hctx]
    case first => exact next_settleAll_congr (takeOpen_first (s := cleared s) d toks hctx htorn hshadow)
  case acks =>
    intro s q l w h hlink hwait hdev hepoch u
    rw [exec_mirrorAck q h]
    refine ⟨fun hok hstate => ?state, fun step hok hnote => ?note, fun hok hretire => ?retire, fun ref att hfull hprep => ?refused⟩
    case state => exact next_settleAll_congr (takeAck_state (s := cleared s) hlink hwait hdev hepoch hok hstate)
    case note => exact next_settleAll_congr (takeAck_note (s := cleared s) hlink hwait hdev hepoch hok hnote)
    case retire => exact next_settleAll_congr (takeAck_retire (s := cleared s) hlink hwait hdev hepoch hok hretire)
    case refused => exact next_settleAll_congr (takeAck_copyRefused (s := cleared s) hlink hwait hdev hepoch hfull hprep)
  case drops =>
    intro s hd cause home l h hlink u v
    have hdrop := dropMirror_there (s := cleared s) hlink
    rw [exec_mirrorDropped hd home cause h, exec_prepResendExpiry hd home h]
    refine ⟨?drop, fun hlate => ?overdue, fun htime => ?again⟩
    case drop =>
      rw [hdrop cause]
      rfl
    case overdue =>
      obtain ⟨c, hc, hsent, hcopy, hsince⟩ := hlate
      have hover : copyOverdue (cleared s) hd l c = true :=
        Bool.and_eq_true_iff.mpr ⟨Bool.and_eq_true_iff.mpr ⟨hsent, hcopy⟩, decide_eq_true hsince⟩
      rw [prepResend_overdue (s := cleared s) hlink ⟨c, hc, hover⟩, hdrop]
      rfl
    case again =>
      refine next_settleAll_congr (prepResend_inTime (s := cleared s) hlink fun c hc => Bool.eq_false_iff.mpr fun hover => ?_)
      obtain ⟨hwaits, hsince⟩ := Bool.and_eq_true_iff.mp hover
      obtain ⟨hsent, hcopy⟩ := Bool.and_eq_true_iff.mp hwaits
      exact Nat.not_le.mpr (htime c hc hsent hcopy) (of_decide_eq_true hsince)
  case losses =>
    intro s lost obs link h
    rw [exec_lostReport lost obs link h]
    refine ⟨fun hown => ?own, fun hother htable hone hnamed => ?named⟩
    case own => rw [lostReport_own (s := cleared s) obs link hown]
    case named => exact next_settleAll_congr (lostReport_named (s := cleared s) obs link hother htable hone hnamed)
  case claims =>
    intro s src lost epoch first last m i h hother
    rw [exec_roleClaim src lost epoch first last m i h, takeClaim_other (s := cleared s) src epoch first last m i hother]
  case promotes =>
    intro s hd d r h hnext hshadow hlost hrole hone
    rw [exec_shadowPromote h hnext, promoteIfLost_table (s := cleared s) hshadow hlost hrole hone]
  case demotes =>
    intro s hd e x h hses _
    rw [exec_sessionDemoted hd e h, demote_newer (s := cleared s) e hses]

end Sys2Proof.Machine
end

section
/-! SUPPORT. The verbs of contexts, for a command that passes the checks of its row (R158, R159, R287, R517, R518), and the
statement they settle. -/
namespace Sys2Proof.Machine

/-! ### Their commands -/

theorem exec_ctxCreate {s : State} {sub : Sub} (part rsv : Nat) (block rot ssm layers blob : List Nat) (h : accepts 1 s sub) :
    exec (.ctxCreate sub part rsv block rot ssm layers blob) s =
      .next (keepFixed s (settleAll (doCreate (taken s sub) sub part rsv block rot ssm layers blob))) :=
  run_act_verb _ h

theorem exec_ctxDestroy {s : State} {sub : Sub} (h : accepts 1 s sub) (hctx : ctxBad (taken s sub) sub.context = none) :
    exec (.ctxDestroy sub 0) s =
      .next (keepFixed s (settleAll (teardown (taken s sub) sub.context { trigger := 2, unit := 0, code := 0 } (some sub)))) := by
  refine (run_act_verb _ h).trans ?_
  simp only [hctx, ne_eq, not_true_eq_false, if_false]

theorem exec_contextSlotFree {s : State} (ctx : Nat) (h : serving s) :
    exec (.contextSlotFree ctx) s = .next (keepFixed s (freeContext (cleared s) ctx)) := run_whenUp _ h

/-! ### CTX_CREATE -/

/-- A partition field that names a partition: its number, or 0xFF, which selects partition 0 (R517). -/
def NamesPartition (part pn : Nat) : Prop := part ≤ 15 ∧ pn = part ∨ part = 0xFF ∧ pn = 0

theorem NamesPartition.eq_ite {part pn : Nat} (h : NamesPartition part pn) : (if part = 0xFF then 0 else part) = pn := by
  rcases h with ⟨hnumber, rfl⟩ | ⟨rfl, rfl⟩
  · exact if_neg (by omega)
  · rfl

theorem NamesPartition.inRange {part pn : Nat} (h : NamesPartition part pn) : (decide (15 < part) && decide (part ≠ 0xFF)) = false := by
  rcases h with ⟨hnumber, _⟩ | ⟨rfl, _⟩
  · rw [decide_eq_false (Nat.not_lt.mpr hnumber), Bool.false_and]
  · rfl

section
variable {s : State} {sub : Sub} {part pn : Nat} {block rot ssm layers blob : List Nat} {p : Params}
  (hpart : NamesPartition part pn) (hblob : blobOk blob = true) (hparams : parseParams s.attached block rot ssm layers = some p)
  (hfree : tget? s.contexts sub.context = none)
include hpart hblob hparams hfree

/-- The blob's key does not unwrap: the command ends with PROTECTION, and a failed unwrap is counted (R518). -/
theorem doCreate_keyRefused {d : Nat} (hkey : unwrapKey s blob = .error d) :
    doCreate s sub part 0 block rot ssm layers blob =
      complete (if d = 0x11 then bump s Reg.SEC_COUNT.unwrap_fail else s) sub .protection d [] := by
  simp only [doCreate, hpart.inRange, hblob, hparams, hfree, hkey, ne_eq, not_true_eq_false, decide_false, Bool.or_self, Bool.not_true,
    Option.isSome_none, Bool.false_eq_true, if_false]
  rfl

/-- With a place in the partition, in the step space and in the slab's span, the context is written under its key (R518). -/
theorem doCreate_written {key : List Nat} (hkey : unwrapKey s blob = .ok key) (henable : (partEntry s pn).enable = true)
    (hroom : ctxsIn s pn < (partEntry s pn).maxContexts) (hrecord : recordKib p ≤ stepSharedFree s)
    (hspan : (p.layers.any (·.ssm) && decide (1024 < slabSpan (slabSize p) s.lay.active.attic.slabKib)) = false) :
    doCreate s sub part 0 block rot ssm layers blob =
      (let c : Ctx := { partition := pn, params := p, keyId := leAt blob 4 4, dkIndex := leAt blob 1 1, key := key }
       complete (setFldAt (setFldAt (setFldAt { s with contexts := tset s.contexts sub.context c }
         Reg.HAT_CTX.max_sessions [sub.context] 0) Reg.HAT_CTX.max_c0 [sub.context] 0) Reg.HAT_CTX.class_floor [sub.context] 0)
         sub .ok 0 [c.keyId]) := by
  simp only [doCreate, hpart.inRange, hpart.eq_ite, hblob, hparams, hfree, hkey, henable, Nat.not_le.mpr hroom, Nat.not_lt.mpr hrecord, hspan,
    ne_eq, not_true_eq_false, decide_false, Bool.or_self, Bool.not_true, Option.isSome_none, Bool.false_eq_true, if_false]

end

/-- Settles O16: each verb runs behind its gate, where a CTX_CREATE comes to what the unwrap of its blob gives. -/
theorem contextVerbs : Obligations.ContextVerbs := by
  refine ⟨?creates, fun s sub h hctx => exec_ctxDestroy h hctx, fun s ctx h => exec_contextSlotFree ctx h⟩
  case creates =>
    intro s sub part pn block rot ssm layers blob p h hpart hblob hparams hfree henable hroom hrecord hspan
    rw [exec_ctxCreate part 0 block rot ssm layers blob h]
    cases hkey : unwrapKey s blob with
    | error d => exact next_settleAll_congr (doCreate_keyRefused (s := taken s sub) hpart hblob hparams hfree hkey)
    | ok key => exact next_settleAll_congr (doCreate_written (s := taken s sub) hpart hblob hparams hfree hkey henable hroom hrecord hspan)

end Sys2Proof.Machine
end

section
/-! SUPPORT. How an ATN_QKV message arrives, is checked, and is taken, held, answered or dropped (R166, R167, R170, R629), and
the statement it settles. -/
namespace Sys2Proof.Machine

/-! ### Their commands -/

theorem exec_atnQkv {s : State} (half : Nat) (q : AtnQkv) (h : serving s) :
    exec (.atnQkv half q) s = .next (keepFixed s (settleAll (takeQkv (promoteIfLost (cleared s) q.handle) half q))) := run_act _ h

theorem exec_atnQkvEarlyHoldExpiry {s : State} (id : Nat) (h : serving s) :
    exec (.atnQkvEarlyHoldExpiry id) s = .next (keepFixed s (settleAll (expireQkv (cleared s) id))) := run_act _ h

/-! ### The checks (R166) -/

section
variable {s : State} {q : AtnQkv} (late : Bool)

theorem messageOk_eq_false (p : Params) (hheader : headerOk q = false) : messageOk p q = false := by
  simp only [messageOk, hheader, Bool.false_and]

/-- A header that breaks the layout is found with or without a parameter block. -/
theorem checkQkv_badHeader (hheader : headerOk q = false) : checkQkv s q late = .answer .versionMismatch 0x7 := by
  cases hctx : tget? s.contexts (hCtx q.handle) with
  | none => simp only [checkQkv, hctx, hheader, Bool.not_false, if_true]
  | some c => simp only [checkQkv, hctx, messageOk_eq_false c.params hheader, Bool.not_false, if_true]

variable {c : Ctx} (hctx : tget? s.contexts (hCtx q.handle) = some c) (hmessage : messageOk c.params q = true)
include hctx hmessage

theorem checkQkv_noSession (hsession : handleCurrent s q.handle = false) : checkQkv s q late = .answer .badHandle 0x1 := by
  simp only [checkQkv, hctx, hmessage, hsession, Bool.not_true, Bool.not_false, Bool.false_eq_true, if_false, if_true]

/-- A message ahead of its part waits for the descriptor, as long as its hold lasts (R629). -/
theorem checkQkv_noPart (hsession : handleCurrent s q.handle = true) (htorn : c.torn = none) (hpart : partOf s q.stepRef = none) :
    checkQkv s q late = if late then .answer .badHandle 0x6 else .hold .descriptor := by
  simp only [checkQkv, hctx, hmessage, hsession, htorn, hpart, Option.elim_none, Option.elim_some, Option.isSome_none, Bool.not_true,
    Bool.false_eq_true, if_false]

end

/-! ### What a verdict does -/

/-- The state with a message taken by entry `i` of its part: its coverage counted, the layer's last arrival and its objects
kept (R168, R297). -/
def takenMessage (s : State) (w : AtnWork) (i : Nat) : State :=
  let q := w.msg
  let t := modPart (coverMsg s q.handle q.stepRef q) q.stepRef fun p =>
    { p with layerIn := tset p.layerIn q.layer (Nat.max w.arrival (tget 0 p.layerIn q.layer)) }
  let t := modWork t w.id fun w => { w with hold := .no }
  match sessOf t q.handle, paramsOf t (hCtx q.handle) with
  | some x, some p => pinObjs t q.stepRef i x.cls (stageOne t x p q)
  | _, _ => t

section
variable {s : State} {w : AtnWork} {late : Bool}

theorem decideQkv_take {i : Nat} {t : State} (hcheck : checkQkv s w.msg late = .take i t) :
    decideQkv s w late = advanceWork (takenMessage t w i) w.id := by
  simp only [decideQkv, hcheck]
  rfl

theorem decideQkv_hold {r : AtnHold} (hcheck : checkQkv s w.msg late = .hold r) :
    decideQkv s w late = modWork s w.id fun w => { w with hold := r } := by
  simp only [decideQkv, hcheck]

theorem decideQkv_answer {st : Status} {d : Nat} (hcheck : checkQkv s w.msg late = .answer st d) :
    decideQkv s w late = refuseWork s w st d := by
  simp only [decideQkv, hcheck]

theorem decideQkv_stale (hcheck : checkQkv s w.msg late = .stale) : decideQkv s w late = staleWork s w := by
  simp only [decideQkv, hcheck]

/-- A hold that a time limits is over: the message is decided again, as late (R629). -/
theorem expireQkv_held (hwork : workOf s w.id = some w) (hhold : w.hold = .descriptor ∨ w.hold = .seal) :
    expireQkv s w.id = decideQkv s w true := by
  have htimed : (decide (w.hold = .descriptor) || decide (w.hold = .seal)) = true := by simpa using hhold
  simp only [expireQkv, hwork, htimed, if_true]

end

/-! ### Arrival (R170) -/

/-- The work that a message enters the list with. -/
def arrivingWork (s : State) (half : Nat) (q : AtnQkv) : AtnWork :=
  { id := s.atn.nextWork, msg := q, arrival := s.timebase, hold := .descriptor, half := half }

/-- The state with that work in the list and the message's source noted in its part. -/
def withArrival (s : State) (half : Nat) (q : AtnQkv) : State :=
  modPart { s with atn := { s.atn with work := s.atn.work ++ [arrivingWork s half q], nextWork := s.atn.nextWork + 1 } } q.stepRef fun p =>
    { p with senders := if p.senders.contains q.src then p.senders else p.senders ++ [q.src] }

theorem takeQkv_decides (s : State) (half : Nat) (q : AtnQkv) :
    takeQkv s half q = decideQkv (withArrival s half q) (arrivingWork s half q) false := rfl

/-- Settles O21: both commands come to the decision on a message, whose verdict the lemmas on the checks give and whose effect the
lemmas on the decision. -/
theorem attentionMessages : Obligations.AttentionMessages := by
  refine ⟨?arrives, fun s q late => checkQkv_badHeader late, fun s q late c => checkQkv_noSession late, fun s q late c => checkQkv_noPart late,
    ?expires⟩
  case arrives =>
    intro s half q h u w v
    rw [exec_atnQkv half q h, takeQkv_decides]
    exact ⟨fun i t hcheck => next_settleAll_congr (decideQkv_take (s := v) (w := w) hcheck),
      fun r hcheck => next_settleAll_congr (decideQkv_hold (s := v) (w := w) hcheck),
      fun st d hcheck => next_settleAll_congr (decideQkv_answer (s := v) (w := w) hcheck),
      fun hcheck => next_settleAll_congr (decideQkv_stale (s := v) (w := w) hcheck)⟩
  case expires =>
    intro s w st d h hwork hhold hcheck
    rw [exec_atnQkvEarlyHoldExpiry w.id h, expireQkv_held (s := cleared s) hwork hhold, decideQkv_answer hcheck]

end Sys2Proof.Machine
end

section
/-! SUPPORT. How a host job starts by a write of CMD_ENTRY, and how jobs of the host and of a front end end (R206, R207, R209,
R210, R214, R223 to R225), and the statement they settle. -/
namespace Sys2Proof.Machine

/-! ### Their commands -/

theorem exec_cmdEntryWrite {s : State} (nbu t v : Nat) (h : hostReaches s) :
    exec (.cmdEntryWrite nbu t v) s = .next (keepFixed s (writeArea (written s) nbu t 0 v true)) := run_hostAccess _ h

theorem exec_nbuJobEnd_program {s : State} (nbu t ran cycles : Nat) (h : serving s) :
    exec (.nbuJobEnd nbu t ran cycles none) s = .next (keepFixed s (settleAll (endJob (cleared s) nbu t ran cycles .program))) :=
  run_act _ h

theorem exec_nbuJobEnd_bankError {s : State} (nbu t ran cycles page : Nat) (h : serving s) :
    exec (.nbuJobEnd nbu t ran cycles (some page)) s =
      .next (keepFixed s (settleAll (endJob (cleared s) nbu t ran cycles (.ecc page)))) :=
  run_act _ h

theorem exec_cycleLimit {s : State} (nbu t ran cycles : Nat) (h : serving s) :
    exec (.cycleLimit nbu t ran cycles) s = .next (keepFixed s (settleAll (endJob (cleared s) nbu t ran cycles .limit))) := run_act _ h

/-- An abort reaches the job only with host jobs allowed and the unit present (R210). -/
theorem exec_cmdStatusAbort {s : State} {nbu : Nat} (t ran cycles : Nat) (h : hostReaches s)
    (hallowed : flag s Reg.NBU_CTL.host_jobs = true) (hpresent : nbuPresent s nbu = true) :
    exec (.cmdStatusAbort nbu t ran cycles) s = .next (keepFixed s (settleAll (endJob (written s) nbu t ran cycles .abort))) := by
  have hopen : (flag (written s) Reg.NBU_CTL.host_jobs && nbuPresent (written s) nbu) = true := Bool.and_eq_true_iff.mpr ⟨hallowed, hpresent⟩
  refine (run_hostAct _ h).trans (next_settleAll_congr ?_)
  simp only [hopen, if_true]

/-! ### Starting (R206, R207, R214) -/

/-- A thread with the fields that a write of CMD_ENTRY carries (R206). -/
def withEntry (x : NbuThread) (v : Nat) : NbuThread :=
  { x with entry := bitsOf v 0 3, tag := bitsOf v 8 8, ctx := bitsOf v 16 10, nearBase := bitsOf v 32 16, nearLen := bitsOf v 48 16 }

/-- A thread of the host whose status is clear (R207). -/
def withClearStatus (x : NbuThread) : NbuThread :=
  { x with inexact := false, poison := false, code := 0, pc := 0, detail := 0, cycles := 0, issuer := Issuer.host }

section
variable {s : State} {nbu t v : Nat} (hallowed : flag s Reg.NBU_CTL.host_jobs = true) (hpresent : nbuPresent s nbu = true)
include hallowed hpresent

theorem writeArea_entry_busy (hbusy : (threadOf s nbu t).busy = true) :
    writeArea s nbu t 0 v true = setThread s nbu t { threadOf s nbu t with collide := true } := by
  simp only [writeArea, hallowed, hpresent, hbusy, Bool.not_true, Bool.or_self, Bool.false_eq_true, if_false, if_true]

theorem writeArea_entry_idle (hidle : (threadOf s nbu t).busy = false) :
    writeArea s nbu t 0 v true = hostStart s nbu t (withEntry (threadOf s nbu t) v) := by
  simp only [writeArea, hallowed, hpresent, hidle, Bool.not_true, Bool.or_self, Bool.false_eq_true, if_false, if_true]
  rfl

end

section
variable {s : State} {nbu t : Nat} {x : NbuThread}

theorem storeFor_setThread (y : NbuThread) (nbu' entry : Nat) : storeFor (setThread s nbu t y) nbu' entry = storeFor s nbu' entry := rfl

/-- A near section that is empty or passes the end of the near memory ends the job with code 0x04. -/
theorem hostStart_badNear (hnear : x.nearLen = 0 ∨ 2048 < x.nearBase + x.nearLen) :
    hostStart s nbu t x = endThread (setThread s nbu t { withClearStatus x with busy := true }) nbu t 0x04 0 0 0 false false :=
  if_pos (by simpa using hnear)

variable (hsome : 0 < x.nearLen) (hfits : x.nearBase + x.nearLen ≤ 2048)
include hsome hfits

theorem nearSection_ok : (decide (x.nearLen = 0) || decide (2048 < x.nearBase + x.nearLen)) = false := by
  simpa using And.intro (Nat.ne_of_gt hsome) hfits

theorem hostStart_noEntry (hstore : storeFor s nbu x.entry = none) :
    hostStart s nbu t x = endThread (setThread s nbu t { withClearStatus x with busy := true }) nbu t 0x03 0 0 0 false false := by
  simp only [hostStart, nearSection_ok hsome hfits, storeFor_setThread, hstore, Bool.false_eq_true, if_false]
  rfl

/-- The job runs under the store of its stack as it stands at the start (R214). -/
theorem hostStart_runs {code : List Nat} {pc : Nat} {b : Bool} (hstore : storeFor s nbu x.entry = some (code, pc, b)) :
    hostStart s nbu t x =
      setThread (setThread s nbu t { withClearStatus x with busy := true }) nbu t
        { withClearStatus x with busy := true, startPc := pc, store := code, builtin := b } := by
  simp only [hostStart, nearSection_ok hsome hfits, storeFor_setThread, hstore, Bool.false_eq_true, if_false]
  rfl

end

/-! ### Ending (R209, R223, R224) -/

/-- The code that an end other than the program's own records. -/
def HostEnd.cutCode : HostEnd → Nat
  | .program => 0
  | .ecc _ => 0x06
  | .abort => 0x0B
  | .limit => 0x0A

/-- The detail that such an end records: the page of a bank error. -/
def HostEnd.cutDetail : HostEnd → Nat
  | .ecc page => page
  | _ => 0

section
variable {s : State} {nbu t : Nat} (ran cycles : Nat)

theorem endJob_host (why : HostEnd) (hbusy : (threadOf s nbu t).busy = true) (hissuer : (threadOf s nbu t).issuer = Issuer.host) :
    endJob s nbu t ran cycles why = endHost s nbu t ran cycles why := by
  simp only [endJob, hbusy, hissuer, Bool.not_true, Bool.false_eq_true, if_false]

theorem endJob_frontEnd {w : Nat} (why : HostEnd) (hbusy : (threadOf s nbu t).busy = true)
    (hissuer : (threadOf s nbu t).issuer = Issuer.frontEnd w) : endJob s nbu t ran cycles why = endFrontEnd s nbu t w cycles why := by
  simp only [endJob, hbusy, hissuer, Bool.not_true, Bool.false_eq_true, if_false]

variable {ran}

/-- A program that has stopped by then ends its job with its own code, whatever else there is to end it. -/
theorem endHost_stopped {j : NbuJob} {code pc detail : Nat} (why : HostEnd)
    (hrun : nbuRun (threadOf s nbu t).store ran (jobStart s nbu (threadOf s nbu t)) = .stop j code pc detail) :
    endHost s nbu t ran cycles why = endThread (keepJob s nbu t j) nbu t code pc detail cycles j.inexact j.poison := by
  simp only [endHost, hrun]

/-- A program that still runs is cut short at the instruction it has reached. -/
theorem endHost_cutShort {j : NbuJob} {why : HostEnd} (hwhy : why ≠ .program)
    (hrun : nbuRun (threadOf s nbu t).store ran (jobStart s nbu (threadOf s nbu t)) = .go j) :
    endHost s nbu t ran cycles why =
      endThread (keepJob s nbu t j) nbu t why.cutCode j.pc why.cutDetail cycles j.inexact j.poison := by
  cases why with
  | program => exact absurd rfl hwhy
  | ecc | abort | limit => simp only [endHost, hrun, HostEnd.cutCode, HostEnd.cutDetail]

theorem endFrontEnd_program (w : Nat) :
    endFrontEnd s nbu t w cycles .program = jobDone (nbuStartAll 4 (endThread s nbu t 0 0 0 cycles false false) nbu) w := rfl

/-- At its limit the job's message, where it is still there, ends with its context torn down (R224). -/
theorem endFrontEnd_limit {w : Nat} {y : AtnWork} (hwork : workOf (endThread s nbu t 0x0A 0 0 cycles false false) w = some y) :
    endFrontEnd s nbu t w cycles .limit =
      nbuStartAll 4 (workTorn (endThread s nbu t 0x0A 0 0 cycles false false) y nbu 0x0A) nbu := by
  simp only [endFrontEnd, hwork]

end

/-- Settles O30: each command runs behind its gate, where a write of CMD_ENTRY comes to a start on an idle thread and each end of a
job to the end for its issuer. -/
theorem nbuJobCommands : Obligations.NbuJobCommands := by
  refine ⟨?writes, ?hostEnds, ?frontEndEnds⟩
  case writes =>
    intro s nbu t v h hallowed hpresent u x y z
    have hwrite : exec (.cmdEntryWrite nbu t v) s = .next (keepFixed s (writeArea u nbu t 0 v true)) := exec_cmdEntryWrite nbu t v h
    have hstarts (hidle : x.busy = false) : writeArea u nbu t 0 v true = hostStart u nbu t (withEntry x v) :=
      writeArea_entry_idle (s := u) hallowed hpresent hidle
    rw [hwrite]
    refine ⟨fun hbusy => ?collides, fun hidle hnear => ?badNear, fun hidle hsome hfits hstore => ?noEntry,
      fun code pc b hidle hsome hfits hstore => ?runs⟩
    case collides =>
      rw [writeArea_entry_busy (s := u) hallowed hpresent hbusy]
      rfl
    case badNear =>
      rw [hstarts hidle, hostStart_badNear (x := withEntry x v) hnear]
      rfl
    case noEntry =>
      rw [hstarts hidle, hostStart_noEntry (s := u) (x := withEntry x v) hsome hfits hstore]
      rfl
    case runs =>
      rw [hstarts hidle, hostStart_runs (s := u) (x := withEntry x v) hsome hfits hstore]
      rfl
  case hostEnds =>
    rintro s nbu t ran cycles x rfl hbusy hissuer u
    refine ⟨fun j code pc d hstop h => ?stopped, fun j hgo => ⟨fun page h => ?bankError, fun h => ?limit, fun h hallowed hpresent => ?abort⟩⟩
    case stopped =>
      rw [exec_nbuJobEnd_program nbu t ran cycles h, endJob_host (s := cleared s) ran cycles _ hbusy hissuer,
        endHost_stopped (s := cleared s) cycles _ hstop]
    case bankError =>
      rw [exec_nbuJobEnd_bankError nbu t ran cycles page h, endJob_host (s := cleared s) ran cycles _ hbusy hissuer,
        endHost_cutShort (s := cleared s) cycles (why := .ecc page) nofun hgo]
      rfl
    case limit =>
      rw [exec_cycleLimit nbu t ran cycles h, endJob_host (s := cleared s) ran cycles _ hbusy hissuer,
        endHost_cutShort (s := cleared s) cycles (why := .limit) nofun hgo]
      rfl
    case abort =>
      rw [exec_cmdStatusAbort t ran cycles h hallowed hpresent, endJob_host (s := written s) ran cycles _ hbusy hissuer,
        endHost_cutShort (s := written s) cycles (why := .abort) nofun hgo]
      rfl
  case frontEndEnds =>
    intro s nbu t ran cycles w h hbusy hissuer
    refine ⟨?program, fun y hwork => ?limit⟩
    case program =>
      rw [exec_nbuJobEnd_program nbu t ran cycles h, endJob_frontEnd (s := cleared s) ran cycles _ hbusy hissuer, endFrontEnd_program]
    case limit =>
      rw [exec_cycleLimit nbu t ran cycles h, endJob_frontEnd (s := cleared s) ran cycles _ hbusy hissuer, endFrontEnd_limit cycles hwork]

end Sys2Proof.Machine
end

section
/-! SUPPORT. How a delegate takes a DLG_BLOCK, and how a DLG_OUT or its absence ends what the work of the other side waits for
(R245, R249, R250), and the statement they settle. -/
namespace Sys2Proof.Machine

/-! ### Their commands -/

theorem exec_dlgBlock {s : State} (half : Nat) (m : DlgBlock) (h : serving s) :
    exec (.dlgBlock half m) s = .next (keepFixed s (settleAll (takeDlgBlock (cleared s) half m))) := run_act _ h

theorem exec_dlgOut {s : State} (m : DlgOut) (h : serving s) :
    exec (.dlgOut m) s = .next (keepFixed s (settleAll (takeDlgOut (cleared s) m))) := run_act _ h

theorem exec_dlgTimeout {s : State} (req : Nat) (h : serving s) :
    exec (.dlgTimeout req) s = .next (keepFixed s (settleAll (dlgTimeout (cleared s) req))) := run_act _ h

/-! ### Taking a block (R249) -/

/-- KiB of the step buffers that a block's payload takes: whole pages of 4 KiB. -/
def dlgKib (m : DlgBlock) : Nat := ceilDiv (dlgBytes m) 4096 * 4

/-- The commands a block is served with: one for each of its pieces. -/
def dlgCmds (s : State) (half : Nat) (m : DlgBlock) : List TileCmd :=
  List.replicate (piecesOf m.chunk m.crates).length
    { work := s.den.nextServe, half := half, cls := Nat.max m.cls (fld s Reg.DEN_DLG.class_max), ctx := hCtx m.handle, handle := m.handle,
      serve := true }

/-- The state with the record of a block being served. -/
def withServe (s : State) (m : DlgBlock) : State :=
  let v : DlgServe := { id := s.den.nextServe, msg := m, left := (piecesOf m.chunk m.crates).length, kib := dlgKib m }
  { s with den := { s.den with serving := s.den.serving ++ [v], nextServe := s.den.nextServe + 1 } }

section
variable {s : State} (half : Nat) {m : DlgBlock}

theorem takeDlgBlock_absent (hunit : (!hasCap s 0 || !flag s Reg.DEN_DLG.accept) = true) :
    takeDlgBlock s half m = answerDlg s m .unitAbsent 0 [] := if_pos hunit

variable (hunit : (!hasCap s 0 || !flag s Reg.DEN_DLG.accept) = false)
include hunit

theorem takeDlgBlock_noRoom (hroom : stepSharedFree s < dlgKib m) : takeDlgBlock s half m = answerDlg s m .noCapacity 0 [] := by
  unfold dlgKib at hroom
  simp only [takeDlgBlock, hunit, hroom, Bool.false_eq_true, if_false, if_true]

variable (hroom : ¬ stepSharedFree s < dlgKib m)
include hroom

theorem takeDlgBlock_malformed (hlimits : dlgOk m = false) : takeDlgBlock s half m = answerDlg s m .versionMismatch 0x7 [] := by
  unfold dlgKib at hroom
  simp only [takeDlgBlock, hunit, hroom, hlimits, Bool.not_false, Bool.false_eq_true, if_false, if_true]

theorem takeDlgBlock_served (hlimits : dlgOk m = true) :
    takeDlgBlock s half m = queueTiles (withServe s m) (dlgCmds s half m) := by
  unfold dlgKib at hroom
  simp only [takeDlgBlock, hunit, hroom, hlimits, Bool.not_true, Bool.false_eq_true, if_false]
  rfl

end

/-! ### The answer, and its absence (R250) -/

section
variable {s : State} {m : DlgOut} {w : AtnWork} {h sb st part : Nat} {r : Role}
  (hwork : dlgWork s m.request = some (w, (m.request, m.epoch, h, sb, st, part))) (hdelegate : delegateOf s = some r)
  (hepoch : r.epoch = m.epoch) (hhandle : w.msg.handle = m.handle)
include hwork hdelegate hepoch hhandle

/-- An answer under the request, the epoch and the handle of an outstanding request: the rows go to its place in the work, and a
status other than OK ends the work. -/
theorem takeDlgOut_current :
    takeDlgOut s m =
      if m.status = .ok then
        checkWork (modWork s w.id fun w =>
          { w with dlg := w.dlg.filter (·.1 ≠ m.request), rows := w.rows ++ [(h, sb, st, part, m.payload)] }) w.id
      else dlgFail (refuseWork s w m.status m.detail) := by
  simp only [takeDlgOut, hwork, hdelegate, hepoch, hhandle, Option.elim_some, ne_eq, not_true_eq_false, decide_false, Bool.or_self,
    Bool.false_eq_true, if_false, ite_not]

end

theorem dlgTimeout_outstanding {s : State} {req : Nat} {w : AtnWork} {d : Nat × Nat × Nat × Nat × Nat × Nat}
    (hwork : dlgWork s req = some (w, d)) : dlgTimeout s req = dlgFail (refuseWork s w .linkDown 0x3) := by
  simp only [dlgTimeout, hwork]

/-- Settles O22: each command runs behind its gate, where a DLG_BLOCK comes to one of the four lemmas on taking it. -/
theorem delegatedBlocks : Obligations.DelegatedBlocks := by
  refine ⟨?blocks, ?answers, ?timeouts⟩
  case blocks =>
    intro s half m h u kib n
    refine (exec_dlgBlock half m h).trans (next_settleAll_congr ?_)
    split_ifs with hunit hroom hlimits
    · exact takeDlgBlock_absent (s := u) half hunit
    · exact takeDlgBlock_noRoom (s := u) half (Bool.eq_false_iff.mpr hunit) hroom
    · exact takeDlgBlock_malformed (s := u) half (Bool.eq_false_iff.mpr hunit) hroom (by simpa using hlimits)
    · exact takeDlgBlock_served (s := u) half (Bool.eq_false_iff.mpr hunit) hroom (by simpa using hlimits)
  case answers =>
    rintro s m w _ h sb st part r hserving hwork hdelegate rfl hepoch hhandle
    rw [exec_dlgOut m hserving, takeDlgOut_current (s := cleared s) hwork hdelegate hepoch hhandle]
  case timeouts =>
    intro s req w d h hwork
    rw [exec_dlgTimeout req h, dlgTimeout_outstanding (s := cleared s) hwork]

end Sys2Proof.Machine
end

section
/-! SUPPORT. How a free tile takes a command, how the commands of the queues and the command of host software end, and how host
software starts one (R237, R238, R241, R242, R251), and the statement they settle. -/
namespace Sys2Proof.Machine

/-! ### Their commands -/

theorem exec_tileDispatch {s : State} (t : Nat) (h : serving s) :
    exec (.tileDispatch t) s = .next (keepFixed s (dispatchTile (cleared s) t)) := run_whenUp _ h

section
variable {s : State} {t : Nat} (code nbu page macs cycles : Nat) (h : serving s)
include h

/-- While host software has no command in progress, an end on a tile is that of a queued command. -/
theorem exec_tileCommandEnd_queued (hhost : s.den.hostCmd = none) :
    exec (.tileCommandEnd t code nbu page macs cycles) s =
      .next (keepFixed s (settleAll (endTile (cleared s) t code nbu page macs))) := by
  refine (run_act _ h).trans (next_settleAll_congr ?_)
  simp only [hhost, Option.elim_none, Bool.false_eq_true, if_false]

theorem exec_tileCycleLimit_queued (hhost : s.den.hostCmd = none) :
    exec (.tileCycleLimit t cycles) s = .next (keepFixed s (settleAll (endTile (cleared s) t 0x05 0 0 0))) := by
  refine (run_act _ h).trans (next_settleAll_congr ?_)
  simp only [hhost, Option.elim_none, Bool.false_eq_true, if_false]

variable {b : List Nat} (hhost : s.den.hostCmd = some (t, b))
include hhost

/-- An end on the tile of the host's command is that of the host's command (R251). -/
theorem exec_tileCommandEnd_host :
    exec (.tileCommandEnd t code nbu page macs cycles) s =
      .next (keepFixed s (settleAll (finishHostCmd (cleared s) code cycles macs))) := by
  refine (run_act _ h).trans (next_settleAll_congr ?_)
  simp only [hhost, Option.elim_some, decide_true, if_true]

theorem exec_tileCycleLimit_host :
    exec (.tileCycleLimit t cycles) s = .next (keepFixed s (settleAll (finishHostCmd (cleared s) 0x05 cycles 0))) := by
  refine (run_act _ h).trans (next_settleAll_congr ?_)
  simp only [hhost, Option.elim_some, decide_true, if_true]

end

theorem exec_denTestCtlGo {s : State} (t : Nat) (h : hostReaches s) (hidle : flag s Reg.DEN_TEST_CTL.busy = false)
    (htiles : partTiles s.part ≠ []) :
    exec (.denTestCtlGo t) s = .next (keepFixed s (startHostCmd (setFld (written s) Reg.DEN_TEST_CTL.tile t))) := by
  have hopen : (flag (written s) Reg.DEN_TEST_CTL.busy || (partTiles (written s).part).isEmpty) = false :=
    Bool.or_eq_false_iff.mpr ⟨hidle, List.isEmpty_eq_false_iff.mpr htiles⟩
  refine (run_hostAccess _ h).trans ?_
  simp only [hopen, Bool.false_eq_true, if_false]

/-! ### Dispatch (R241) -/

/-- The state with a command moved from its queue to a tile. -/
def onTile (s : State) (t k : Nat) (c : TileCmd) : State :=
  let rest := dropFirst (fun x => x = c) (tget [] s.den.queues k)
  { s with den := { s.den with
      queues := if rest.isEmpty then tdel s.den.queues k else tset s.den.queues k rest, running := tset s.den.running t c } }

theorem dispatchTile_takes {s : State} {t k : Nat} {c : TileCmd} (hfree : tileFree s t = true)
    (hnext : nextCmd s (tileHalf t) = some (k, c)) :
    dispatchTile s t = if c.serve then onTile s t k c else charge (onTile s t k c) (ctxPart s c.ctx) resAttic c.bytes := by
  simp only [dispatchTile, hfree, hnext, Bool.not_true, Bool.false_eq_true, if_false]
  rfl

/-! ### The end of a queued command (R238) -/

/-- The state with a tile free again. -/
def tileFreed (s : State) (t : Nat) : State := { s with den := { s.den with running := tdel s.den.running t } }

/-- The state with a tile failed: the fault is posted and its command is at the front of its queue again. -/
def tileFailed (s : State) (t : Nat) (c : TileCmd) : State :=
  let f := denFault s t 0x04 c
  let f := setFld f Reg.DEN_TILES.failed (putBit (fld f Reg.DEN_TILES.failed) t true)
  let q := 4 * c.half + c.cls
  { f with den := { f.den with queues := tset f.den.queues q (c :: tget [] f.den.queues q) } }

section
variable {s : State} {t : Nat} (nbu page macs : Nat) {c : TileCmd} (hruns : tget? s.den.running t = some c)
include hruns

theorem endTile_done :
    endTile s t 0 nbu page macs =
      if c.serve then serveDone (countCmd (tileFreed s t) macs) c.work else tileDone (countCmd (tileFreed s t) macs) c.work := by
  simp only [endTile, hruns]
  rfl

/-- While another tile is usable, a failed one costs no more than its command's place. -/
theorem endTile_failed (husable : usableTiles (tileFailed (tileFreed s t) t c) ≠ []) :
    endTile s t 0x04 nbu page macs = tileFailed (tileFreed s t) t c := by
  simp only [endTile, hruns]
  exact if_neg (mt List.isEmpty_iff.mp husable)

/-- A job fault of a command whose message is still there ends the message with its context torn down (R224). -/
theorem endTile_limit {w : AtnWork} (hfrontEnd : c.serve = false) (hwork : workOf (denFault (tileFreed s t) t 0x05 c) c.work = some w) :
    endTile s t 0x05 nbu page macs = workTorn (denFault (tileFreed s t) t 0x05 c) w t 0x05 := by
  unfold tileFreed at hwork ⊢
  simp only [endTile, hruns, hfrontEnd, hwork, Bool.false_eq_true, if_false]

end

/-! ### The command of host software (R251) -/

section
variable {s : State} {t : Nat} {b : List Nat} (cycles macs : Nat) (hhost : s.den.hostCmd = some (t, b))
include hhost

theorem finishHostCmd_runs :
    finishHostCmd s 0 cycles macs =
      endHostCmd (if (runTile s b).2 = 0 then countCmd (runTile s b).1 macs else (runTile s b).1) (runTile s b).2 cycles := by
  simp only [finishHostCmd, hhost, if_true]

/-- A code that the tile itself did not fail with is reported as it is. -/
theorem finishHostCmd_fault {code : Nat} (hcode : code ≠ 0) (htile : code ≠ 0x04) :
    finishHostCmd s code cycles macs = endHostCmd s code cycles := by
  simp only [finishHostCmd, hhost, hcode, htile, if_false]

end

theorem startHostCmd_starts {s : State} (hidle : flag s Reg.DEN_TEST_CTL.busy = false) (hallowed : flag s Reg.DEN_CFG.host_cmds = true)
    (husable : (usableTiles s).contains (fld s Reg.DEN_TEST_CTL.tile) = true) :
    startHostCmd s =
      (let v := setFld s Reg.DEN_TEST_CTL.busy 1
       { v with den := { v.den with hostCmd := some (fld s Reg.DEN_TEST_CTL.tile, testBytes v) } }) := by
  simp only [startHostCmd, hidle, hallowed, husable, Bool.not_true, Bool.or_self, Bool.false_eq_true, if_false]

/-- Settles O23: each command runs behind its gate, where an end is that of a queued command or of the host's, and its code selects
the lemma on what the end does. -/
theorem tileCommands : Obligations.TileCommands := by
  refine ⟨?dispatches, ?queuedEnds, ?hostEnds, ?hostStarts⟩
  case dispatches =>
    intro s t k c h hfree hnext rest u
    rw [exec_tileDispatch t h, dispatchTile_takes (s := cleared s) hfree hnext]
    rfl
  case queuedEnds =>
    intro s t nbu page macs cycles c h hhost hruns u
    have hends (code : Nat) : exec (.tileCommandEnd t code nbu page macs cycles) s =
        .next (keepFixed s (settleAll (endTile (cleared s) t code nbu page macs))) :=
      exec_tileCommandEnd_queued code nbu page macs cycles h hhost
    refine ⟨?done, fun husable => ?failed, fun w hfrontEnd hwork => ?limit⟩
    case done => exact (hends 0).trans (next_settleAll_congr (endTile_done (s := cleared s) nbu page macs hruns))
    case failed => exact (hends 0x04).trans (next_settleAll_congr (endTile_failed (s := cleared s) nbu page macs hruns husable))
    case limit =>
      rw [exec_tileCycleLimit_queued cycles h hhost]
      exact next_settleAll_congr (endTile_limit (s := cleared s) 0 0 0 hruns hfrontEnd hwork)
  case hostEnds =>
    intro s t code nbu page macs cycles b h hhost
    refine ⟨?runs, fun hcode htile => ?fault, ?limit⟩
    case runs => rw [exec_tileCommandEnd_host 0 nbu page macs cycles h hhost, finishHostCmd_runs (s := cleared s) cycles macs hhost]
    case fault =>
      rw [exec_tileCommandEnd_host code nbu page macs cycles h hhost, finishHostCmd_fault (s := cleared s) cycles macs hhost hcode htile]
    case limit =>
      rw [exec_tileCycleLimit_host cycles h hhost, finishHostCmd_fault (s := cleared s) cycles 0 hhost (by decide) (by decide)]
  case hostStarts =>
    intro s t h hidle htiles u hready hallowed husable
    rw [exec_denTestCtlGo t h hidle htiles, startHostCmd_starts (s := u) hready hallowed husable]

end Sys2Proof.Machine
end

section
/-! SUPPORT. What the verbs of semaphores, the grant, the remote request and the limit on inheritance do (R281 to R286), and the
statement they settle. -/
namespace Sys2Proof.Machine

/-! ### Acquire, release and pass on (R281 to R285) -/

section
variable {s : State} {sub : Sub} {dev sem : Nat} (cls : Nat)

theorem semAcquire_free (hfree : (semOf s sem).holder = none) (hmark : (semOf s sem).mark = none) :
    semAcquire s sub dev sem cls =
      complete (setSem s sem { semOf s sem with holder := some ⟨dev, sub.context, cls⟩, mark := none }) sub .ok 0 [0, 0, 0, 0] := by
  simp only [semAcquire, hfree, hmark, semResults, Option.isSome_none, Bool.false_eq_true, if_false]

theorem semAcquire_marked {k : SemMark} (hfree : (semOf s sem).holder = none) (hmark : (semOf s sem).mark = some k) :
    semAcquire s sub dev sem cls =
      complete (setSem s sem { semOf s sem with holder := some ⟨dev, sub.context, cls⟩, mark := none }) sub .abandoned 0
        [k.cause, k.ctx, k.dev, 0] := by
  simp only [semAcquire, hfree, hmark, semResults, Option.isSome_some, if_true]

theorem semAcquire_own {h : SemHolder} (hheld : (semOf s sem).holder = some h) (hown : h.dev = dev ∧ h.ctx = sub.context) :
    semAcquire s sub dev sem cls = complete s sub .ok 0 [0, 0, 0, 0] := by
  simp only [semAcquire, hheld, hown, semResults, decide_true, Bool.and_self, if_true]

theorem semAcquire_waits {h : SemHolder} (hheld : (semOf s sem).holder = some h) (hother : ¬(h.dev = dev ∧ h.ctx = sub.context)) :
    semAcquire s sub dev sem cls =
      (let y : Sem := { semOf s sem with
         waiters := (semOf s sem).waiters ++ [{ dev := dev, ctx := sub.context, cls := cls, sub := sub, since := s.timebase }] }
       setSem s sem { y with inherit := inheritOf y }) := by
  simp only [semAcquire, hheld, ← Bool.decide_and, hother, decide_false, Bool.false_eq_true, if_false]

/-- Only the holder releases (R283). -/
theorem semRelease_eq_ite (s : State) (sub : Sub) (dev sem : Nat) :
    semRelease s sub dev sem =
      if (semOf s sem).holder.any (fun h => h.dev = dev && h.ctx = sub.context) then complete (passSem s sem none) sub .ok 0 []
      else complete s sub .badHandle 0x7 [] := by
  cases hholder : (semOf s sem).holder <;> simp only [semRelease, hholder, refuse, Option.any_none, Option.any_some, Bool.false_eq_true, if_false]

/-- A semaphore that is passed on is stored with the waiter served as its holder. -/
theorem passSem_waiter {i : Nat} {w : SemWaiter} (m : Option SemMark) (hnext : nextWaiter (semOf s i).waiters = some w) :
    passSem s i m =
      (let x : Sem := { semOf s i with holder := some ⟨w.dev, w.ctx, w.cls⟩, mark := none,
                                       waiters := dropFirst (fun y => y = w) (semOf s i).waiters, granted := (semOf s i).granted ++ [(w, m)] }
       setSem s i { x with inherit := inheritOf x }) := by
  simp only [passSem, hnext]

end

/-! ### Their commands -/

section
variable {s : State} {sub : Sub} {sem : Nat} (hsem : sem < 4096)
include hsem

theorem exec_semAcquire {cls : Nat} (h : accepts 1 s sub) (hcls : cls < 4) (hctx : ctxBad s sub.context = none) :
    exec (.semAcquire sub sem cls 0) s = .next (keepFixed s (semAcquire (taken s sub) sub s.device sem cls)) := by
  have hctx : ctxBad (taken s sub) sub.context = none := hctx
  refine (run_verb _ h).trans ?_
  simp only [hctx, Nat.not_le.mpr hsem, Nat.not_le.mpr hcls, ne_eq, not_true_eq_false, decide_false, Bool.or_self, Bool.false_eq_true, if_false]
  rfl

theorem exec_semRelease (h : accepts 1 s sub) (hctx : ctxBad s sub.context = none) :
    exec (.semRelease sub sem 0) s = .next (keepFixed s (settleAll (semRelease (taken s sub) sub s.device sem))) := by
  have hctx : ctxBad (taken s sub) sub.context = none := hctx
  refine (run_act_verb _ h).trans (next_settleAll_congr ?_)
  simp only [hctx, Nat.not_le.mpr hsem, ne_eq, not_true_eq_false, decide_false, Bool.or_self, Bool.false_eq_true, if_false]
  rfl

variable {src cls : Nat} (hcls : cls < 4)
include hcls

theorem takeSemReq_acquire : takeSemReq s src 0x80 sub sem cls = semAcquire s { sub with ring := remoteRing + src } src sem cls := by
  simp only [takeSemReq, Nat.not_le.mpr hsem, Nat.not_le.mpr hcls, decide_false, Bool.or_self, Bool.false_eq_true, if_false, if_true]

theorem takeSemReq_release : takeSemReq s src 0x81 sub sem cls = semRelease s { sub with ring := remoteRing + src } src sem := by
  simp only [takeSemReq, Nat.not_le.mpr hsem, Nat.not_le.mpr hcls, decide_false, Bool.or_self, Bool.false_eq_true, if_false, if_true,
    Nat.reduceEqDiff]

end

section
variable {s : State} (h : serving s)
include h

theorem exec_semReq (src op : Nat) (sub : Sub) (sem cls : Nat) :
    exec (.semReq src op sub sem cls) s = .next (keepFixed s (settleAll (takeSemReq (cleared s) src op sub sem cls))) := run_act _ h

/-- The oldest waiter that was passed the semaphore completes with the mark it came with and the time it waited. -/
theorem exec_semGrant {sem : Nat} {w : SemWaiter} {m : Option SemMark} {t : List (SemWaiter × Option SemMark)}
    (hgranted : (semOf s sem).granted = (w, m) :: t) :
    exec (.semGrant sem) s = .next (keepFixed s (complete (setSem (cleared s) sem { semOf s sem with granted := t }) w.sub
      (if m.isSome then .abandoned else .ok) 0 (semResults m (s.timebase - w.since)))) := by
  have hgranted : (semOf (cleared s) sem).granted = (w, m) :: t := hgranted
  refine (run_whenUp _ h).trans ?_
  simp only [hgranted]
  rfl

/-- Where a class is inherited, the limit ends what the holder's context holds, and a context here with it (R284, log 51). -/
theorem exec_semInheritLimit {sem k : Nat} {y : SemHolder} (hheld : (semOf s sem).holder = some y) (hinherit : (semOf s sem).inherit = some k) :
    exec (.semInheritLimit sem) s = .next (keepFixed s (settleAll
      (let u := abandonAll (report (cleared s) 0x0806 sem 0 [sem, y.ctx]) 4 fun z => z.dev = y.dev && z.ctx = y.ctx
       if y.dev = u.device then teardown u y.ctx { trigger := 4, unit := 0, code := 0 } none else u))) := by
  have hheld : (semOf (cleared s) sem).holder = some y := hheld
  have hinherit : (semOf (cleared s) sem).inherit = some k := hinherit
  refine (run_act _ h).trans (next_settleAll_congr ?_)
  simp only [hheld, hinherit, Option.isNone_some, Bool.false_eq_true, if_false]

end

theorem semResults_eq (m : Option SemMark) (waited : Nat) :
    semResults m waited = [m.elim 0 (·.cause), m.elim 0 (·.ctx), m.elim 0 (·.dev), waited] := by
  cases m <;> rfl

/-- Settles O20: each command runs behind its gate, and the holder of the semaphore and its mark select the lemma on what the verb does. -/
theorem semaphoreCommands : Obligations.SemaphoreCommands := by
  refine ⟨?acquires, ?releases, ?grants, ?remote, ?limit, ?passes⟩
  case acquires =>
    intro s sub sem cls h hsem hcls hctx u x
    rw [exec_semAcquire hsem h hcls hctx]
    cases hholder : x.holder with
    | none =>
      cases hmark : x.mark with
      | none => rw [semAcquire_free (s := taken s sub) cls hholder hmark]; rfl
      | some k => rw [semAcquire_marked (s := taken s sub) cls hholder hmark]; rfl
    | some y =>
      by_cases hown : y.dev = s.device ∧ y.ctx = sub.context
      · rw [semAcquire_own (s := taken s sub) cls hholder hown]
        simp only [hown, and_self, if_true]
        rfl
      · rw [semAcquire_waits (s := taken s sub) cls hholder hown]
        simp only [hown, if_false, ← hholder]
        rfl
  case releases =>
    intro s sub sem h hsem hctx
    rw [exec_semRelease hsem h hctx, semRelease_eq_ite]
    rfl
  case grants =>
    intro s sem w m t h hgranted
    rw [exec_semGrant h hgranted, semResults_eq]
  case remote =>
    intro s src sub sem cls h hsem hcls
    rw [exec_semReq h, exec_semReq h, takeSemReq_acquire hsem hcls, takeSemReq_release hsem hcls]
    exact ⟨rfl, rfl⟩
  case limit => exact fun s sem y k h => exec_semInheritLimit h
  case passes =>
    intro s i m w hnext y
    have hstored (j : Nat) := congrArg (semOf · j) (passSem_waiter m hnext)
    simp only [semOf_setSem] at hstored
    have hy := hstored i
    rw [if_pos rfl] at hy
    refine ⟨?_, ?_, ?_, ?_, fun j hj => (hstored j).trans (if_neg hj)⟩ <;> simp only [y, hy]

end Sys2Proof.Machine
end

section
/-! SUPPORT. What a step descriptor makes, how a part starts, and how a wait for credits pre-empts (R255, R257, R258, R277), and the
statement they settle. -/
namespace Sys2Proof.Machine

/-! ### Descriptors (R255) -/

section
variable {s : State} {d : StepDesc}

theorem descBad_malformed (hform : descMalformed d = true) : descBad s d = some (.versionMismatch, 0x7) := by
  simp only [descBad, hform, if_true]

theorem descBad_refInUse {p : StepPart} (hform : descMalformed d = false) (hpart : partOf s d.stepRef = some p) :
    descBad s d = some (.versionMismatch, 0xA) := by
  simp only [descBad, hform, hpart, Option.isSome_some, Bool.false_eq_true, if_false, if_true]

/-- The part that a descriptor makes: none of its entries is checked yet, and only a home keeps records and participants. -/
def announcedPart (s : State) (d : StepDesc) : StepPart :=
  let home : Bool := d.home = s.device
  { stepRef := d.stepRef, submitter := d.src, home := d.home, cls := d.cls, first := d.first, last := d.last, context := d.context,
    tokens := d.tokens, block := d.block, noRerun := d.noRerun
    entries := d.entries.map fun e => { handle := e.handle, step := e.step, homeEpoch := e.homeEpoch, tokens := d.tokens }
    homeRec := if home then d.entries.map fun _ => {} else []
    participants := if home then stepParticipants s (hSerial (d.entries.headD ⟨0, 0, 0⟩).handle) d.first d.last d.home else [] }

variable (hfast : s.lay.fast = none)
include hfast

theorem takeDesc_refused {st : Status} {detail : Nat} (hbad : descBad s d = some (st, detail)) : takeDesc s d = refuseDesc s d st detail := by
  simp only [takeDesc, hfast, hbad]

/-- A descriptor that passes the checks of a whole descriptor makes its part, whose entries are checked in order. -/
theorem takeDesc_passed (hgood : descBad s d = none) :
    takeDesc s d =
      (let u := d.entries.foldl (fun s e => makeGuest s d e) s
       dropDone ((List.range d.entries.length).foldl (fun s i => checkEntry s d.stepRef i) (addPart u (announcedPart u d))) d.stepRef) := by
  simp only [takeDesc, hfast, hgood, announcedPart]

end

/-! ### Starts (R257, R258) -/

section
variable {s : State} {ref : Nat} {p : StepPart} (hpart : partOf s ref = some p)
include hpart

theorem partStart_canStart (hcan : canStart s p = true) : partStart s ref = startEntries s ref := by
  simp only [partStart, hpart, hcan, if_true]

/-- Each entry that may start takes its slots out of the partition's reserve first, the rest out of the shared pool. -/
theorem startEntries_gives {q : Params} (hparams : paramsOf s p.context = some q) :
    startEntries s ref =
      (let ix := startable s p
       let kib (i : Nat) : Nat := entryKib q p.block ((p.entries[i]?).elim 1 (·.tokens))
       let u := modPart s ref fun p => { p with startOrder := s.steps.nextStart }
       let u := { u with steps := { u.steps with nextStart := s.steps.nextStart + 1 } }
       let u := ix.foldl (fun u i =>
         modEntry u ref i fun e =>
           { e with started := true, ownKib := Nat.min (kib i) (ownFree u p), sharedKib := kib i - Nat.min (kib i) (ownFree u p) }) u
       ix.foldl (fun u i => maybePrepared u ref i) u) := by
  simp only [startEntries, hpart, hparams]
  rfl

end

/-! ### Their commands -/

section
variable {s : State} (h : serving s)
include h

theorem exec_stpDesc (d : StepDesc) :
    exec (.stpDesc d) s = .next (keepFixed s (settleAll (takeDesc ((d.entries.map (·.handle)).foldl promoteIfLost (cleared s)) d))) :=
  run_act _ h

theorem exec_partStart (ref : Nat) : exec (.partStart ref) s = .next (keepFixed s (settleAll (partStart (cleared s) ref))) := run_act _ h

/-- A part that lacks credits pre-empts the victims that cover the shortfall (R277). -/
theorem exec_creditWaitExpiry {ref n need : Nat} {p : StepPart} {vs : List StepPart} (hpart : partOf s ref = some p)
    (hshort : creditShort s ref = some (n, need))
    (hcover : coverVictims (fun v => sharedCredits s v.stepRef n) (victims s (partClass s p)) need = some vs) :
    exec (.creditWaitExpiry ref) s =
      .next (keepFixed s (settleAll (vs.foldl (fun u v => preemptPart u (partClass u p) v) (cleared s)))) := by
  have hpart : partOf (cleared s) ref = some p := hpart
  have hshort : creditShort (cleared s) ref = some (n, need) := hshort
  have hcover : coverVictims (fun v => sharedCredits (cleared s) v.stepRef n) (victims (cleared s) (partClass (cleared s) p)) need = some vs := hcover
  refine (run_act _ h).trans (next_settleAll_congr ?_)
  simp only [hpart, hshort, hcover]

end

/-- Settles O24: a descriptor comes to its checks, a start to the slots of each entry that may start, a wait for credits to the
victims found. -/
theorem stepDescriptorsAndStarts : Obligations.StepDescriptorsAndStarts := by
  refine ⟨?descriptors, fun s d => descBad_malformed, fun s d p => descBad_refInUse, ?starts, ?preempts⟩
  case descriptors =>
    intro s d h _ u hfast
    rw [exec_stpDesc h]
    exact ⟨fun st detail hbad => next_settleAll_congr (takeDesc_refused (s := u) hfast hbad),
      fun hgood => next_settleAll_congr (takeDesc_passed (s := u) hfast hgood)⟩
  case starts =>
    intro s ref p q h hpart hcan hparams ix kib
    rw [exec_partStart h, partStart_canStart (s := cleared s) hpart hcan]
    exact next_settleAll_congr (startEntries_gives (s := cleared s) hpart hparams)
  case preempts => exact fun s ref n need p vs h hpart hshort hcover => exec_creditWaitExpiry h hpart hshort hcover

end Sys2Proof.Machine
end

section
/-! SUPPORT. What STEP_SUBMIT, STP_DONE and STEP_KILL do at the submitter and at the home (R269, R274 to R276), and the statement
they settle. -/
namespace Sys2Proof.Machine

/-! ### Submitting (R275) -/

/-- A length that fits its count gives the descriptor this controller's next step reference (log entry 47). -/
theorem doSubmit_fits {s : State} {sub : Sub} {d : StepDesc} {len : Nat} (addr : Nat) (hsome : 0 < d.count) (hmost : d.count ≤ 4096)
    (hlen : len = 64 + 16 * d.count) (hentries : d.entries.length = d.count) :
    doSubmit s sub d len addr 0 =
      (let ref := s.device * 2 ^ 21 + s.steps.nextSeq % 2 ^ 21
       let e : StepDesc := { d with src := s.device, stepRef := ref, noRerun := sub.noRerun }
       let t : Submitted := { sub := sub, resultAddr := addr, desc := e, refs := [(ref, List.range d.count)] }
       submitDesc { s with steps := { s.steps with nextSeq := (s.steps.nextSeq + 1) % 2 ^ 21, submitted := s.steps.submitted ++ [t] } } e) := by
  have hfits : (decide (d.count = 0) || decide (4096 < d.count) || decide (len ≠ 64 + 16 * d.count) ||
      decide (d.entries.length ≠ d.count)) = false := by
    simp [Nat.ne_of_gt hsome, hmost, hlen, hentries]
  simp only [doSubmit, hfits, nextRef, ne_eq, not_true_eq_false, if_false, Bool.false_eq_true]

/-! ### Results (R274) -/

/-- The original indices under which a submitted step knows the sessions of one of its step references. -/
def refIndices (t : Submitted) (ref : Nat) : List Nat := match t.refs.find? (·.1 = ref) with | some r => r.2 | none => []

/-- The results that entries under a step reference bring for sessions that have none yet. -/
def newResults (t : Submitted) (ref : Nat) (l : List StepEntry) : List (Nat × Status × Nat) :=
  l.filterMap fun e => match (refIndices t ref)[e.index]? with
    | some i => if t.results.any (·.1 = i) then none else some (i, e.status, e.detail)
    | none => none

/-- A submitted step with those results added. -/
def withResults (t : Submitted) (ref attempt : Nat) (l : List StepEntry) : Submitted :=
  { t with results := t.results ++ newResults t ref l, attempts := Nat.max t.attempts (attempt + 1) }

theorem submitterDone_found {s : State} {t : Submitted} {ref : Nat} (attempt : Nat) (l : List StepEntry)
    (hfound : (s.steps.submitted.find? fun t => t.refs.any (·.1 = ref)) = some t) :
    submitterDone s ref attempt l = finishSubmit s (withResults t ref attempt l) := by
  simp only [submitterDone, hfound]
  rfl

/-- The step is no longer listed, and its status bytes are written. -/
def reportedSubmit (s : State) (t : Submitted) : State :=
  emit { s with steps := { s.steps with submitted := s.steps.submitted.filter fun x => x.sub ≠ t.sub } }
    (.hostWrite t.resultAddr (statusBytes t.desc.entries.length t.results))

/-- How many of a step's sessions were sealed. -/
def sealedCount (t : Submitted) : Nat := (t.results.filter fun r => r.2.1 = .ok).length

section
variable {s : State} {t : Submitted}

theorem finishSubmit_waits (hfew : t.results.length < t.desc.entries.length) :
    finishSubmit s t = { s with steps := { s.steps with submitted := modFirst (fun x => x.sub = t.sub) (fun _ => t) s.steps.submitted } } := by
  simp only [finishSubmit, hfew, if_true]

variable (hall : t.desc.entries.length ≤ t.results.length)
include hall

theorem finishSubmit_sealed (hfail : firstFail t.results = none) :
    finishSubmit s t = complete (reportedSubmit s t) t.sub .ok 0 [sealedCount t, 0xFFFFFFFF, t.attempts] := by
  simp only [finishSubmit, Nat.not_lt.mpr hall, hfail, if_false]
  rfl

theorem finishSubmit_failed {i d : Nat} {st : Status} (hfail : firstFail t.results = some (i, st, d)) :
    finishSubmit s t = complete (reportedSubmit s t) t.sub st d [sealedCount t, i, t.attempts] := by
  simp only [finishSubmit, Nat.not_lt.mpr hall, hfail, if_false]
  rfl

end

/-! ### Killing (R276) -/

section
variable {s : State} {sub : Sub} {ref : Nat}

/-- It completes as soon as the kill is ordered (log entry 48). -/
theorem doKill_home {p : StepPart} (hpart : partOf s ref = some p) (hhome : isHome s p = true) :
    doKill s sub ref 0 = complete (homeAbort (modPart s ref fun p => { p with noMore := true }) ref .preempted 0 false) sub .ok 0 [] := by
  simp only [doKill, hpart, hhome, ne_eq, not_true_eq_false, Bool.not_true, Bool.false_eq_true, if_false]

theorem doKill_notHome (hnone : ∀ p, partOf s ref = some p → isHome s p = false) : doKill s sub ref 0 = complete s sub .badHandle 0x8 [] := by
  cases hpart : partOf s ref with
  | none => simp only [doKill, hpart, refuse, ne_eq, not_true_eq_false, if_false]
  | some p => simp only [doKill, hpart, hnone p hpart, refuse, ne_eq, not_true_eq_false, Bool.not_false, if_false, if_true]

end

/-! ### Their commands -/

theorem exec_stepSubmit {s : State} {sub : Sub} (d : StepDesc) (len addr : Nat) (h : accepts 1 s sub) :
    exec (.stepSubmit sub d len addr 0) s =
      .next (keepFixed s (settleAll (doSubmit ((d.entries.map (·.handle)).foldl promoteIfLost (taken s sub)) sub d len addr 0))) :=
  run_act_verb _ h

theorem exec_stpDone {s : State} (m : StepMsg) (h : serving s) :
    exec (.stpDone m) s = .next (keepFixed s (settleAll (submitterDone (cleared s) m.stepRef m.attempt m.entries))) := run_act _ h

theorem exec_stepKill {s : State} {sub : Sub} (ref : Nat) (h : accepts 1 s sub) :
    exec (.stepKill sub ref 0) s = .next (keepFixed s (settleAll (doKill (taken s sub) sub ref 0))) := run_act_verb _ h

/-- Settles O25: each command runs behind its gate, where the results that a step has select what STP_DONE does, and the part of the
reference what STEP_KILL does. -/
theorem stepVerbsAtTheSubmitter : Obligations.StepVerbsAtTheSubmitter := by
  refine ⟨?submits, ?results, ?kills⟩
  case submits =>
    intro s sub d len addr h hsome hmost hlen hentries u ref e
    rw [exec_stepSubmit d len addr h, doSubmit_fits addr hsome hmost hlen hentries]
  case results =>
    intro s m t h hfound ix new t' n v sealed
    rw [exec_stpDone m h, submitterDone_found (s := cleared s) m.attempt m.entries hfound]
    exact ⟨fun hfew => next_settleAll_congr (finishSubmit_waits (t := withResults t m.stepRef m.attempt m.entries) hfew),
      fun hall hfail => next_settleAll_congr (finishSubmit_sealed (t := withResults t m.stepRef m.attempt m.entries) hall hfail),
      fun i st d hall hfail => next_settleAll_congr (finishSubmit_failed (t := withResults t m.stepRef m.attempt m.entries) hall hfail)⟩
  case kills =>
    intro s sub ref h u
    rw [exec_stepKill ref h]
    exact ⟨fun p hpart hhome => next_settleAll_congr (doKill_home (s := u) hpart hhome),
      fun hnone => next_settleAll_congr (doKill_notHome (s := u) hnone)⟩

end Sys2Proof.Machine
end

section
/-! SUPPORT. What prepare messages, seals, their acknowledgements, retries and queries do (R264 to R267), and the statement they
settle. -/
namespace Sys2Proof.Machine

/-! ### STP_PREPARED at the home (R264, R267) -/

section
variable {s : State} {m : StepMsg} {en : StepEntry} (hentries : m.entries = [en])
include hentries

/-- A query about a part that is not here is answered STP_ABORT (R267, its epoch by log entry 135). -/
theorem takePrepared_unknown (hpart : partOf s m.stepRef = none) : takePrepared s m = answerAbort s m en (peerEpoch s m.src) none := by
  simp only [takePrepared, hentries, List.foldl_cons, List.foldl_nil, hpart, Option.bind_none]

variable {p : StepPart} {e : PartEntry} {r : HomeEntry} (hpart : partOf s m.stepRef = some p) (hentry : p.entries[en.index]? = some e)
  (hrec : p.homeRec[en.index]? = some r)
include hpart hentry hrec

theorem takePrepared_decided (hdecided : r.decided = true) : takePrepared s m = sendSeal s p en.index e [m.src] := by
  simp only [takePrepared, hentries, List.foldl_cons, List.foldl_nil, hpart, hentry, hrec, hdecided, Option.bind_some, Option.map_some, if_true]

theorem takePrepared_open (hopen : r.decided = false) (hlive : r.ended = none) (hkept : r.resubmitted = false) (hattempt : m.attempt = e.attempt) :
    takePrepared s m = homePrepared s m.stepRef en.index m.src := by
  simp only [takePrepared, hentries, List.foldl_cons, List.foldl_nil, hpart, hentry, hrec, hopen, hlive, hkept, hattempt, Option.bind_some,
    Option.map_some, Option.isSome_none, Bool.or_self, ne_eq, not_true_eq_false, Bool.false_eq_true, if_false]

end

/-! ### STP_SEAL at a participant (R265) -/

section
variable {s : State} {ref : Nat} {en : StepEntry} {p : StepPart} {e : PartEntry} {x : Session} (attempt src : Nat)
  (hpart : partOf s ref = some p) (hentry : p.entries[en.index]? = some e) (hsess : sessOf s e.handle = some x)
include hpart hentry hsess

/-- The answer's detail holds the low byte of the epoch recorded here (log entry 46). -/
theorem sealOne_stale (hstale : serialLt 16 en.homeEpoch x.homeEpoch = true) :
    sealOne s ref attempt src en = (s, { en with status := .staleRole, detail := x.homeEpoch % 256, homeEpoch := x.homeEpoch }) := by
  simp only [sealOne, hpart, hentry, hsess, hstale, Option.bind_some, if_true]

variable (hcurrent : serialLt 16 en.homeEpoch x.homeEpoch = false)
include hcurrent

theorem sealOne_committed (hcommitted : e.committed = true) : sealOne s ref attempt src en = (s, { en with status := .ok, detail := 0 }) := by
  simp only [sealOne, hpart, hentry, hsess, hcurrent, hcommitted, Option.bind_some, Bool.true_or, Bool.false_eq_true, if_false, if_true, Nat.zero_mod]

theorem sealOne_prepared (hopen : e.committed = false) (hstep : serialLt 32 e.step x.step = false) (hprepared : e.prepared = true)
    (hlive : e.ended = none) :
    sealOne s ref e.attempt src en = (commitPart s ref en.index en.homeEpoch, { en with status := .ok, detail := 0 }) := by
  simp only [sealOne, hpart, hentry, hsess, hcurrent, hopen, hstep, hprepared, hlive, Option.bind_some, Option.isNone_none, Bool.or_self,
    Bool.and_self, decide_true, Bool.false_eq_true, if_false, if_true, Nat.zero_mod]

end

/-! ### STP_SEAL_ACK at the home (R264, R265) -/

theorem ackOne_ok {s : State} {ref dev : Nat} {en : StepEntry} {p : StepPart} {e : PartEntry} {r : HomeEntry} (hpart : partOf s ref = some p)
    (hentry : p.entries[en.index]? = some e) (hrec : p.homeRec[en.index]? = some r) (hdecided : r.decided = true) (hok : en.status = .ok) :
    ackOne s ref dev en =
      checkDone (modHome s ref en.index fun r =>
        { r with acked := if r.acked.contains dev then r.acked else r.acked ++ [dev], behind := r.behind.filter (· ≠ dev) }) ref := by
  simp only [ackOne, hpart, hentry, hrec, hdecided, hok, Bool.not_true, Bool.false_eq_true, if_false]

section
variable {s : State} {m : StepMsg} {en : StepEntry} {p : StepPart} {e : PartEntry} {r : HomeEntry} (hentries : m.entries = [en])
  (hpart : partOf s m.stepRef = some p) (hentry : p.entries[en.index]? = some e) (hrec : p.homeRec[en.index]? = some r)
include hentries hpart hentry hrec

/-- The mirror's OK is the decision point (R264). -/
theorem sealAck_mirror {x : Session} (hsess : sessOf s e.handle = some x) (hsent : r.mirrorSent = true) (hopen : r.decided = false)
    (hlive : r.ended = none) (hsrc : m.src = x.mirrorDev) (hok : en.status = .ok) : sealAck s m = decide_ s m.stepRef en.index := by
  simp only [sealAck, hentries, List.foldl_cons, List.foldl_nil, hpart, hentry, hrec, hsess, hsent, hopen, hlive, hsrc, hok, Option.bind_some,
    Option.map_some, Option.elim_some, Option.isNone_none, Bool.not_false, Bool.and_self, decide_true, if_true]

/-- Past the decision point an acknowledgement is a participant's, whoever the mirror is. -/
theorem sealAck_decided (hdecided : r.decided = true) : sealAck s m = ackOne s m.stepRef m.src en := by
  simp only [sealAck, hentries, List.foldl_cons, List.foldl_nil, hpart, hentry, hrec, hdecided, Option.bind_some, Option.map_some, Bool.not_true,
    Bool.and_false, Bool.false_and, Bool.false_eq_true, if_false]

end

/-! ### Retries and queries (R266, R267) -/

/-- The STP_SEAL of an entry past its decision point, again to those that have not answered. -/
def sealAgain (p : StepPart) (s : State) (e : PartEntry × Nat) : State :=
  match p.homeRec[e.2]? with
  | some r => sendSeal s p e.2 e.1 (p.participants.filter fun d => d ≠ s.device && !r.acked.contains d && !r.behind.contains d)
  | none => s

theorem resendSeals_decided {s : State} {ref : Nat} {p : StepPart} (hpart : partOf s ref = some p) (hdecided : ∀ r ∈ p.homeRec, r.decided = true) :
    resendSeals s ref = p.entries.zipIdx.foldl (sealAgain p) s := by
  simp only [resendSeals, hpart]
  congr 1
  funext u e
  cases hrec : p.homeRec[e.2]? with
  | none => simp only [sealAgain, hrec]
  | some r => simp only [sealAgain, hrec, hdecided r (List.mem_of_getElem? hrec), if_true]

/-- A prepared entry of a participant asks its home again; the query after eight posts STEP_IN_DOUBT (R267). -/
theorem prepQuery_prepared {s : State} {ref i : Nat} {p : StepPart} {e : PartEntry} (hpart : partOf s ref = some p) (hentry : p.entries[i]? = some e)
    (hprepared : e.prepared = true) (hlive : liveEntry e = true) (haway : isHome s p = false) :
    prepQuery s ref i =
      (let u := sendPrepared (modEntry s ref i fun e => { e with queries := e.queries + 1 }) ref i
       if e.queries = 8 then report u 0x0803 (ref % 2 ^ 24) 0 [ref, e.attempt] else u) := by
  simp only [prepQuery, hpart, hentry, hprepared, hlive, haway, Bool.not_true, Bool.or_self, Bool.false_eq_true, if_false]

/-! ### Their commands -/

theorem exec_stpSeal {s : State} (m : StepMsg) (h : live s) :
    exec (.stpSeal m) s = .next (keepFixed s (settleAll (sealParticipant (cleared s) m))) := run_whenLive _ h

section
variable {s : State} (h : serving s)
include h

theorem exec_stpPrepared (m : StepMsg) : exec (.stpPrepared m) s = .next (keepFixed s (settleAll (takePrepared (cleared s) m))) := run_act _ h

theorem exec_stpSealMirror (m : StepMsg) : exec (.stpSealMirror m) s = .next (keepFixed s (settleAll (sealMirror (cleared s) m))) := run_act _ h

theorem exec_stpSealAck (m : StepMsg) : exec (.stpSealAck m) s = .next (keepFixed s (settleAll (sealAck (cleared s) m))) := run_act _ h

theorem exec_sealRetryExpiry (ref : Nat) : exec (.sealRetryExpiry ref) s = .next (keepFixed s (settleAll (resendSeals (cleared s) ref))) :=
  run_act _ h

theorem exec_prepQueryExpiry (ref i : Nat) : exec (.prepQueryExpiry ref i) s = .next (keepFixed s (settleAll (prepQuery (cleared s) ref i))) :=
  run_act _ h

end

/-- Settles O26: each command runs behind its gate, where the record of the entry at the home, or the entry at a participant, selects the
lemma on what its message does. -/
theorem prepareAndSealMessages : Obligations.PrepareAndSealMessages := by
  refine ⟨?prepared, ?seals, ?entries, ?mirrors, ?acks, ?retries, ?queries⟩
  case prepared =>
    intro s m en h hentries u
    rw [exec_stpPrepared h m]
    exact ⟨fun p e r hpart hentry hrec =>
        ⟨fun hdecided => next_settleAll_congr (takePrepared_decided (s := u) hentries hpart hentry hrec hdecided),
          fun hopen hlive hkept hattempt => next_settleAll_congr (takePrepared_open (s := u) hentries hpart hentry hrec hopen hlive hkept hattempt)⟩,
      fun hpart => next_settleAll_congr (takePrepared_unknown (s := u) hentries hpart)⟩
  case seals => exact fun s m h => exec_stpSeal m h
  case entries =>
    intro s ref attempt src en p e x hpart hentry hsess
    refine ⟨sealOne_stale attempt src hpart hentry hsess, fun hcurrent => ⟨sealOne_committed attempt src hpart hentry hsess hcurrent, ?_⟩⟩
    rintro hopen hstep hprepared hlive rfl
    exact sealOne_prepared src hpart hentry hsess hcurrent hopen hstep hprepared hlive
  case mirrors => exact fun s m h => exec_stpSealMirror h m
  case acks =>
    intro s m en p e r x h hentries hpart hentry hrec hsess hok
    rw [exec_stpSealAck h m]
    refine ⟨fun hsent hopen hlive hsrc => ?mirror, fun hdecided => ?participant⟩
    case mirror => rw [sealAck_mirror (s := cleared s) hentries hpart hentry hrec hsess hsent hopen hlive hsrc hok]
    case participant =>
      rw [sealAck_decided (s := cleared s) hentries hpart hentry hrec hdecided, ackOne_ok (s := cleared s) hpart hentry hrec hdecided hok]
  case retries =>
    intro s ref p h hpart hdecided
    rw [exec_sealRetryExpiry h, resendSeals_decided (s := cleared s) hpart hdecided]
    rfl
  case queries =>
    intro s ref i p e h hpart hentry hprepared hlive haway u
    rw [exec_prepQueryExpiry h, prepQuery_prepared (s := cleared s) hpart hentry hprepared hlive haway]

end Sys2Proof.Machine
end

section
/-! SUPPORT. What STP_KILLED ends at the home, STP_ABORT at a participant and at the submitter, and how the hold of an early entry
ends (R255, R263, R271, R272), and the statement they settle. -/
namespace Sys2Proof.Machine

/-! ### STP_KILLED at the home (R271, R272) -/

section
variable {s : State} {ref : Nat} {p : StepPart} (i : Nat) {st : Status} {detail : Nat} (hpart : partOf s ref = some p)
include hpart

theorem homeKilled_attempt (hscope : attemptScope st detail = true) :
    homeKilled s ref i st detail = homeAbort s ref st detail (!(p.noRerun && st = .preempted)) := by
  simp only [homeKilled, hpart, hscope, if_true]

theorem homeKilled_session (hscope : attemptScope st detail = false) : homeKilled s ref i st detail = homeEnd s ref i st detail := by
  simp only [homeKilled, hpart, hscope, Bool.false_eq_true, if_false]

end

section
variable {s : State} {m : StepMsg} {en : StepEntry} {p : StepPart} {r : HomeEntry} {e : PartEntry} (hentries : m.entries = [en])
  (hpart : partOf s m.stepRef = some p) (hhome : isHome s p = true) (hrec : p.homeRec[en.index]? = some r)
  (hentry : p.entries[en.index]? = some e) (hopen : r.decided = false)
include hentries hpart hhome hrec hentry hopen

/-- A kill of attempt scope counts for the attempt in flight alone. -/
theorem takeKilled_attempt (hscope : attemptScope en.status en.detail = true) :
    takeKilled s m = if m.attempt = p.attempt then homeKilled s m.stepRef en.index en.status en.detail else s := by
  simp only [takeKilled, hpart, hhome, hentries, List.foldl_cons, List.foldl_nil, hrec, hentry, hopen, hscope, Bool.not_true, Bool.false_eq_true,
    if_false, if_true]

theorem takeKilled_session (hscope : attemptScope en.status en.detail = false) :
    takeKilled s m = homeKilled s m.stepRef en.index en.status en.detail := by
  simp only [takeKilled, hpart, hhome, hentries, List.foldl_cons, List.foldl_nil, hrec, hentry, hopen, hscope, Bool.not_true, Bool.false_eq_true,
    if_false]

end

/-! ### STP_ABORT (R263, R272) -/

/-- A submitted step after an abort: NEXT under one of its references raises the attempts counted. -/
def raiseAttempts (m : StepMsg) (t : Submitted) : Submitted :=
  if m.hasNext && t.refs.any (·.1 = m.stepRef) then { t with attempts := Nat.max t.attempts (m.next + 1) } else t

/-- The submitter's side of an abort. -/
def countAttempts (s : State) (m : StepMsg) : State :=
  { s with steps := { s.steps with submitted := s.steps.submitted.map (raiseAttempts m) } }

/-- The home_epoch that an entry of an abort brings is recorded by a participant that knew an older one. -/
def adoptAbortEpoch (s : State) (m : StepMsg) (en : StepEntry) (h : Nat) : State :=
  modSess s h fun x => if x.guest && serialLt 16 x.homeEpoch en.homeEpoch then { x with homeEpoch := en.homeEpoch, homeDev := m.src } else x

theorem takeAbort_noResubmit {s : State} {m : StepMsg} (hresubmit : m.resubmit = false) : takeAbort s m = abortPart (countAttempts s m) m := by
  simp only [takeAbort, hresubmit, Bool.false_eq_true, if_false]
  rfl

section
variable {s : State} {m : StepMsg} {en : StepEntry} {p : StepPart} {e : PartEntry} (hentries : m.entries = [en])
  (hpart : partOf s m.stepRef = some p) (haway : isHome s p = false) (hentry : p.entries[en.index]? = some e) (hattempt : e.attempt = m.attempt)
include hentries hpart haway hentry hattempt

/-- With NEXT the entry of the attempt queues for the attempt named, else it ends. -/
theorem abortPart_attempt :
    abortPart s m =
      (let u := adoptAbortEpoch s m en e.handle
       if m.hasNext then dropDone (modPart (requeueEntry u m.stepRef en.index m.next) m.stepRef fun p => { p with attempt := m.next }) m.stepRef
       else dropDone (endEntry u m.stepRef en.index .cancelled 0) m.stepRef) := by
  cases hnext : m.hasNext <;>
    simp only [abortPart, hpart, haway, hentries, List.foldl_cons, List.foldl_nil, hentry, hattempt, hnext, adoptAbortEpoch, ne_eq,
      not_true_eq_false, decide_false, Bool.false_and, Bool.false_eq_true, if_false, if_true]

end

/-! ### The hold of an early entry (R255) -/

section
variable {s : State} {ref i : Nat} {p : StepPart} {e : PartEntry} (hpart : partOf s ref = some p) (hentry : p.entries[i]? = some e)
  (hnew : e.admitted = false) (hlive : liveEntry e = true)
  (hwait : entryCheck s p e ((p.entries.take i).any fun y => y.handle = e.handle) = .wait)
include hpart hentry hnew hlive hwait

/-- An entry whose checks say that it waits stays as it is. -/
theorem checkEntry_wait : checkEntry s ref i = s := by
  simp only [checkEntry, hpart, hentry, hnew, hlive, hwait, Bool.not_true, Bool.or_self, Bool.false_eq_true, if_false]

theorem entryHoldOver_ahead {x : Session} (hsess : sessOf s e.handle = some x) (hahead : e.step = (x.step + 1) % 2 ^ 32) :
    entryHoldOver s ref i = failEntry s ref i .badHandle 0x6 := by
  simp only [entryHoldOver, checkEntry_wait hpart hentry hnew hlive hwait, hpart, hentry, hnew, hlive, hsess, ← hahead, Option.elim_some,
    decide_true, Bool.not_false, Bool.and_self, if_true]

end

/-! ### Their commands -/

section
variable {s : State} (h : serving s)
include h

theorem exec_stpKilled (m : StepMsg) : exec (.stpKilled m) s = .next (keepFixed s (settleAll (takeKilled (cleared s) m))) := run_act _ h

theorem exec_stpAbort (m : StepMsg) : exec (.stpAbort m) s = .next (keepFixed s (settleAll (takeAbort (cleared s) m))) := run_act _ h

theorem exec_stpEntryEarlyHoldExpiry (ref i : Nat) :
    exec (.stpEntryEarlyHoldExpiry ref i) s = .next (keepFixed s (settleAll (entryHoldOver (cleared s) ref i))) := run_act _ h

end

/-- Settles O27: each command runs behind its gate, where the scope of the cause selects what a kill does, NEXT what an abort does, and
the entry's checks what the end of its hold does. -/
theorem killsAbortsAndEntryHolds : Obligations.KillsAbortsAndEntryHolds := by
  refine ⟨?kills, ?aborts, ?holds⟩
  case kills =>
    intro s m en p r e h hentries hpart hhome hrec hentry hopen
    rw [exec_stpKilled h m]
    refine ⟨fun hscope hattempt => ?attempt, fun hscope hattempt => ?otherAttempt, fun hscope => ?session⟩
    case attempt =>
      rw [takeKilled_attempt (s := cleared s) hentries hpart hhome hrec hentry hopen hscope, if_pos hattempt,
        homeKilled_attempt (s := cleared s) en.index hpart hscope]
    case otherAttempt => rw [takeKilled_attempt (s := cleared s) hentries hpart hhome hrec hentry hopen hscope, if_neg hattempt]
    case session =>
      rw [takeKilled_session (s := cleared s) hentries hpart hhome hrec hentry hopen hscope,
        homeKilled_session (s := cleared s) en.index hpart hscope]
  case aborts =>
    intro s m en p e h hresubmit hentries hpart haway hentry hattempt up u v
    rw [exec_stpAbort h m, takeAbort_noResubmit hresubmit,
      abortPart_attempt (s := countAttempts (cleared s) m) hentries hpart haway hentry hattempt]
    rfl
  case holds =>
    intro s ref i p e x h hpart hentry hnew hlive hwait hsess hahead
    rw [exec_stpEntryEarlyHoldExpiry h, entryHoldOver_ahead (s := cleared s) hpart hentry hnew hlive hwait hsess hahead]

end Sys2Proof.Machine
end

section
/-! SUPPORT. What PFX_REMOVE withdraws, how the four requests of the inventory are answered, and what an answer, or a missing one,
leads to at the home (R326 to R328, R334 to R339), and the statement they settle. -/
namespace Sys2Proof.Machine

/-! ### PFX_REMOVE (R338) -/

theorem exec_pfxRemove {s : State} {sub : Sub} (ref flags : Nat) (h : accepts 2 s sub) :
    exec (.pfxRemove sub ref flags 0) s =
      .next (keepFixed s (settleAll (doRemove (promoteIfLost (taken s sub) sub.handle) sub ref flags 0))) := run_act_verb _ h

section
variable {s : State} {sub : Sub} {c : Ctx} (hhandle : sub.handle = 0) (hctx : tget? s.contexts sub.context = some c)
  (hcap : hasCap s 6 = true) (htorn : c.torn = none)
include hhandle hctx hcap htorn

/-- Without ALL and without a session, the node that node_ref names goes. -/
theorem doRemove_node {ref : Nat} {n : Nat × InvNode} (hnode : removeNode s sub.context ref none = .ok n) :
    doRemove s sub ref 0 0 = withdrawAll s sub (some n) := by
  simp [doRemove, hhandle, hctx, hcap, htorn, hnode]

/-- With ALL the whole context goes. -/
theorem doRemove_all : doRemove s sub 0 1 0 = withdrawAll s sub none := by
  simp [doRemove, hhandle, hctx, hcap, htorn]

end

/-! ### The four requests at another controller (R326, R328, R334, R339) -/

section
variable {s : State} {r : InvReq}

theorem takeProbe_lookup {p : Params} (hctx : ctxBad s r.context = none) (hparams : paramsOf s r.context = some p) :
    takeProbe s r =
      (let a := localLookup s r.src r.request r.handle p r.tokens r.fmt
       invAnswer a.1 r .ok 0 a.2.1 a.2.2 false) := by
  simp only [takeProbe, hctx, hparams]

/-- The tokens that the pins of the request keep. -/
def pinnedTokens (s : State) (r : InvReq) : List Nat := match pinsOf s r.src r.request with | some q => q.tokens | none => []

/-- A count other than 0 is committed in the record of the session, made from the pinned tokens where there is none. -/
theorem takeCommit_supplied (hctx : ctxBad s r.context = none) (hvalue : r.value ≠ 0) :
    takeCommit s r =
      (let a := commitLocal (invGuest s r (pinnedTokens s r)) r.src r.request r.handle r.value
       invAnswer a.1 r a.2.1 a.2.2 0 none false) := by
  simp only [takeCommit, hctx, hvalue, decide_false, Bool.false_and, Bool.false_eq_true, if_false]
  rfl

theorem takePublish_local (hctx : ctxBad s r.context = none) :
    takePublish s r =
      (let a := publishLocal s r.handle r.value r.pin
       invAnswer a.1 r a.2.1 0 a.2.2.indexed none a.2.2.slabPoint) := by
  simp only [takePublish, hctx]

theorem takeWithdraw_node {n : Nat × InvNode} (hall : r.all = false)
    (hnode : (s.inv.nodes.find? fun n => n.2.indexed && n.2.ctx = r.context && n.2.fmt = r.fmt && n.2.depth = r.value && n.2.hash = r.hash)
      = some n) :
    takeWithdraw s r = (let a := countWithdrawn (withdrawNode s n.1); invAnswer a.1 r .ok 0 a.2 none false) := by
  simp only [takeWithdraw, hall, hnode, Bool.false_eq_true, if_false]

end

/-! ### Answers to a lookup at the home (R327, R328) -/

section
variable {s : State} {src : Nat} {r : InvRsp} {l : Lookup}

/-- An answer with op 1 or 2 is for the lookup of the session it names. -/
theorem takeInvRsp_lookup (hop : r.op = 1 ∨ r.op = 2) (hlookup : (sessOf s r.handle).bind (·.lookup) = some l) :
    takeInvRsp s src r = lookupAnswer s src r l := by
  have hfor : (decide (r.op = 1) || decide (r.op = 2)) = true := by simpa using hop
  simp only [takeInvRsp, hfor, hlookup, if_true]

variable (hreq : l.req = r.request) (hwaits : l.waitingFor.contains src = true) (hok : r.status = .ok)
include hreq hwaits hok

/-- An answer to a PROBE is kept; the last one has the home decide t. -/
theorem lookupAnswer_probe (hop : r.op = 1) (hphase : l.committing = false) :
    lookupAnswer s src r l =
      (let l' := { l with waitingFor := l.waitingFor.erase src, answers := l.answers ++ [(src, r.value, r.points)] }
       let u := modSess s r.handle fun x => { x with lookup := some l' }
       if (l.waitingFor.erase src).isEmpty then lookupCommit u r.handle else u) := by
  simp only [lookupAnswer, hreq, hwaits, hok, hop, hphase, ne_eq, not_true_eq_false, decide_true, decide_false, Bool.not_true, Bool.not_false,
    Bool.or_self, Bool.and_self, Bool.false_eq_true, if_true, if_false]

/-- The last answer to a COMMIT completes the lookup with the t that was committed. -/
theorem lookupAnswer_commit (hop : r.op = 2) (hphase : l.committing = true) :
    lookupAnswer s src r l =
      (let u := modSess s r.handle fun x => { x with lookup := some { l with waitingFor := l.waitingFor.erase src } }
       if (l.waitingFor.erase src).isEmpty then lookupDone u r.handle l.t else u) := by
  simp only [lookupAnswer, hreq, hwaits, hok, hop, hphase, ne_eq, not_true_eq_false, decide_true, decide_false, Bool.not_true, Bool.or_self,
    Bool.and_false, Bool.and_self, Bool.false_eq_true, if_true, if_false]

end

/-! ### Answers to a publication or a withdrawal (R336 to R338) -/

section
variable {s : State} {src : Nat} {r : InvRsp}

theorem takeInvRsp_op (h1 : r.op ≠ 1) (h2 : r.op ≠ 2) : takeInvRsp s src r = opAnswer s src r := by
  simp only [takeInvRsp, h1, h2, decide_false, Bool.or_self, Bool.false_eq_true, if_false]

/-- An answer OK leaves the operation's status as it is; the last one finishes the operation. -/
theorem opAnswer_ok {o : InvOp} (hop : invOp s r.request = some o) (hwaits : o.waitingFor.contains src = true)
    (hkind : o.publish = true ↔ r.op = 3) (hok : r.status = .ok) :
    opAnswer s src r =
      (let o' := { o with waitingFor := o.waitingFor.erase src }
       let u := setInvOp s o'
       if o'.waitingFor.isEmpty then finishInvOp u o' else u) := by
  simp only [opAnswer, hop, hwaits, hkind, hok, ne_eq, not_true_eq_false, decide_false, Bool.not_true, Bool.or_self, Bool.and_false,
    Bool.false_and, Bool.false_eq_true, if_false]

end

theorem probeTimeout_lookup {s : State} {hd : Nat} {l : Lookup} (hlookup : (sessOf s hd).bind (·.lookup) = some l) :
    probeTimeout s hd = if l.committing then lookupFails s hd else lookupZero (noAnswer s) hd := by
  simp only [probeTimeout, hlookup]

/-! ### Their commands -/

section
variable {s : State} (h : serving s)
include h

theorem exec_invProbe (r : InvReq) : exec (.invProbe r) s = .next (keepFixed s (settleAll (takeProbe (cleared s) r))) := run_act _ h

theorem exec_invCommit (r : InvReq) : exec (.invCommit r) s = .next (keepFixed s (settleAll (takeCommit (cleared s) r))) := run_act _ h

theorem exec_invPublish (r : InvReq) : exec (.invPublish r) s = .next (keepFixed s (settleAll (takePublish (cleared s) r))) := run_act _ h

theorem exec_invWithdraw (r : InvReq) : exec (.invWithdraw r) s = .next (keepFixed s (settleAll (takeWithdraw (cleared s) r))) := run_act _ h

theorem exec_invRsp (src : Nat) (r : InvRsp) :
    exec (.invRsp src r) s = .next (keepFixed s (settleAll (takeInvRsp (cleared s) src r))) := run_act _ h

theorem exec_invProbeTimeout (hd : Nat) :
    exec (.invProbeTimeout hd) s = .next (keepFixed s (settleAll (probeTimeout (cleared s) hd))) := run_act _ h

theorem exec_invPinExpiry (src request : Nat) :
    exec (.invPinExpiry src request) s = .next (keepFixed s (settleAll (dropPins (cleared s) src request))) := run_act _ h

end

/-- Settles O18: each command runs behind its gate, where the checks of PFX_REMOVE and of the requests do not refuse, and the kind of an
answer and the phase of its lookup select what it leads to. -/
theorem inventoryVerbAndMessages : Obligations.InventoryVerbAndMessages := by
  refine ⟨?removesNode, ?removesAll, ?probes, ?commits, ?publishes, ?withdraws, ?probeAnswers, ?commitAnswers, ?opAnswers, ?timeouts, ?expiries⟩
  case removesNode =>
    intro s sub ref c n h _ hhandle u hctx hnode hcap htorn
    rw [exec_pfxRemove ref 0 h, hhandle, doRemove_node hhandle hctx hcap htorn hnode]
  case removesAll =>
    intro s sub c h hhandle u hctx hcap htorn
    rw [exec_pfxRemove 0 1 h, hhandle, doRemove_all hhandle hctx hcap htorn]
  case probes =>
    intro s r p h hctx hparams
    rw [exec_invProbe h r, takeProbe_lookup hctx hparams]
    rfl
  case commits =>
    intro s r h hctx hvalue
    rw [exec_invCommit h r, takeCommit_supplied hctx hvalue]
    rfl
  case publishes =>
    intro s r h hctx
    rw [exec_invPublish h r, takePublish_local hctx]
    rfl
  case withdraws =>
    intro s r n h hall hnode
    rw [exec_invWithdraw h r, takeWithdraw_node (s := cleared s) hall hnode]
    rfl
  case probeAnswers =>
    intro s src r l h hop hok hlookup hreq hwaits hphase
    rw [exec_invRsp h src r, takeInvRsp_lookup (s := cleared s) (.inl hop) hlookup, lookupAnswer_probe hreq hwaits hok hop hphase]
  case commitAnswers =>
    intro s src r l h hop hok hlookup hreq hwaits hphase
    rw [exec_invRsp h src r, takeInvRsp_lookup (s := cleared s) (.inr hop) hlookup, lookupAnswer_commit hreq hwaits hok hop hphase]
  case opAnswers =>
    intro s src r o h hkind hop hwaits hok
    have hkind : r.op ≠ 1 ∧ r.op ≠ 2 ∧ (o.publish = true ↔ r.op = 3) := by rcases hkind with ⟨e, hp⟩ | ⟨e, hp⟩ <;> simp [e, hp]
    obtain ⟨h1, h2, hkind⟩ := hkind
    rw [exec_invRsp h src r, takeInvRsp_op h1 h2, opAnswer_ok (s := cleared s) hop hwaits hkind hok]
  case timeouts =>
    intro s hd l h hlookup
    rw [exec_invProbeTimeout h hd, probeTimeout_lookup (s := cleared s) hlookup]
  case expiries => exact fun s src request h => exec_invPinExpiry h src request

end Sys2Proof.Machine
end

section
/-! SUPPORT. What the table swaps, the switch of a swap that waits, and the settings of the embedding row cache do (R347 to R349, R371,
R373), and the statement they settle. -/
namespace Sys2Proof.Machine

/-! ### The general checks of a TBL_SWAP (R45, R53) -/

theorem swapGate_passed {s : State} {sub : Sub} {c : Ctx} {cap level : Nat} (f : State → State)
    (hctx : tget? s.contexts sub.context = some c) (htorn : c.torn = none) (hcap : hasCap s cap = true) (hlevel : level ≤ s.attached) :
    swapGate s sub 0 cap level f = f s := by
  simp [swapGate, hctx, htorn, hcap, hlevel]

/-! ### LOAD (R347, R348) -/

section
variable {s : State} {sub : Sub} {slot flags length : Nat} {img : List Nat}

/-- A broken image is refused like a slot or flags out of range. -/
theorem doLoadTable_structure
    (hparse : parseTable slot img length ((vocabOf s sub.context).map (·.strings.length)) = .error .structure_) :
    doLoadTable s sub slot flags length img = complete s sub .versionMismatch 0x10 [] := by
  simp [doLoadTable, hparse, refuse]

variable (hslot : slot < 16) (hflags : flags < 2)
include hslot hflags

theorem doLoadTable_digest
    (hparse : parseTable slot img length ((vocabOf s sub.context).map (·.strings.length)) = .error .digest) :
    doLoadTable s sub slot flags length img = complete s sub .digestMismatch 0x1 [] := by
  simp [doLoadTable, hslot, hflags, hparse, refuse]

variable {body : TableBody} {dig : Nat}
  (hparse : parseTable slot img length ((vocabOf s sub.context).map (·.strings.length)) = .ok (body, dig))
  (hfits : tableFits s slot (tableSpace slot length) = true)
include hparse hfits

/-- The table that a LOAD brings into a slot: the loading context owns it. -/
def loadedTable (sub : Sub) (slot flags length : Nat) (body : TableBody) (dig : Nat) : Table :=
  { body := body, digest := dig, shared := flags = 1, owner := some sub.context, space := tableSpace slot length }

/-- Nothing works with an empty slot: its swap waits for no context. -/
theorem doLoadTable_empty (hempty : slotTable s slot = none) :
    doLoadTable s sub slot flags length img = admitSwap s sub (.load slot (loadedTable sub slot flags length body dig)) [] := by
  simp [doLoadTable, hslot, hflags, hparse, hfits, hempty, loadedTable]

/-- A table in the place of one that the context may replace: it fits the open sessions of the contexts that bind the slot, and waits
for their work, or clashes with them. -/
theorem doLoadTable_replaces {t : Table} (hheld : slotTable s slot = some t) (hown : t.owner = none ∨ t.owner = some sub.context) :
    doLoadTable s sub slot flags length img =
      if bodyClash t.body body && (bindersOf s slot).any (hasOpen s) then complete s sub .versionMismatch 0xF []
      else admitSwap s sub (.load slot (loadedTable sub slot flags length body dig)) (bindersOf s slot) := by
  have howner : t.owner.getD sub.context = sub.context := by rcases hown with e | e <;> simp [e]
  simp [doLoadTable, hslot, hflags, hparse, hfits, hheld, howner, loadedTable, refuse, openBinders]

end

/-! ### BIND (R348, R349) -/

/-- A context may bind the table in a slot: it is shared, or nobody else's (order 3 of R348). -/
def mayBind (s : State) (ctx : Nat) (i : Option Nat) : Bool :=
  match i.bind (slotTable s) with
  | some t => t.shared || t.owner.isNone || t.owner = some ctx
  | none => true

/-- The checks of a BIND whose block parses, in the order of R348. -/
theorem doBindTable_parsed {s : State} {sub : Sub} {block : List Nat} {b : Binding} (hparse : parseBind s block = some b) :
    doBindTable s sub 0 64 block =
      if !bindVocabOk s b then refuse s sub .versionMismatch 0x10
      else if s.attached < 3 && b.constr.isSome then refuse s sub .versionMismatch 0x2
      else if !(mayBind s sub.context b.vocab && mayBind s sub.context b.embed && mayBind s sub.context b.constr) then
        refuse s sub .protection 0x5
      else if bindClash s sub.context b then refuse s sub .versionMismatch 0xF
      else admitSwap s sub (.bind sub.context b) (if hasOpen s sub.context then [sub.context] else []) := by
  simp only [doBindTable, hparse, ne_eq, not_true_eq_false, decide_false, Bool.or_self, Bool.false_eq_true, if_false]
  rfl

theorem doBindTable_admits {s : State} {sub : Sub} {block : List Nat} {b : Binding} (hparse : parseBind s block = some b)
    (hvocab : bindVocabOk s b = true) (hlevel : b.constr.isSome = true → 3 ≤ s.attached)
    (hmay : ([b.vocab, b.embed, b.constr].all (mayBind s sub.context)) = true) (hclash : bindClash s sub.context b = false) :
    doBindTable s sub 0 64 block = admitSwap s sub (.bind sub.context b) (if hasOpen s sub.context then [sub.context] else []) := by
  have hlevel : ¬((decide (s.attached < 3) && b.constr.isSome) = true) := by
    rw [Bool.and_eq_true, decide_eq_true_eq]
    exact fun ⟨hlow, hconstr⟩ => absurd (hlevel hconstr) (Nat.not_le.mpr hlow)
  have hmay : (mayBind s sub.context b.vocab && mayBind s sub.context b.embed && mayBind s sub.context b.constr) = true := by
    simpa [and_assoc] using hmay
  rw [doBindTable_parsed hparse, if_neg (by simp [hvocab]), if_neg hlevel, if_neg (by simp [hmay]), if_neg (by simp [hclash])]

/-! ### FREE (R347, R348) -/

theorem doFreeTable_empty {s : State} {sub : Sub} {slot : Nat} (hslot : slot < 16) (hempty : slotTable s slot = none) :
    doFreeTable s sub 3 slot 0 = complete s sub .ok 0 [] := by
  simp [doFreeTable, hslot, hempty]

theorem doFreeTable_unbound {s : State} {sub : Sub} {slot : Nat} {t : Table} (hslot : slot < 16) (hheld : slotTable s slot = some t)
    (hown : t.owner = none ∨ t.owner = some sub.context) (hunbound : bindersOf s slot = []) :
    doFreeTable s sub 3 slot 0 = admitSwap s sub (.free slot) [] := by
  rcases hown with howner | howner <;> simp [doFreeTable, hslot, hheld, hunbound, howner]

/-! ### The switch of a swap that waits (R373) -/

theorem switchNext_finishes {s : State} {w : Swap} (hfirst : (s.tok.swaps.find? fun w => !swapBusy s w) = some w) :
    switchNext s = finishSwap s w := by
  simp only [switchNext, hfirst]

/-! ### Their commands -/

section
variable {s : State} {sub : Sub} {c : Ctx} (h : accepts 2 s sub) (hctx : tget? s.contexts sub.context = some c) (htorn : c.torn = none)
include h hctx htorn

theorem exec_tblSwapLoad {slot : Nat} (flags length : Nat) (img : List Nat) (hcap : hasCap (taken s sub) (slotCap slot) = true)
    (hlevel : 8 ≤ slot → 3 ≤ s.attached) :
    exec (.tblSwapLoad sub slot flags length 0 img) s =
      .next (keepFixed s (settleAll (doLoadTable (taken s sub) sub slot flags length img))) := by
  have hlevel : (if 8 ≤ slot then 3 else 0) ≤ s.attached := by split <;> simp [*]
  exact (run_act_verb _ h).trans (next_settleAll_congr (swapGate_passed (s := taken s sub) _ hctx htorn hcap hlevel))

theorem exec_tblSwapBind (flags length : Nat) (block : List Nat) (hcap : hasCap (taken s sub) 8 = true) :
    exec (.tblSwapBind sub flags length 0 block) s =
      .next (keepFixed s (settleAll (doBindTable (taken s sub) sub flags length block))) :=
  (run_act_verb _ h).trans (next_settleAll_congr (swapGate_passed (s := taken s sub) _ hctx htorn hcap (Nat.zero_le _)))

theorem exec_tblSwapFree {slot : Nat} (op flags : Nat) (hcap : hasCap (taken s sub) (slotCap slot) = true) :
    exec (.tblSwapFree sub op slot flags 0) s =
      .next (keepFixed s (settleAll (doFreeTable (taken s sub) sub op slot flags))) :=
  (run_act_verb _ h).trans (next_settleAll_congr (swapGate_passed (s := taken s sub) _ hctx htorn hcap (Nat.zero_le _)))

end

theorem exec_tableSwitch {s : State} (h : serving s) : exec .tableSwitch s = .next (keepFixed s (settleAll (switchNext (cleared s)))) :=
  run_act _ h

theorem exec_embDecay {s : State} (h : serving s) :
    exec .embDecay s = .next { cleared s with tok := { s.tok with cache := s.tok.cache.map fun r => { r with uses := r.uses / 2 } } } :=
  run_whenUp _ h

theorem exec_embCfgWrite {s : State} (w : RegWrite) (h : hostReaches s) :
    exec (.embCfgWrite w) s = .next (keepFixed s (embCfgWrite (written s) w)) := run_hostAccess _ h

/-! ### EMB_CFG (R371) -/

/-- Values in range are stored, and a mode other than the old one empties the cache. -/
theorem embCfgWrite_inRange {s : State} {w : RegWrite} {m d k : Nat}
    (hmode : wget w Reg.EMB_CFG.mode = some m) (hmodeOk : limOk Reg.EMB_CFG.mode.lim m = true)
    (hdecay : wget w Reg.EMB_CFG.decay_us = some d) (hdecayOk : limOk Reg.EMB_CFG.decay_us.lim d = true)
    (hdepth : wget w Reg.EMB_CFG.depth = some k) (hdepthOk : limOk Reg.EMB_CFG.depth.lim k = true) :
    embCfgWrite s w =
      (let u := setFld (setFld (setFld s Reg.EMB_CFG.mode m) Reg.EMB_CFG.decay_us d) Reg.EMB_CFG.depth k
       if fld u Reg.EMB_CFG.mode = fld s Reg.EMB_CFG.mode then u else { u with tok := { u.tok with cache := [] } }) := by
  simp only [embCfgWrite, List.foldl_cons, List.foldl_nil, hmode, hmodeOk, hdecay, hdecayOk, hdepth, hdepthOk, if_true]

/-- Settles O19: each command runs behind its gate; a LOAD goes by what its image parses to and what its slot holds, and the lemmas on
binds, frees, the switch and EMB_CFG say what the others do. -/
theorem tableSwapsAndEmbeddingCache : Obligations.TableSwapsAndEmbeddingCache := by
  refine ⟨?loads, ?binds, ?frees, ?switches, fun s h => exec_embDecay h, ?configures⟩
  case loads =>
    intro s sub slot flags length img c h u old own hlevel hslot hflags hctx htorn hcap hown hfits
    rw [exec_tblSwapLoad h hctx htorn flags length img hcap hlevel]
    apply next_settleAll_congr
    split
    next hparse => exact doLoadTable_structure hparse
    next hparse => exact doLoadTable_digest hslot hflags hparse
    next body dig hparse =>
      cases hheld : slotTable s slot with
      | none =>
        have hempty : old = none := hheld
        rw [hempty]
        exact doLoadTable_empty (s := u) hslot hflags hparse hfits hheld
      | some t =>
        have hold : old = some t := hheld
        have hown : t.owner = none ∨ t.owner = some sub.context := by simpa [own, hold] using hown
        rw [hold]
        exact doLoadTable_replaces (s := u) hslot hflags hparse hfits hheld hown
  case binds =>
    intro s sub block c b h u hctx htorn hcap hparse hvocab hlevel hmay hclash
    rw [exec_tblSwapBind h hctx htorn 0 64 block hcap, doBindTable_admits hparse hvocab hlevel hmay hclash]
  case frees =>
    intro s sub slot c h hslot u hctx htorn hcap
    rw [exec_tblSwapFree h hctx htorn 3 0 hcap]
    exact ⟨fun hempty => next_settleAll_congr (doFreeTable_empty (s := u) hslot hempty),
      fun t hheld hown hunbound => next_settleAll_congr (doFreeTable_unbound (s := u) hslot hheld hown hunbound)⟩
  case switches =>
    intro s w h hfirst
    rw [exec_tableSwitch h, switchNext_finishes (s := cleared s) hfirst]
  case configures =>
    intro s w m d k h hmode hmodeOk hdecay hdecayOk hdepth hdepthOk u
    rw [exec_embCfgWrite w h, embCfgWrite_inRange hmode hmodeOk hdecay hdecayOk hdepth hdepthOk]
    rfl

end Sys2Proof.Machine
end

section
/-! SUPPORT. What the end of tokenizing does, how a LOGITS message is judged, and what a sampler draws (R353, R355, R357, R358, R360 to
R363), and the statement they settle. -/
namespace Sys2Proof.Machine

/-! ### The end of tokenizing (R353, R355) -/

theorem tokenizeDone_served {s : State} {hd : Nat} {i : Input} {v : Vocab} (hnext : nextInputOf s = some (hd, i))
    (hvocab : vocabOf s (hCtx hd) = some v) :
    tokenizeDone s =
      serveNext (inputReady s hd (tokenizeText v (fld s Reg.TOK_CFG.head) (fld s Reg.TOK_CFG.tail) i.inLen i.data)
        (decide (textLimit < i.inLen))) := by
  simp only [tokenizeDone, hnext, hvocab]

/-! ### The form of a LOGITS message (R357, R358) -/

/-- What breaks the form of a LOGITS message for a vocabulary of `v` tokens. -/
def malformedLogits (m : LogitsMsg) (rsv v : Nat) : Prop :=
  rsv ≠ 0 ∨ 3 ≤ m.fmt ∨ m.count = 0 ∨ m.count ≠ m.values.length ∨ v < m.first + m.count

theorem logitsBad_malformed {m : LogitsMsg} {rsv v : Nat} (x : Session) (hform : malformedLogits m rsv v) :
    logitsBad x m rsv v = some (.versionMismatch, 0x7) := by
  refine if_pos ?_
  simpa [malformedLogits, or_assoc] using hform

/-- The checks of a message of good form: the tokens that slices cover already, then the step. -/
theorem logitsBad_wellFormed {m : LogitsMsg} {rsv v : Nat} (x : Session) (hform : ¬malformedLogits m rsv v) :
    logitsBad x m rsv v =
      if ∃ g ∈ x.logits, m.first < g.first + g.values.length ∧ g.first < m.first + m.count then some (.versionMismatch, 0x9)
      else if m.step = x.step then none else some (.badHandle, 0x6) := by
  unfold logitsBad
  rw [if_neg (by simpa [malformedLogits, or_assoc] using hform)]
  simp only [List.any_eq_true, Bool.and_eq_true, decide_eq_true_eq, ite_not]

/-! ### LOGITS at the home (R358) -/

theorem takeLogits_noPart {s : State} {m : LogitsMsg} (rsv : Nat) (hpart : partOf s m.stepRef = none) :
    takeLogits s m rsv = bump s Reg.SMP_COUNT.stale := by
  cases hsess : sessOf s m.handle <;> simp only [takeLogits, hsess, hpart]

/-- The slices of a session with that of a message. -/
def slicesWith (x : Session) (m : LogitsMsg) : List LogitSlice := x.logits ++ [{ first := m.first, fmt := m.fmt, values := m.values }]

/-- The size of the vocabulary that a session's context binds, 0 where it binds none. -/
def vocabSize (s : State) (hd : Nat) : Nat := (vocabOf s (hCtx hd)).elim 0 (·.strings.length)

/-- What a LOGITS message for entry `i` of its step does, whose session is `x`: it ends the entry, or its slice is kept. -/
def judgeLogits (s : State) (m : LogitsMsg) (rsv i : Nat) (x : Session) : State :=
  match logitsBad x m rsv (vocabSize s m.handle) with
  | some (st, d) => failEntry s m.stepRef i st d
  | none =>
    let full := logitsCovered (slicesWith x m) (vocabSize s m.handle)
    let u := setSess s { x with logits := slicesWith x m, covered := full, coveredAt := if full then some s.tok.nextInput else x.coveredAt }
    if full then
      modPart { u with tok := { u.tok with nextInput := u.tok.nextInput + 1 } } m.stepRef fun p => { p with logitsAt := some u.timebase }
    else u

section
variable {s : State} {m : LogitsMsg} {i : Nat} {x : Session}

/-- A message of the attempt under way, of a session homed here, is judged. -/
theorem takeLogits_judges {p : StepPart} {e : PartEntry} (rsv : Nat) (hsess : sessOf s m.handle = some x)
    (hpart : partOf s m.stepRef = some p) (hguest : x.guest = false) (hhome : isHome s p = true) (hindex : entryIndex p m.handle = some i)
    (hentry : p.entries[i]? = some e) (hlive : liveEntry e = true) (hstarted : e.started = true) (hattempt : e.attempt = m.attempt) :
    takeLogits s m rsv = judgeLogits s m rsv i x := by
  have hhere : (x.guest || !isHome s p) = false := by rw [hguest, hhome]; rfl
  simp only [takeLogits, hsess, hpart, hhere, hindex, hentry, hlive, hstarted, hattempt, ne_eq, not_true_eq_false, decide_false,
    Bool.not_true, Bool.or_self, Bool.false_eq_true, if_false]
  rfl

variable {rsv : Nat}

theorem judgeLogits_bad {st : Status} {d : Nat} (hbad : logitsBad x m rsv (vocabSize s m.handle) = some (st, d)) :
    judgeLogits s m rsv i x = failEntry s m.stepRef i st d := by
  simp only [judgeLogits, hbad]

variable (hgood : logitsBad x m rsv (vocabSize s m.handle) = none)
include hgood

/-- Slices that do not cover the vocabulary yet leave the session's order of coverage as it was. -/
theorem judgeLogits_partial (hcover : logitsCovered (slicesWith x m) (vocabSize s m.handle) = false) :
    judgeLogits s m rsv i x = setSess s { x with logits := slicesWith x m, covered := false } := by
  simp only [judgeLogits, hgood, hcover, Bool.false_eq_true, if_false]

theorem judgeLogits_covers (hcover : logitsCovered (slicesWith x m) (vocabSize s m.handle) = true) :
    judgeLogits s m rsv i x =
      (let u := setSess s { x with logits := slicesWith x m, covered := true, coveredAt := some s.tok.nextInput }
       modPart { u with tok := { u.tok with nextInput := u.tok.nextInput + 1 } } m.stepRef fun p => { p with logitsAt := some u.timebase }) := by
  simp only [judgeLogits, hgood, hcover, if_true]

end

/-! ### The sampler (R360 to R363) -/

/-- A session whose turn has come leaves the order of coverage. -/
def leaveTurn (s : State) (hd : Nat) : State := modSess s hd fun x => { x with coveredAt := none }

/-- A draw is counted, its fall-back is counted and reported, and its token is fixed. -/
def fixDrawn (s : State) (x : Session) (v : Vocab) : State :=
  let draw := chooseToken s x v
  let c := bump s Reg.SMP_COUNT.samples
  fixToken (if draw.2 then report (bump c Reg.SMP_COUNT.fallback) 0x0B02 (hSerial x.handle) 0 [x.handle, x.step] else c) x.handle draw.1 v

/-- A token that is fixed already stands; either way the seal goes on. -/
theorem sampleNext_draws {s : State} {x : Session} {v : Vocab} (hnext : nextSample s = some x)
    (hvocab : vocabOf (leaveTurn s x.handle) (hCtx x.handle) = some v) :
    sampleNext s =
      (let w := if x.fixed then leaveTurn s x.handle else fixDrawn (leaveTurn s x.handle) x v
       trySeal w (flightOf w x.handle).1 (flightOf w x.handle).2) := by
  unfold leaveTurn at hvocab
  simp only [sampleNext, hnext, hvocab]
  rfl

/-! ### Their commands -/

section
variable {s : State} (h : serving s)
include h

theorem exec_logits (m : LogitsMsg) (rsv : Nat) :
    exec (.logits m rsv) s = .next (keepFixed s (settleAll (takeLogits (promoteIfLost (cleared s) m.handle) m rsv))) := run_act _ h

variable (hrun : s.clk.inReset.contains 18 = false)
include hrun

theorem exec_tokenizeComplete : exec .tokenizeComplete s = .next (keepFixed s (settleAll (tokenizeDone (cleared s)))) :=
  (run_act _ h).trans (next_settleAll_congr (if_neg (ne_true_of_eq_false hrun)))

theorem exec_samplerDraw : exec .samplerDraw s = .next (keepFixed s (settleAll (sampleNext (cleared s)))) :=
  (run_act _ h).trans (next_settleAll_congr (if_neg (ne_true_of_eq_false hrun)))

end

/-- Settles O28: each command runs behind its gate, where a LOGITS message of the attempt under way is judged by its form and by what
the slices cover, and one without a part is stale. -/
theorem tokenizingLogitsAndSampling : Obligations.TokenizingLogitsAndSampling := by
  refine ⟨?tokenizes, ?judges, ?stale, fun x m rsv v => ⟨logitsBad_malformed x, ?wellFormed⟩, ?draws⟩
  case tokenizes =>
    intro s hd i v h hrun hnext hvocab
    rw [exec_tokenizeComplete h hrun, tokenizeDone_served (s := cleared s) hnext hvocab]
    rfl
  case judges =>
    intro s m rsv i x p e h u v sl hsess hpart hguest hhome hindex hentry hlive hstarted hattempt
    rw [exec_logits h, takeLogits_judges rsv hsess hpart hguest hhome hindex hentry hlive hstarted hattempt]
    exact ⟨fun st d hbad => next_settleAll_congr (judgeLogits_bad hbad),
      fun hgood hcover => next_settleAll_congr (judgeLogits_partial hgood hcover),
      fun hgood hcover => next_settleAll_congr (judgeLogits_covers hgood hcover)⟩
  case stale =>
    intro s m rsv h u hpart
    rw [exec_logits h, takeLogits_noPart rsv hpart]
  case wellFormed =>
    intro hrsv hfmt hcount hlength hrange
    have hform : ¬malformedLogits m rsv v := by unfold malformedLogits; omega
    rw [logitsBad_wellFormed x hform]
    refine ⟨fun hover => if_pos hover, fun hapart => if_neg ?_⟩
    rintro ⟨g, hmem, hover⟩
    have := hapart g hmem
    omega
  case draws =>
    intro s x v h hrun hnext hd u draw c w hvocab
    rw [exec_samplerDraw h hrun, sampleNext_draws (s := cleared s) hnext hvocab]
    rfl

end Sys2Proof.Machine
end

section
/-! SUPPORT. Through which gate each command reaches its effect, and the statements about every step that follow: the queue, what
stops a block, its identity, power off, a thermal trip (R541, R567, R594, R595, R610, R621). -/
namespace Sys2Proof.Machine

/-! ### The gate of each command -/

/-- What an operation of the TAP leaves of a tripped block: its clocks and pins, and the host port. -/
def TrippedKept (f : State → State) : Prop :=
  ∀ u : State, u.clk.phase = .tripped → (f u).clk = u.clk ∧ (f u).host = u.host

/-- An effect behind a gate: full service, a live block, the monitor's, the TAP's. -/
inductive Gated (s : State) : Host.Outcome State Fault Refusal → Prop
  | up (f : State → State) : Gated s (run s (whenUp f))
  | live (f : State → State) : Gated s (run s (whenLive f))
  | criti (full priv : Bool) (malformed absent : State → Bool) (f : State → State) : Gated s (run s (critiGate full priv malformed absent f))
  | tap (f : State → State) (h : TrippedKept f) : Gated s (run s (onTap f))

/-- The commands with conditions of their own. -/
inductive Ungated : Instr → Prop
  | pwrOkRise (devid : Nat) (rst perst mfg : Bool) : Ungated (.pwrOkRise devid rst perst mfg)
  | pwrOkFall (ns : Nat) : Ungated (.pwrOkFall ns)
  | sysRstNFall : Ungated .sysRstNFall
  | sysRstNRise : Ungated .sysRstNRise
  | perstNAssert : Ungated .perstNAssert
  | perstNDeassert : Ungated .perstNDeassert
  | firmwareWatchdogExpiry : Ungated .firmwareWatchdogExpiry
  | warmSaveComplete (us : Nat) : Ungated (.warmSaveComplete us)
  | warmSaveTimeout : Ungated .warmSaveTimeout
  | warmStart (a b c d e : Bool) : Ungated (.warmStart a b c d e)
  | thermTrip : Ungated .thermTrip
  | critiWr (addr value : Nat) : Ungated (.critiWr addr value)

theorem running_tripped {s : State} (h : s.clk.phase = .tripped) : running s = false := by
  unfold running; rw [h]

theorem trippedKept_driving (code : Nat) (bypass : Bool) : TrippedKept (driving code bypass) := by
  intro u h
  have hpin : heldByPin u = false := by simp [heldByPin, h]
  unfold driving
  rw [hpin]
  exact ⟨rfl, rfl⟩

theorem trippedKept_debugAccess (space addr rsv : Nat) (write : Bool) (f : State → State) :
    TrippedKept (debugAccess space addr rsv write f) := by
  intro u h
  have hrun : running (loadIr u 0x11 none false) = false := running_tripped h
  simp only [debugAccess, hrun]
  exact ⟨rfl, rfl⟩

theorem trippedKept_dbgAuth (level slot rsv r t : Nat) :
    TrippedKept fun s =>
      let s := loadIr s 0x10 none false
      if running s && mayChallenge s s.dbg.jtag then
        let (s, c) := drawChallenge s
        let s := emit { s with dbg := { s.dbg with jtag := { s.dbg.jtag with challenge := some c } } } (.tdo 800 (leNat c))
        jtagAnswer s level slot rsv r t
      else emit s (.tdo 800 0) := by
  intro u h
  have hrun : running (loadIr u 0x10 none false) = false := running_tripped h
  simp only [hrun]
  exact ⟨rfl, rfl⟩

theorem gated_hostActL (s : State) (f : State → State) : Gated s (run s (hostActL f)) :=
  .live fun u => if u.host.inReset then u else settleWhole (f (dropShadow u))

theorem exec_gated (c : Instr) (s : State) : Gated s (exec c s) ∨ Ungated c := by
  cases c
  case pwrOkRise => exact .inr (.pwrOkRise ..)
  case pwrOkFall => exact .inr (.pwrOkFall _)
  case sysRstNFall => exact .inr .sysRstNFall
  case sysRstNRise => exact .inr .sysRstNRise
  case perstNAssert => exact .inr .perstNAssert
  case perstNDeassert => exact .inr .perstNDeassert
  case firmwareWatchdogExpiry => exact .inr .firmwareWatchdogExpiry
  case warmSaveComplete => exact .inr (.warmSaveComplete _)
  case warmSaveTimeout => exact .inr .warmSaveTimeout
  case warmStart => exact .inr (.warmStart ..)
  case thermTrip => exact .inr .thermTrip
  case critiWr => exact .inr (.critiWr ..)
  case critiHelp | critiVer | critiStat | critiCap | critiTemp | critiRails | critiClk | critiLink | critiEvt | critiRd | critiBaud |
      critiAuth | critiExit | critiReset | critiBadLine =>
    exact .inl (.criti ..)
  case extest | clamp | highz | extestPulse | extestTrain => exact .inl (.tap _ (trippedKept_driving _ _))
  case jtagTestLogicReset | samplePreload | idcode | bypass => exact .inl (.tap _ fun _ _ => ⟨rfl, rfl⟩)
  case dbgAuth => exact .inl (.tap _ (trippedKept_dbgAuth _ _ _ _ _))
  case dbgAccessRead | dbgAccessWrite => exact .inl (.tap _ (trippedKept_debugAccess _ _ _ _ _))
  case lnkCtlRetrain | lnkCtlEnableWrite | shaperConfigWrite | layLoad | layProgramSlot => exact .inl (gated_hostActL _ _)
  case submissionTail | completionHead | outputHead | eventHead | badDoorbell | cmdEntryWrite | cmdStatusAbort | denTestCtlGo | stpSeal |
      vsrLoad | vsrFree | camLookupCtlGo | ckpHandoverGo | ckpTrunkDel | connCreate | connDestroy | connRead | rmaMrCtlGo | hello | resume |
      retry | creditSync | creditSyncTimer | tsync | tsyncTimer | heartbeat | expressSuspend | expressResume | expressResumeTimer |
      keyNonce | keyConfirm | keyRekey | keyRekeyAck | keyFail | rekeyStart | rekeyResendTimer | oldKeyExpiry | dataFlit | replayTimeout |
      frameReceive | tack | retxTimer | epochHoldExpiry | linkSignalDetect | linkDownDetected | linkHoldExpiry | linkTrainRetry |
      shaperRefill | tunnelSegment | reassemblyTimeout | ethernetFrameReceive |
      ptpMessage | ethHoldExpiry | hatTallyAdd | embCfgWrite | mntAtticScrub | mntSpareIn | mntLinkRetrain |
      mntNvmeFwActivate | ringCfg | oRingCfg | topSnapFreeze | topSnapRelease | hatHistSnap | hatHistClear | hatTrkSelWrite | secMeasSnap |
      bar0ReadLowHalf | registerWrite | lockdown | setDomainKey | setLinkKey | setTrunkKey | clearKey | enrollSlot | revokeSlot |
      getVersion | getCapabilities | negotiateAlgorithms | getDigests | getCertificate | challenge | getMeasurements | keyExchange |
      finish | spdmHeartbeat | keyUpdate | endSession | secIslandResync | clkResetWarm | clkResetCold | referenceMonitorWindow |
      oscMonitorWindow | thermalThrottleTick | flitBoundary | idleFlit | ethTrainingComplete | droopEvent =>
    exact .inl (.live _)
  all_goals exact .inl (.up _)

/-! ### What a command answers -/

theorem next_keepFixed_congr {s t u : State} (h : t = u) :
    (.next (keepFixed s t) : Host.Outcome State Fault Refusal) = .next (keepFixed s u) := by rw [h]

theorem Gated.answers {s : State} {o : Host.Outcome State Fault Refusal} (h : Gated s o) : ∃ t, o = .next (keepFixed s t) := by
  cases h with
  | up | live | criti | tap => exact ⟨_, rfl⟩

/-- A next state that keeps the queue, the part and the stepping; or the stop of R594. -/
theorem exec_answers (c : Instr) (s : State) :
    (∃ t, exec c s = .next (keepFixed s t)) ∨
    (exec c s = .fault .manufacturingMode ∧ s.clk.phase = .off ∧ ∃ devid rst perst, c = .pwrOkRise devid rst perst true) := by
  rcases exec_gated c s with h | h
  · exact .inl h.answers
  · cases h with
    | pwrOkRise devid rst perst mfg =>
      by_cases hstop : (s.clk.phase = .off && mfg) = true
      · have hoff : s.clk.phase = .off ∧ mfg = true := by simpa using hstop
        obtain ⟨hoff, rfl⟩ := hoff
        exact .inr ⟨if_pos hstop, hoff, _, _, _, rfl⟩
      · exact .inl ⟨_, if_neg hstop⟩
    | pwrOkFall | sysRstNFall | sysRstNRise | perstNAssert | perstNDeassert | firmwareWatchdogExpiry | warmSaveComplete |
      warmSaveTimeout | warmStart | thermTrip | critiWr => exact .inl ⟨_, rfl⟩

theorem step_front {s : State} {c : Instr} {rest : List Instr} (h : s.pending = c :: rest) :
    step s = exec c { s with pending := rest } := by
  unfold step; rw [h]

/-- A step's next state keeps the part and the stepping, and the queue's rest. -/
theorem step_keeps {s t : State} (h : step s = .next t) :
    t.part = s.part ∧ t.stepping = s.stepping ∧ t.pending = s.pending.tail := by
  cases hq : s.pending with
  | nil =>
    rw [step_empty hq] at h
    injection h with h
    subst h
    exact ⟨rfl, rfl, hq⟩
  | cons c rest =>
    rw [step_front hq] at h
    rcases exec_answers c { s with pending := rest } with ⟨u, hu⟩ | ⟨hf, _⟩
    · rw [hu] at h
      injection h with h
      subst h
      exact ⟨rfl, rfl, rfl⟩
    · rw [hf] at h
      cases h

/-- Settles O1: the outcome of the front command holds the queue's rest, as every outcome does. -/
theorem stepRunsQueueFront : Obligations.StepRunsQueueFront := by
  intro s c rest h
  refine ⟨step_front h, fun t ht => ?_⟩
  obtain ⟨_, _, hq⟩ := step_keeps ht
  rw [hq, h]
  rfl

/-- Settles O3: behind its gate a command answers a next state; of the others PWR_OK_RISE alone can stop. -/
theorem onlyManufacturingModeStops : Obligations.OnlyManufacturingModeStops := by
  intro c s
  rcases exec_answers c s with ⟨t, ht⟩ | h
  · exact .inl ⟨_, ht⟩
  · exact .inr h

/-- Settles O4: PWR_OK_RISE with MFG_MODE high takes the branch of the stop in a block that is off. -/
theorem manufacturingModeStopsThere : Obligations.ManufacturingModeStopsThere := by
  intro s devid rst perst hoff
  exact if_pos (by simp [hoff])

/-! ### Identity (R567, R621) -/

/-- The fields of TOP_ID follow from the part and the stepping. -/
theorem liveField_topId (s : State) :
    liveField s Reg.TOP_ID.pci_device [] = pciDevice s.part % 2 ^ 16 ∧
    liveField s Reg.TOP_ID.pci_vendor [] = Config.pciVendor % 2 ^ 16 ∧
    liveField s Reg.TOP_ID.part [] = (match s.part with | .rb4816 => 1 | .rb4812 => 2 | .rb4808 => 3) ∧
    liveField s Reg.TOP_ID.stepping [] = s.stepping % 2 ^ 8 := by
  refine ⟨rfl, rfl, ?_, rfl⟩
  have hcode : liveField s Reg.TOP_ID.part [] = (match s.part with | .rb4816 => 1 | .rb4812 => 2 | .rb4808 => 3) % 2 ^ 8 := rfl
  rw [hcode]
  cases s.part <;> rfl

/-- Settles O5: every step keeps part and stepping, and TOP_ID and IDCODE follow from them. -/
theorem identityReadsSameAfterEveryStep : Obligations.IdentityReadsSameAfterEveryStep := by
  rintro p k s t ⟨rfl, rfl, _⟩ hstep
  obtain ⟨hpart, hstepping, _⟩ := step_keeps hstep
  refine ⟨⟨hpart, hstepping, ?_⟩, ?_⟩
  · rw [← hpart, ← hstepping]
    exact liveField_topId t
  · unfold idcode
    rw [hpart, hstepping]

/-- Settles O6: the fields of TOP_ID, at the part and the stepping of the reset state. -/
theorem identityOfTheResetState : Obligations.IdentityOfTheResetState := liveField_topId State.reset

/-! ### Power off (R541, R595) -/

theorem Gated.off {s : State} {o : Host.Outcome State Fault Refusal} (h : Gated s o) (hoff : s.clk.phase = .off) : o = .next (cleared s) := by
  cases h with
  | up f => exact shutUp s f (.inl hoff)
  | live f => exact shutLive s f (.inl hoff)
  | criti full priv malformed absent f => exact shutCriti s full priv malformed absent f (.inl hoff)
  | tap f => exact shutTap s f hoff

theorem run_eq {s t : State} {f : State → State} (h : f (cleared s) = t) : run s f = .next (keepFixed s t) := by
  rw [← h]
  rfl

/-- An effect that leaves the state leaves it but for the outputs. -/
theorem run_same {s : State} {f : State → State} (h : f (cleared s) = cleared s) : run s f = .next (cleared s) := run_eq h

theorem settleHost_shut {s : State} (h : ¬ live s) : settleHost s = s := whenLive_shut _ h

theorem not_live_of_shut {s : State} (h : s.clk.phase = .off ∨ s.clk.phase = .tripped) : ¬ live s := by
  rintro (hl | hl) <;> rcases h with h | h <;> rw [h] at hl <;> cases hl

theorem critiTakes_shut {s : State} (h : s.clk.phase = .off ∨ s.clk.phase = .tripped) : critiTakes s = false := by
  have hrun : running s = false := by unfold running; rcases h with h | h <;> rw [h]
  unfold critiTakes
  rw [hrun]
  rfl

theorem critiGate_silent {s : State} (full priv : Bool) (malformed absent : State → Bool) (f : State → State)
    (h : critiTakes s = false) : critiGate full priv malformed absent f s = s := by
  unfold critiGate
  rw [h]
  rfl

section
variable {s : State}

/-- Where the monitor takes no line, nothing is written (R614). -/
theorem exec_critiWr_silent (addr value : Nat) (h : critiTakes s = false) :
    exec (.critiWr addr value) s = .next (keepFixed s (settleHost (cleared s))) := by
  show execCritiWr addr value s = _
  unfold execCritiWr
  exact run_eq (congrArg settleHost (critiGate_silent _ _ _ _ _ h))

theorem exec_critiWr_shut (addr value : Nat) (h : s.clk.phase = .off ∨ s.clk.phase = .tripped) :
    exec (.critiWr addr value) s = .next (cleared s) := by
  rw [exec_critiWr_silent addr value (critiTakes_shut h), settleHost_shut (s := cleared s) (not_live_of_shut h)]
  rfl

theorem warmTrigger_shut (cause : Nat) (h : s.clk.phase = .off ∨ s.clk.phase = .tripped) : warmTrigger s cause = s := by
  unfold warmTrigger
  rcases h with h | h <;> simp only [h]

theorem exec_firmwareWatchdogExpiry_shut (h : s.clk.phase = .off ∨ s.clk.phase = .tripped) :
    exec .firmwareWatchdogExpiry s = .next (cleared s) := by
  show execFirmwareWatchdogExpiry s = _
  unfold execFirmwareWatchdogExpiry
  exact run_same (warmTrigger_shut 7 h)

variable (hoff : s.clk.phase = .off)
include hoff

theorem exec_sysRstNFall_off : exec .sysRstNFall s = .next (cleared s) := by
  show execSysRstNFall s = _
  unfold execSysRstNFall
  exact run_same (if_pos hoff)

theorem exec_sysRstNRise_off : exec .sysRstNRise s = .next (cleared s) := by
  show execSysRstNRise s = _
  unfold execSysRstNRise
  exact run_same (if_pos hoff)

theorem exec_perstNAssert_off : exec .perstNAssert s = .next (cleared s) := by
  show execPerstNAssert s = _
  unfold execPerstNAssert
  exact run_same (if_pos hoff)

theorem exec_perstNDeassert_off : exec .perstNDeassert s = .next (cleared s) := by
  show execPerstNDeassert s = _
  unfold execPerstNDeassert
  exact run_same (if_pos hoff)

end

/-- A block that does not save and is in no warm boot ends no save and starts no boot. -/
theorem exec_warm_idle {s : State} (h : s.clk.phase = .off ∨ s.clk.phase = .tripped) :
    (∀ us, exec (.warmSaveComplete us) s = .next (cleared s)) ∧ exec .warmSaveTimeout s = .next (cleared s) ∧
    (∀ a b c d e, exec (.warmStart a b c d e) s = .next (cleared s)) ∧ exec .firmwareWatchdogExpiry s = .next (cleared s) := by
  have hsaving : ¬ (cleared s).clk.phase = .saving := by rcases h with h | h <;> simp [h]
  have hwarm : ¬ (cleared s).clk.phase = .warm := by rcases h with h | h <;> simp [h]
  exact ⟨fun _ => run_same (by exact if_neg hsaving), run_same (by exact if_neg hsaving), fun _ _ _ _ _ => run_same (by exact if_neg hwarm),
    exec_firmwareWatchdogExpiry_shut h⟩

/-- `t` differs from `s` in its outputs, its pins and its entropy count alone. -/
def Sleeps (s t : State) : Prop :=
  ∃ o p e, t = { s with out := o, clk := { s.clk with pins := p }, link := { s.link with entropy := e } }

theorem sleeps_cleared (s : State) : Sleeps s (cleared s) := ⟨_, _, _, rfl⟩

theorem exec_pwrOkFall_off {s : State} (ns : Nat) (hoff : s.clk.phase = .off) :
    exec (.pwrOkFall ns) s = .next { cleared s with link := { s.link with entropy := s.link.entropy + 1 } } := by
  show execPwrOkFall ns s = _
  simp [execPwrOkFall, run, hoff, keepFixed]

/-- A thermal trip of a block without power asserts its pin alone (R610). -/
theorem exec_thermTrip_off {s : State} (hoff : s.clk.phase = .off) :
    exec .thermTrip s = .next (setPins (cleared s) fun p => { p with thermTripN := false }) := by
  show execThermTrip s = _
  simp only [execThermTrip, run, if_pos hoff]
  rfl

/-- What a command does to a block without power: a rise of PWR_OK aside, nothing but to pins, outputs and the entropy count. -/
theorem exec_off {s : State} (c : Instr) (hoff : s.clk.phase = .off) (hrise : ∀ a b c' d, c ≠ .pwrOkRise a b c' d) :
    ∃ t, exec c s = .next t ∧ Sleeps s t := by
  obtain ⟨hdone, hlate, hboot, hdog⟩ := exec_warm_idle (.inl hoff)
  rcases exec_gated c s with h | h
  · exact ⟨_, h.off hoff, sleeps_cleared s⟩
  · cases h with
    | pwrOkRise a b c' d => exact absurd rfl (hrise a b c' d)
    | pwrOkFall ns => exact ⟨_, exec_pwrOkFall_off ns hoff, _, _, _, rfl⟩
    | thermTrip => exact ⟨_, exec_thermTrip_off hoff, _, _, _, rfl⟩
    | critiWr addr value => exact ⟨_, exec_critiWr_shut addr value (.inl hoff), sleeps_cleared s⟩
    | sysRstNFall => exact ⟨_, exec_sysRstNFall_off hoff, sleeps_cleared s⟩
    | sysRstNRise => exact ⟨_, exec_sysRstNRise_off hoff, sleeps_cleared s⟩
    | perstNAssert => exact ⟨_, exec_perstNAssert_off hoff, sleeps_cleared s⟩
    | perstNDeassert => exact ⟨_, exec_perstNDeassert_off hoff, sleeps_cleared s⟩
    | firmwareWatchdogExpiry => exact ⟨_, hdog, sleeps_cleared s⟩
    | warmSaveComplete us => exact ⟨_, hdone us, sleeps_cleared s⟩
    | warmSaveTimeout => exact ⟨_, hlate, sleeps_cleared s⟩
    | warmStart a b c d e => exact ⟨_, hboot a b c d e, sleeps_cleared s⟩

theorem step_off {s t : State} (hoff : s.clk.phase = .off) (hrise : ∀ a b c d, Instr.pwrOkRise a b c d ∉ s.pending)
    (h : step s = .next t) : ∃ u, Sleeps s u ∧ t = { u with pending := s.pending.tail } := by
  cases hq : s.pending with
  | nil =>
    rw [step_empty hq, run_whenLive_shut _ (not_live_of_shut (.inl hoff))] at h
    injection h with h
    exact ⟨_, sleeps_cleared s, by rw [← h, List.tail_nil, ← hq]⟩
  | cons c rest =>
    rw [hq] at hrise
    have hc : ∀ a b c' d, c ≠ .pwrOkRise a b c' d := fun a b c' d e => hrise a b c' d (e ▸ List.mem_cons_self)
    obtain ⟨u, hu, o, p, e, rfl⟩ := exec_off (s := { s with pending := rest }) c hoff hc
    rw [step_front hq, hu] at h
    injection h with h
    exact ⟨_, ⟨o, p, e, rfl⟩, h.symm⟩

/-- Settles O7: no command but a rise of PWR_OK passes a gate of a block without power, and each of the pins' commands keeps to pins
and entropy. -/
theorem powerOffChangesNothing : Obligations.PowerOffChangesNothing := by
  constructor
  · rintro r s t ⟨hoff, hrise, hsame⟩ hstep
    obtain ⟨_, ⟨o, p, e, rfl⟩, rfl⟩ := step_off hoff hrise hstep
    exact ⟨hoff, fun a b c d hmem => hrise a b c d (List.mem_of_mem_tail hmem), hsame⟩
  · intro s hoff
    exact ⟨exec_sysRstNFall_off hoff, exec_sysRstNRise_off hoff, exec_perstNAssert_off hoff, exec_perstNDeassert_off hoff,
      fun _ _ _ _ => shutLive s _ (.inl hoff)⟩

/-! ### A thermal trip (R541, R610) -/

/-- What a thermal trip leaves, until PWR_OK falls. -/
def TripHolds (s : State) : Prop :=
  s.clk.phase = .tripped ∧ s.clk.pins.thermTripN = false ∧ s.clk.plls = allPlls .off ∧ s.clk.inReset = List.range 24 ∧ s.host.inReset = true

theorem TripHolds.congr {s t : State} (h : TripHolds s) (hclk : t.clk = s.clk) (hhost : t.host = s.host) : TripHolds t := by
  unfold TripHolds
  rw [hclk, hhost]
  exact h

theorem Gated.tripped {s : State} {o : Host.Outcome State Fault Refusal} (h : Gated s o) (htrip : s.clk.phase = .tripped) :
    ∃ t, o = .next t ∧ t.clk = s.clk ∧ t.host = s.host := by
  cases h with
  | up f => exact ⟨_, shutUp s f (.inr htrip), rfl, rfl⟩
  | live f => exact ⟨_, shutLive s f (.inr htrip), rfl, rfl⟩
  | criti full priv malformed absent f => exact ⟨_, shutCriti s full priv malformed absent f (.inr htrip), rfl, rfl⟩
  | tap f hkept =>
    have hon : ¬ (cleared s).clk.phase = .off := by simp [htrip]
    obtain ⟨hclk, hhost⟩ := hkept (cleared s) htrip
    exact ⟨_, run_eq (by exact if_neg hon), hclk, hhost⟩

theorem setPins_phase (s : State) (f : Pins → Pins) : (setPins s f).clk.phase = s.clk.phase := rfl

theorem resetRises_tripped {s : State} (h : s.clk.phase = .tripped) : resetRises s = setPins s fun p => { p with sysRstN := true } := by
  unfold resetRises
  simp only [setPins_phase, h]

section
variable {s : State} (h : TripHolds s)
include h

theorem TripHolds.powered : (cleared s).clk.phase ≠ .off := by
  have hphase : (cleared s).clk.phase = .tripped := h.1
  rw [hphase]
  decide

theorem exec_sysRstNFall_tripped : exec .sysRstNFall s = .next (keepFixed s (setPins (cleared s) fun p => { p with sysRstN := false })) := by
  show execSysRstNFall s = _
  unfold execSysRstNFall
  refine run_eq ((if_neg h.powered).trans ?_)
  rw [warmTrigger_shut (s := setPins (cleared s) _) 5 (.inr h.1)]
  exact if_neg (by rw [setPins_phase, h.1]; decide)

theorem exec_sysRstNRise_tripped : exec .sysRstNRise s = .next (keepFixed s (setPins (cleared s) fun p => { p with sysRstN := true })) := by
  show execSysRstNRise s = _
  unfold execSysRstNRise
  exact run_eq ((if_neg h.powered).trans (resetRises_tripped h.1))

theorem exec_perstNAssert_tripped :
    exec .perstNAssert s = .next (keepFixed s (hostResets (setPins (cleared s) fun p => { p with perstN := false }))) := by
  show execPerstNAssert s = _
  unfold execPerstNAssert
  exact run_eq (if_neg h.powered)

theorem exec_perstNDeassert_tripped : exec .perstNDeassert s = .next (keepFixed s (setPins (cleared s) fun p => { p with perstN := true })) := by
  show execPerstNDeassert s = _
  unfold execPerstNDeassert
  exact run_eq ((if_neg h.powered).trans (if_neg (by simp [setPins_phase, h.1])))

end

/-- The block that a thermal trip leaves. -/
def tripState (s : State) : State :=
  let t := setPins (bare s) fun p => { p with thermTripN := false }
  { t with clk := { t.clk with phase := .tripped } }

/-- A thermal trip takes down every island of a block with power. -/
theorem exec_thermTrip_on {s : State} (hon : s.clk.phase ≠ .off) : exec .thermTrip s = .next (keepFixed s (tripState (cleared s))) := by
  show execThermTrip s = _
  have hphase : (cleared s).clk.phase ≠ .off := hon
  simp only [execThermTrip, run, if_neg hphase, tripState]

theorem exec_pwrOkFall_on {s : State} {ns : Nat} (hon : s.clk.phase ≠ .off) (hlong : 2000 ≤ ns) :
    exec (.pwrOkFall ns) s = .next (keepFixed s (powerDown { cleared s with link := { s.link with entropy := s.link.entropy + 1 } })) := by
  show execPwrOkFall ns s = _
  have hphase : ((cleared s).clk.phase ≠ .off) = True := eq_true hon
  simp only [execPwrOkFall, run, hphase, isFall, hlong, decide_true, Bool.true_or, Bool.and_self, if_true]

theorem exec_pwrOkRise_on {s : State} (devid : Nat) (rst perst mfg : Bool) (hon : s.clk.phase ≠ .off) :
    exec (.pwrOkRise devid rst perst mfg) s = .next (cleared s) := by
  show execPwrOkRise devid rst perst mfg s = _
  simp [execPwrOkRise, run, hon, keepFixed]

theorem tripHolds_tripState (s u : State) : TripHolds (keepFixed s (tripState u)) := ⟨rfl, rfl, rfl, rfl, rfl⟩

/-- A tripped block stays tripped under every command but a fall of PWR_OK. -/
theorem exec_tripped {s : State} (c : Instr) (h : TripHolds s) (hfall : ∀ n, c ≠ .pwrOkFall n) :
    ∃ t, exec c s = .next t ∧ TripHolds t := by
  obtain ⟨hdone, hlate, hboot, hdog⟩ := exec_warm_idle (.inr h.1)
  have hon : s.clk.phase ≠ .off := h.powered
  have hsame : TripHolds (cleared s) := h
  obtain ⟨hphase, hpin, hplls, hislands, hport⟩ := h
  rcases exec_gated c s with hg | hg
  · obtain ⟨t, ht, hclk, hhost⟩ := hg.tripped hphase
    exact ⟨t, ht, hsame.congr hclk hhost⟩
  · cases hg with
    | pwrOkRise a b c' d => exact ⟨_, exec_pwrOkRise_on a b c' d hon, hsame⟩
    | pwrOkFall ns => exact absurd rfl (hfall ns)
    | thermTrip => exact ⟨_, exec_thermTrip_on hon, tripHolds_tripState _ _⟩
    | critiWr addr value => exact ⟨_, exec_critiWr_shut addr value (.inr hphase), hsame⟩
    | sysRstNFall => exact ⟨_, exec_sysRstNFall_tripped hsame, hphase, hpin, hplls, hislands, hport⟩
    | sysRstNRise => exact ⟨_, exec_sysRstNRise_tripped hsame, hphase, hpin, hplls, hislands, hport⟩
    | perstNAssert => exact ⟨_, exec_perstNAssert_tripped hsame, hphase, hpin, hplls, hislands, rfl⟩
    | perstNDeassert => exact ⟨_, exec_perstNDeassert_tripped hsame, hphase, hpin, hplls, hislands, hport⟩
    | firmwareWatchdogExpiry => exact ⟨_, hdog, hsame⟩
    | warmSaveComplete us => exact ⟨_, hdone us, hsame⟩
    | warmSaveTimeout => exact ⟨_, hlate, hsame⟩
    | warmStart a b c d e => exact ⟨_, hboot a b c d e, hsame⟩

theorem step_tripped {s t : State} (h : TripHolds s) (hfall : ∀ n, Instr.pwrOkFall n ∉ s.pending) (hstep : step s = .next t) : TripHolds t := by
  cases hq : s.pending with
  | nil =>
    rw [step_empty hq, run_whenLive_shut _ (not_live_of_shut (.inr h.1))] at hstep
    injection hstep with hstep
    exact hstep ▸ h
  | cons c rest =>
    rw [hq] at hfall
    obtain ⟨u, hu, htrip⟩ := exec_tripped (s := { s with pending := rest }) c h fun n e => hfall n (e ▸ List.mem_cons_self)
    rw [step_front hq, hu] at hstep
    injection hstep with hstep
    exact hstep ▸ htrip

/-- Settles O8: the trip's state is kept by every command but PWR_OK_FALL, THERM_TRIP makes it from every powered state, and a long fall
of PWR_OK releases the pin. -/
theorem thermalTripHoldsUntilPowerFalls : Obligations.ThermalTripHoldsUntilPowerFalls := by
  refine ⟨?kept, ?made, ?released⟩
  case kept =>
    rintro s t ⟨hphase, hpin, hplls, hislands, hport, hfall⟩ hstep
    obtain ⟨hphase', hpin', hplls', hislands', hport'⟩ := step_tripped ⟨hphase, hpin, hplls, hislands, hport⟩ hfall hstep
    obtain ⟨_, _, hqueue⟩ := step_keeps hstep
    exact ⟨hphase', hpin', hplls', hislands', hport', fun n hmem => hfall n (List.mem_of_mem_tail (hqueue ▸ hmem))⟩
  case made =>
    intro s hon
    obtain ⟨hphase, hpin, hplls, hislands, hport⟩ := tripHolds_tripState s (cleared s)
    exact ⟨_, exec_thermTrip_on hon, hphase, hpin, hplls, hislands, hport, rfl⟩
  case released =>
    intro s ns hon hlong
    exact ⟨_, exec_pwrOkFall_on hon hlong, rfl, rfl, rfl⟩

end Sys2Proof.Machine
end

section
/-! SUPPORT. Reading back what a register field or a memory holds, the values after reset, the aggregation table, the CAM's masks
and the frames for another device (R229, R376, R417, R508, R509, R546, R566, R577), and the statements they settle. -/
namespace Sys2Proof.Machine

/-! ### The register file (R566) -/

theorem keysRise_tdel {α : Type} {t : Tbl α} (k : Nat) (h : keysRise t = true) : keysRise (tdel t k) = true :=
  (keysRise_iff _).mpr (((keysRise_iff t).mp h).sublist (tdel_sublist t k))

theorem keysRise_regPut {r : List (Nat × Nat)} (k reset v : Nat) (h : keysRise r = true) : keysRise (regPut r k reset v) = true := by
  unfold regPut
  split
  · exact keysRise_tdel k h
  · exact keysRise_tset r k v h

/-- Settles O9: read over write of the register file, whose canonical form both of `regPut`'s branches keep. -/
theorem fieldReadsWhatWasStored : Obligations.FieldReadsWhatWasStored := by
  intro s f g is js v
  exact ⟨fldAt_setFldAt s f is v, fldAt_setFldAt_other s f g is js v, keysRise_regPut _ _ _⟩

/-! ### Memories (R229, R577) -/

/-- A byte inside the written range reads as written. -/
theorem readByte_writeBytes_inside (l : List Nat) (m : Mem) (a i : Nat) (w : Mem.wf m = true) (h : i < l.length) :
    readByte (writeBytes m a l) (a + i) = BitVec.ofNat 8 l[i] := by
  induction l generalizing m a i with
  | nil => cases h
  | cons b t ih =>
    have hm : Mem.wf (writeByte m a (BitVec.ofNat 8 b)) = true := wf_writeByte m a _ w
    unfold writeBytes
    cases i with
    | zero => rw [readByte_writeBytes_outside t _ _ _ hm (.inl (by omega)), readByte_writeByte _ _ _ _ w, if_pos (by omega), List.getElem_cons_zero]
    | succ i =>
      have ht : i < t.length := Nat.lt_of_succ_lt_succ h
      rw [show a + (i + 1) = a + 1 + i by omega, ih _ _ i hm ht, List.getElem_cons_succ]

/-- Settles O10, by induction on the bytes written. -/
theorem stagingMemoryReadsBack : Obligations.StagingMemoryReadsBack := by
  intro m a l w
  exact ⟨fun i h => readByte_writeBytes_inside l m a i w h, fun b h => readByte_writeBytes_outside l m a b w h, wf_writeBytes l m a w⟩

/-! ### The reset state (R546) -/

/-- The file after reset lists two fields alone. -/
theorem fldAt_reset (f : Field) (is : List Nat) (hfatal : keyOf f is ≠ keyOf Reg.TOP_INT_CAUSE.fatal [])
    (hcause : keyOf f is ≠ keyOf Reg.CLK_START.cause []) : fldAt State.reset f is = f.reset := by
  have hregs : State.reset.regs = [(keyOf Reg.TOP_INT_CAUSE.fatal [], 1), (keyOf Reg.CLK_START.cause [], 1)] := by decide
  unfold fldAt regGet
  rw [hregs]
  simp only [tget?, if_neg hfatal.symm, if_neg hcause.symm, Option.getD_none]

/-- Settles O11: the lists of the reset state, and its register file of two entries. -/
theorem resetStateHoldsResetValues : Obligations.ResetStateHoldsResetValues := by
  obtain ⟨hsram, hattic⟩ := reset_memory_wf
  exact ⟨rfl, rfl, rfl, rfl, rfl, rfl, rfl, rfl, hsram, hattic, by decide, by decide, by decide, fldAt_reset⟩

/-! ### The aggregation table (R508, R509) -/

/-- Settles O14: a window that closes on an entry found, and the tick's three sums. -/
theorem eventTableCounts : Obligations.EventTableCounts := by
  constructor
  · intro s source code epoch a h hfound u
    refine (run_whenUp _ h).trans ?_
    simp only [hfound]
    rfl
  · intro s h
    exact run_whenUp _ h

/-! ### The CAM's masks (R376) -/

theorem camMatch_iff (e : CamEntry) (x : Nat) : camMatch e x = true ↔ (x ^^^ e.key) &&& e.mask = 0 := decide_eq_true_iff

theorem camMatch_iff_testBit (e : CamEntry) (x : Nat) :
    camMatch e x = true ↔ ∀ i, e.mask.testBit i = true → x.testBit i = e.key.testBit i := by
  rw [camMatch_iff]
  constructor
  · intro h i hi
    have hbit : ((x ^^^ e.key) &&& e.mask).testBit i = false := by rw [h, Nat.zero_testBit]
    rw [Nat.testBit_and, Nat.testBit_xor, hi, Bool.and_true] at hbit
    simpa using hbit
  · intro h
    refine Nat.eq_of_testBit_eq fun i => ?_
    rw [Nat.testBit_and, Nat.testBit_xor, Nat.zero_testBit]
    cases hi : e.mask.testBit i with
    | false => exact Bool.and_false _
    | true => simp [h i hi]

/-- Settles O57, bit by bit of the mask. -/
theorem camEntryMatchesItsMaskedBits : Obligations.CamEntryMatchesItsMaskedBits := by
  intro e x
  refine ⟨camMatch_iff e x, camMatch_iff_testBit e x, ?free, ?zero⟩
  case free =>
    intro y h
    rw [Bool.eq_iff_iff, camMatch_iff_testBit, camMatch_iff_testBit]
    exact forall₂_congr fun i hi => by rw [h i hi]
  case zero =>
    intro h
    rw [camMatch_iff, h, Nat.and_zero]

/-! ### Frames for another device (R417) -/

theorem takeFrame_misrouted {s : State} {port : Nat} {f : Frame} (hup : portState s port = .up) (hdst : f.dst ≠ s.device) :
    takeFrame s port f = bump s Reg.LNK_ROUTE_ERR.misroute := by
  unfold takeFrame
  rw [if_neg (not_not_intro hup), if_pos hdst]

/-- Settles O58: such a frame is counted, and counting changes its field alone. -/
theorem frameForAnotherDeviceIsDiscardedAndCounted : Obligations.FrameForAnotherDeviceIsDiscardedAndCounted := by
  intro s port f hup hdst
  rw [takeFrame_misrouted hup hdst]
  exact ⟨fldAt_bumpAt s _ [] 1, fun g js h => fldAt_setFldAt_other s _ g [] js _ h, rfl, rfl, rfl⟩

end Sys2Proof.Machine
end

section
/-! SUPPORT. What doorbells, interrupt timers, memory faults and set-up writes do to the host's rings (R575, R578 to R586), and the
statements they settle. -/
namespace Sys2Proof.Machine

/-! ### Ring pairs -/

@[simp] theorem ringOf_setRing (s : State) (r : Nat) (x : Ring) : ringOf (setRing s r x) r = x := by simp [ringOf, setRing]

theorem setRing_setRing (s : State) (r : Nat) (x y : Ring) : setRing (setRing s r x) r y = setRing s r y := by
  simp only [setRing, tset_tset]

@[simp] theorem oringOf_setORing (s : State) (o : Nat) (x : ORing) : oringOf (setORing s o x) o = x := by simp [oringOf, setORing]

theorem setORing_setORing (s : State) (o : Nat) (x y : ORing) : setORing (setORing s o x) o y = setORing s o y := by
  simp only [setORing, tset_tset]

section
variable {s : State} {r : Nat}

/-- A faulted ring pair reads no entries (R585). -/
theorem readEntries_setRing_faulted {x : Ring} (h : x.fault = true) : readEntries (setRing s r x) r = setRing s r x := by
  simp [readEntries, h]

theorem readEntries_setRing_serves {x : Ring} (hen : ringEnabled s r = true) (hfault : x.fault = false) (hport : s.host.inReset = false) :
    readEntries (setRing s r x) r =
      (let k := Nat.min (ringUsed (sqSize s r) x.sqHead x.sqTail) (cqSize s r - 1 - (ringUsed (cqSize s r) x.cqHead x.cqTail + x.reserved))
       setRing s r { x with sqHead := (x.sqHead + k) % sqSize s r, reserved := x.reserved + k, outstanding := x.outstanding + k,
                            unstarted := x.unstarted + k }) := by
  have hserves : (ringEnabled (setRing s r x) r && !(ringOf (setRing s r x) r).fault && !(setRing s r x).host.inReset) = true := by
    rw [ringOf_setRing, hfault, Bool.and_eq_true, Bool.and_eq_true]
    exact ⟨⟨hen, rfl⟩, by simp [setRing, hport]⟩
  refine (if_pos hserves).trans ?_
  simp only [cqUsed, ringOf_setRing, setRing_setRing]
  rfl

variable {off size value : Nat} (hform : doorbellMalformed off size value = false)

theorem tailDoorbell_malformed (h : doorbellMalformed off size value = true) : tailDoorbell s r off size value = badAccess s off true true :=
  if_pos h

theorem cqHeadDoorbell_malformed (h : doorbellMalformed off size value = true) : cqHeadDoorbell s r off size value = badAccess s off true true :=
  if_pos h

include hform

theorem tailDoorbell_wellFormed (hen : ringEnabled s r = true) (hvalue : value < sqSize s r) :
    tailDoorbell s r off size value = readEntries (setRing s r { ringOf s r with sqTail := value }) r := by
  unfold tailDoorbell
  rw [hform, hen, if_neg (by decide), if_neg (by decide), if_neg (by omega)]

theorem cqHeadDoorbell_wellFormed (hen : ringEnabled s r = true) (hvalue : value < cqSize s r)
    (hused : ringUsed (cqSize s r) (ringOf s r).cqHead value ≤ cqUsed s r) :
    cqHeadDoorbell s r off size value = readEntries (ringIrq (setRing s r { ringOf s r with cqHead := value, armed := true }) r) r := by
  unfold cqHeadDoorbell
  rw [hform, hen, if_neg (by decide), if_neg (by decide)]
  exact if_neg (by simp; omega)

theorem oringHeadDoorbell_wellFormed {o : Nat} (hen : fldAt s Reg.TOP_ORING_CFG.enable [o] ≠ 0) (hvalue : value < orSize s o)
    (hused : ringUsed (orSize s o) (oringOf s o).head value ≤ ringUsed (orSize s o) (oringOf s o).head (oringOf s o).tail) :
    oringHeadDoorbell s o off size value =
      (let x := { oringOf s o with head := value, armed := true }
       drainRing (if irqDue true (fldAt s Reg.TOP_ORING_CFG.irq_count [o]) (ringUsed (orSize s o) value x.tail) then
          sendVector (setORing s o { x with armed := false, unsignalled := 0 }) (fldAt s Reg.TOP_ORING_CFG.vector [o])
        else setORing s o x) o) := by
  have hin : ¬ (orSize s o ≤ value || decide (ringUsed (orSize s o) (oringOf s o).head (oringOf s o).tail <
      ringUsed (orSize s o) (oringOf s o).head value)) = true := by simp; omega
  unfold oringHeadDoorbell
  rw [hform, if_neg (by decide), if_neg hen]
  simp only [if_neg hin, oringOf_setORing, setORing_setORing]
  rfl

theorem evtHeadDoorbell_wellFormed (hen : fld s Reg.TOP_EVT_CFG.enable ≠ 0) (hvalue : value < evtSize s)
    (hused : ringUsed (evtSize s) s.host.evtRing.head value ≤ ringUsed (evtSize s) s.host.evtRing.head s.host.evtRing.tail) :
    evtHeadDoorbell s off size value =
      (let x := { s.host.evtRing with head := value, armed := true }
       flushEvents (if irqDue true (fld s Reg.TOP_EVT_CFG.irq_count) (ringUsed (evtSize s) value x.tail) then
          sendVector { s with host := { s.host with evtRing := { x with armed := false, unsignalled := 0 } } } (fld s Reg.TOP_EVT_CFG.vector)
        else { s with host := { s.host with evtRing := x } })) := by
  have hin : ¬ (evtSize s ≤ value || decide (ringUsed (evtSize s) s.host.evtRing.head s.host.evtRing.tail <
      ringUsed (evtSize s) s.host.evtRing.head value)) = true := by simp; omega
  unfold evtHeadDoorbell
  rw [hform, if_neg (by decide), if_neg hen]
  simp only [if_neg hin]
  rfl

end

/-- Settles O12: each well-formed doorbell stores its index; the entries that the tail lets be read are those of `readEntries`. -/
theorem doorbellsMoveRingIndices : Obligations.DoorbellsMoveRingIndices := by
  refine ⟨?tail, ?head, ?out, ?event⟩
  case tail =>
    intro s r size value h hform hen hvalue x k
    refine (run_hostAccess _ h).trans ?_
    rw [tailDoorbell_wellFormed (s := cleared s) hform hen hvalue]
    congr 2
    by_cases hfault : x.fault = true
    · rw [if_pos hfault]
      exact readEntries_setRing_faulted (s := cleared s) (x := { ringOf s r with sqTail := value }) hfault
    · rw [if_neg hfault]
      exact readEntries_setRing_serves (s := cleared s) (x := { ringOf s r with sqTail := value }) hen (eq_false_of_ne_true hfault) h.2
  case head =>
    intro s r size value h hform hen hvalue hused
    refine (run_hostAccess _ h).trans ?_
    rw [cqHeadDoorbell_wellFormed (s := cleared s) hform hen hvalue hused]
    rfl
  case out =>
    intro s o size value h hform hen hvalue hused x
    refine (run_hostAccess _ h).trans ?_
    rw [oringHeadDoorbell_wellFormed (s := cleared s) hform hen hvalue hused]
    rfl
  case event =>
    intro s size value h hform hen hvalue hused x
    refine (run_hostAccess _ h).trans ?_
    rw [evtHeadDoorbell_wellFormed (s := cleared s) hform hen hvalue hused]
    rfl

/-! ### Malformed doorbells, timers and faults -/

theorem bar2Write_pair_malformed {s : State} {off size value : Nat} (hpairs : off < 0x400000) (hlow : off % 0x1000 < 16)
    (hform : doorbellMalformed off size value = true) : bar2Write s off size value = badAccess s off true true := by
  unfold bar2Write
  rw [if_pos hpairs]
  by_cases htail : off % 0x1000 / 8 = 0
  · rw [if_pos htail, tailDoorbell_malformed hform]
  · rw [if_neg htail, if_pos (by omega), cqHeadDoorbell_malformed hform]

theorem bar2Write_reserved {s : State} {off : Nat} (size value : Nat) (hrings : off < 0x800000) (hlow : 16 ≤ off % 0x1000) :
    bar2Write s off size value = s := by
  have hnotTail : ¬ off % 0x1000 / 8 = 0 := by omega
  have hnotHead : ¬ off % 0x1000 / 8 = 1 := by omega
  unfold bar2Write
  simp only [if_neg hnotTail, if_neg hnotHead, if_pos hrings, ite_self]

/-- The conditions of R584 for a timer to signal: armed, an entry unsignalled, one unreleased, a count set. -/
theorem timerDue {armed : Bool} {unsignalled used count : Nat} (harmed : armed = true) (hun : 0 < unsignalled) (hused : 0 < used)
    (hcount : 0 < count) : (armed && decide (0 < unsignalled) && decide (0 < used) && decide (0 < count)) = true := by
  simp [harmed, hun, hused, hcount]

/-! ### Set-up writes (R578, R582, R583) -/

@[simp] theorem ringOf_storeFields (s : State) (w : RegWrite) (is : List Nat) (fs : List Field) (r : Nat) :
    ringOf (storeFields s w is fs) r = ringOf s r := by
  unfold ringOf
  rw [storeFields_host]

@[simp] theorem ringOf_setFldAt (s : State) (f : Field) (is : List Nat) (v r : Nat) : ringOf (setFldAt s f is v) r = ringOf s r := rfl

/-- A field that a write covers is stored. -/
theorem storeFields_one {s : State} {w : RegWrite} {f : Field} {v : Nat} (is : List Nat) (h : wget w f = some v) :
    storeFields s w is [f] = setFldAt s f is v := by
  simp only [storeFields, List.foldl, h]

theorem ringCfgWrite_enables {s : State} {r : Nat} {w : RegWrite} (hoff : ringEnabled s r = false)
    (hen : wget w Reg.TOP_RING_CFG.enable = some 1) (hfault : wget w Reg.TOP_RING_CFG.fault = some 0)
    (hleast : 4 ≤ wgetD w Reg.TOP_RING_CFG.sq_log2 (fldAt s Reg.TOP_RING_CFG.sq_log2 [r]))
    (hcomp : wgetD w Reg.TOP_RING_CFG.sq_log2 (fldAt s Reg.TOP_RING_CFG.sq_log2 [r]) ≤
      wgetD w Reg.TOP_RING_CFG.cq_log2 (fldAt s Reg.TOP_RING_CFG.cq_log2 [r]))
    (hmost : wgetD w Reg.TOP_RING_CFG.cq_log2 (fldAt s Reg.TOP_RING_CFG.cq_log2 [r]) ≤ 16) :
    ringCfgWrite s r w =
      setRing (setFldAt (storeFields (storeFields s w [r] [Reg.TOP_RING_CFG.vector, Reg.TOP_RING_CFG.irq_count, Reg.TOP_RING_CFG.irq_us])
        w [r] [Reg.TOP_RING_CFG.sq_log2, Reg.TOP_RING_CFG.cq_log2]) Reg.TOP_RING_CFG.enable [r] 1) r
        { ringOf s r with sqHead := 0, sqTail := 0, cqTail := 0, cqHead := 0, phase := true, armed := true, unsignalled := 0 } := by
  have henable : wgetD w Reg.TOP_RING_CFG.enable (b2n (ringEnabled s r)) = 1 := by simp [wgetD, hen]
  have hnofault : ¬ wget w Reg.TOP_RING_CFG.fault = some 1 := by simp [hfault]
  unfold ringCfgWrite
  simp only [henable, if_neg hnofault]
  simp [hoff, hleast, hcomp, hmost]

section
variable {s : State} {w : RegWrite} {v : Nat} (hleast : 4 ≤ v) (hmost : v ≤ 16)
include hleast hmost

theorem oringCfgWrite_enables {o : Nat} (hoff : fldAt s Reg.TOP_ORING_CFG.enable [o] = 0) (hen : wget w Reg.TOP_ORING_CFG.enable = some 1)
    (hfault : wget w Reg.TOP_ORING_CFG.fault = some 0) (hsize : wget w Reg.TOP_ORING_CFG.log2 = some v) :
    oringCfgWrite s o w = drainRing (setORing (setFldAt (setFldAt (storeFields s w [o]
      [Reg.TOP_ORING_CFG.kind, Reg.TOP_ORING_CFG.vector, Reg.TOP_ORING_CFG.irq_count, Reg.TOP_ORING_CFG.irq_us])
      Reg.TOP_ORING_CFG.log2 [o] v) Reg.TOP_ORING_CFG.enable [o] 1) o {}) o := by
  unfold oringCfgWrite
  simp [wgetD, hen, hfault, hoff, hsize, hleast, hmost, storeFields_one]

theorem evtCfgWrite_enables (hoff : fld s Reg.TOP_EVT_CFG.enable = 0) (hen : wget w Reg.TOP_EVT_CFG.enable = some 1)
    (hfault : wget w Reg.TOP_EVT_CFG.fault = some 0) (hsize : wget w Reg.TOP_EVT_CFG.log2 = some v) :
    evtCfgWrite s w =
      (let u := setFld (setFldAt (storeFields s w [] [Reg.TOP_EVT_CFG.vector, Reg.TOP_EVT_CFG.irq_count, Reg.TOP_EVT_CFG.irq_us])
        Reg.TOP_EVT_CFG.log2 [] v) Reg.TOP_EVT_CFG.enable 1
       flushEvents { u with host := { u.host with evtRing := {} }, events := { u.events with setUp := true } }) := by
  unfold evtCfgWrite
  simp [wgetD, hen, hfault, hoff, hsize, hleast, hmost, storeFields_one]

end

/-- Settles O13: malformed and reserved doorbells, the three timers, the three faults, the three set-up writes. -/
theorem ringSetupAndFaults : Obligations.RingSetupAndFaults := by
  refine ⟨?malformed, ?reserved, ?pairTimer, ?outTimer, ?eventTimer, ?pairFault, ?outFault, ?eventFault, ?pairSetup, ?outSetup, ?eventSetup⟩
  case malformed =>
    intro s off size value h hpairs hlow hform
    refine (run_hostAccess _ h).trans ?_
    rw [bar2Write_pair_malformed (s := cleared s) hpairs hlow hform]
  case reserved =>
    intro s off size value h hrings hlow
    refine (run_hostAccess _ h).trans ?_
    rw [bar2Write_reserved (s := cleared s) size value hrings hlow]
    rfl
  case pairTimer =>
    intro s r h harmed hun hused hcount
    refine (run_whenUp _ h).trans ?_
    exact next_keepFixed_congr (if_pos (timerDue harmed hun hused hcount))
  case outTimer =>
    intro s o h harmed hun hused hcount
    refine (run_whenUp _ h).trans ?_
    exact next_keepFixed_congr (if_pos (timerDue harmed hun hused hcount))
  case eventTimer =>
    intro s h harmed hun hused hcount
    refine (run_whenUp _ h).trans ?_
    exact next_keepFixed_congr (if_pos (timerDue harmed hun hused hcount))
  case pairFault => exact fun s r pcie h => run_whenUp _ h
  case outFault => exact fun s o pcie h => run_whenUp _ h
  case eventFault => exact fun s pcie h => run_whenUp _ h
  case pairSetup =>
    rintro s r v w h hoff hen hfault rfl hmost hleast hcomp
    refine ⟨_, run_hostAccess _ h, ?_⟩
    rw [ringCfgWrite_enables (s := dropShadow (cleared s)) hoff hen hfault hleast hcomp hmost]
    constructor
    · show decide (fldAt (setFldAt _ Reg.TOP_RING_CFG.enable [r] 1) Reg.TOP_RING_CFG.enable [r] = 1) = true
      rw [fldAt_setFldAt]
      decide
    · exact ringOf_setRing _ r _
  case outSetup =>
    intro s o v w h hoff hen hfault hsize hleast hmost
    refine (run_hostAccess _ h).trans ?_
    rw [← oringCfgWrite_enables (s := written s) hleast hmost hoff hen hfault hsize]
  case eventSetup =>
    intro s v w h hoff hen hfault hsize hleast hmost
    refine (run_hostAccess _ h).trans ?_
    exact next_keepFixed_congr (evtCfgWrite_enables (s := written s) hleast hmost hoff hen hfault hsize)

end Sys2Proof.Machine
end

section
/-! SUPPORT. How the arbiter takes maintenance requests and ends activities, and how warnings are raised (R506, R511 to R513), and the
statement they settle. -/
namespace Sys2Proof.Machine

/-! ### Requests of the host -/

/-- The state with the fields of a request stored. -/
def requested (s : State) (no target fw : Nat) : State :=
  setFld (setFld (setFld s Reg.MNT_REQ.activity no) Reg.MNT_REQ.target target) Reg.MNT_REQ.fw_slot fw

theorem fld_requested_activity (s : State) {no : Nat} (target fw : Nat) (h : [1, 2, 4, 9].contains no = true) :
    fld (requested s no target fw) Reg.MNT_REQ.activity = no := by
  have hsmall : no = 1 ∨ no = 2 ∨ no = 4 ∨ no = 9 := by simpa using h
  have hkept : fld (requested s no target fw) Reg.MNT_REQ.activity = fld (setFld s Reg.MNT_REQ.activity no) Reg.MNT_REQ.activity :=
    (fldAt_setFldAt_other _ _ _ [] [] fw (by decide)).trans (fldAt_setFldAt_other _ _ _ [] [] target (by decide))
  rw [hkept, fld_setFld]
  rcases hsmall with rfl | rfl | rfl | rfl <;> decide

section
variable {s : State} {no target fw : Nat} (hbusy : fld s Reg.MNT_STATUS.busy ≠ 1) (hno : [1, 2, 4, 9].contains no = true)
include hbusy hno

theorem mntRequest_judged :
    mntRequest s no target fw =
      if !requestUnit s no target then setFld (setFld s Reg.MNT_STATUS.code 0x01) Reg.MNT_STATUS.conflict 0
      else match admitActivity s { no := no, scope := requestScope no target, host := true, target := target, fw := fw } with
        | .error (s, n) => setFld (setFld s Reg.MNT_STATUS.code 0x0B) Reg.MNT_STATUS.conflict n
        | .ok s => setFld (setFld (setFld s Reg.MNT_STATUS.busy 1) Reg.MNT_STATUS.code 0) Reg.MNT_STATUS.conflict 0 :=
  if_neg (by rw [hno]; simp [hbusy])

theorem mntRequest_absent (hunit : requestUnit s no target = false) :
    mntRequest s no target fw = setFld (setFld s Reg.MNT_STATUS.code 0x01) Reg.MNT_STATUS.conflict 0 := by
  simp [mntRequest_judged hbusy hno, hunit]

theorem mntRequest_refused {n : Nat} (hunit : requestUnit s no target = true)
    (hconf : conflictWith s { no := no, scope := requestScope no target, host := true, target := target, fw := fw } = some n) :
    mntRequest s no target fw =
      setFld (setFld (report s 0x160E no 0 [no, n]) Reg.MNT_STATUS.code 0x0B) Reg.MNT_STATUS.conflict n := by
  simp [mntRequest_judged hbusy hno, hunit, admitActivity, hconf]

theorem mntRequest_started (hunit : requestUnit s no target = true)
    (hconf : conflictWith s { no := no, scope := requestScope no target, host := true, target := target, fw := fw } = none) :
    mntRequest s no target fw =
      setFld (setFld (setFld (startActivity s { no := no, scope := requestScope no target, host := true, target := target, fw := fw })
        Reg.MNT_STATUS.busy 1) Reg.MNT_STATUS.code 0) Reg.MNT_STATUS.conflict 0 := by
  simp [mntRequest_judged hbusy hno, hunit, admitActivity, hconf]

end

/-- The four commands of MNT_REQ write their activity. -/
theorem exec_mntRequest {s : State} {c : Instr} {no target fw : Nat} (h : hostReaches s)
    (hc : (c = .mntAtticScrub target ∧ no = 1 ∧ fw = fld (written s) Reg.MNT_REQ.fw_slot) ∨
      (c = .mntSpareIn target ∧ no = 2 ∧ fw = fld (written s) Reg.MNT_REQ.fw_slot) ∨
      (c = .mntLinkRetrain target ∧ no = 4 ∧ fw = fld (written s) Reg.MNT_REQ.fw_slot) ∨ (c = .mntNvmeFwActivate target fw ∧ no = 9)) :
    [1, 2, 4, 9].contains no = true ∧ exec c s = .next (keepFixed s (mntWrite (written s) no target fw)) := by
  rcases hc with ⟨rfl, rfl, rfl⟩ | ⟨rfl, rfl, rfl⟩ | ⟨rfl, rfl, rfl⟩ | ⟨rfl, rfl⟩
  · exact ⟨rfl, run_hostAccess _ h⟩
  · exact ⟨rfl, run_hostAccess _ h⟩
  · exact ⟨rfl, run_hostAccess _ h⟩
  · exact ⟨rfl, run_hostAccess _ h⟩

theorem mntWrite_eq {no : Nat} (s : State) (target fw : Nat) (h : [1, 2, 4, 9].contains no = true) :
    mntWrite s no target fw = mntRequest (requested s no target fw) no (fld (requested s no target fw) Reg.MNT_REQ.target)
      (fld (requested s no target fw) Reg.MNT_REQ.fw_slot) := by
  have hact := fld_requested_activity s target fw h
  show mntRequest (requested s no target fw) (fld (requested s no target fw) Reg.MNT_REQ.activity) _ _ = _
  rw [hact]
  rfl

/-! ### Ends of activities and of intervals -/

theorem endActivity_running {s : State} {no : Nat} {scope : List Nat} {a : Activity}
    (h : (s.maint.running.find? fun a => a.no = no && a.scope = scope) = some a) :
    endActivity s no scope =
      (let v := activityEnds { s with maint := { s.maint with running := s.maint.running.erase a } } a
       let w := if a.host then setFld v Reg.MNT_STATUS.busy 0 else v
       startWaiting w.maint.waiting.length w) := by
  unfold endActivity
  rw [h]

/-- Settles O46: the request by its unit and its conflict; the scrub, the ends and the warnings by their own branches. -/
theorem maintenanceAndWarnings : Obligations.MaintenanceAndWarnings := by
  refine ⟨?request, ?scrub, ?done, ?warnings⟩
  case request =>
    intro s c no target fw h hc u t a hbusy
    obtain ⟨hno, hexec⟩ := exec_mntRequest h hc
    rw [hexec, mntWrite_eq _ _ _ hno]
    exact ⟨fun hunit => next_keepFixed_congr (mntRequest_absent hbusy hno hunit),
      fun n hunit hconf => next_keepFixed_congr (mntRequest_refused hbusy hno hunit hconf),
      fun hunit hconf => next_keepFixed_congr (mntRequest_started hbusy hno hunit hconf)⟩
  case scrub =>
    intro s k h hunit a u
    refine (run_whenUp _ h).trans (next_keepFixed_congr ?_)
    exact if_pos hunit
  case done =>
    intro s no target a h hno hfound u v w
    have hnot3 : no ≠ 3 := by rintro rfl; cases hno
    refine (run_whenUp _ h).trans (next_keepFixed_congr ?_)
    rw [if_neg hnot3, if_pos hno]
    exact endActivity_running hfound
  case warnings =>
    intro s k counts h u
    refine ⟨fun hk => (run_whenUp _ h).trans (next_keepFixed_congr ?_), (run_whenUp _ h).trans (next_keepFixed_congr ?_)⟩
    · rw [if_neg (by omega), if_pos hk]
      rfl
    · rw [if_pos rfl]
      simp only [warnCrossed, decide_eq_true_eq]
      rfl

end Sys2Proof.Machine
end

section
/-! SUPPORT. How the Criti monitor takes a line: printed, refused, or not heard (R613 to R616), and the statement it settles. -/
namespace Sys2Proof.Machine

/-! ### A line that is heard -/

/-- What a line starts from: the rate set before applies from it (R613). -/
def heard (s : State) : State := { s with dbg := { s.dbg with baud := fld s Reg.MON_CFG.baud } }

section
variable {s : State} {full priv : Bool} {malformed absent : State → Bool} {f : State → State} (h : critiTakes s = true)
include h

theorem critiGate_heard :
    critiGate full priv malformed absent f s =
      if (full && romForm (heard s)) || malformed (heard s) then critiSay (heard s) [] [] .versionMismatch
      else if priv && !(heard s).dbg.priv then critiSay (heard s) [] [] .protection
      else if absent (heard s) then critiSay (heard s) [] [] .unitAbsent
      else f (heard s) := by
  unfold critiGate
  rw [h]
  rfl

/-- A malformed or unknown line is refused (R615). -/
theorem critiGate_malformed (hbad : ((full && romForm s) || malformed (heard s)) = true) :
    critiGate full priv malformed absent f s = critiSay (heard s) [] [] .versionMismatch :=
  (critiGate_heard h).trans (if_pos hbad)

/-- A line that names an absent unit is refused (R615). -/
theorem critiGate_absent (hform : ((full && romForm s) || malformed (heard s)) = false) (hpriv : (priv && !s.dbg.priv) = false)
    (hunit : absent (heard s) = true) : critiGate full priv malformed absent f s = critiSay (heard s) [] [] .unitAbsent := by
  have hform' : ¬ ((full && romForm (heard s)) || malformed (heard s)) = true := ne_true_of_eq_false hform
  have hpriv' : ¬ (priv && !(heard s).dbg.priv) = true := ne_true_of_eq_false hpriv
  rw [critiGate_heard h, if_neg hform', if_neg hpriv', if_pos hunit]

/-- Outside privileged mode a privileged line is refused (R614). -/
theorem critiGate_unprivileged (hform : ((full && romForm s) || malformed (heard s)) = false) (hpriv : (priv && !s.dbg.priv) = true) :
    critiGate full priv malformed absent f s = critiSay (heard s) [] [] .protection := by
  have hform' : ¬ ((full && romForm (heard s)) || malformed (heard s)) = true := ne_true_of_eq_false hform
  have hpriv' : (priv && !(heard s).dbg.priv) = true := hpriv
  rw [critiGate_heard h, if_neg hform', if_pos hpriv']

theorem critiGate_runs (hform : ((full && romForm s) || malformed (heard s)) = false) (hpriv : (priv && !s.dbg.priv) = false)
    (hunit : absent (heard s) = false) : critiGate full priv malformed absent f s = f (heard s) := by
  have hform' : ¬ ((full && romForm (heard s)) || malformed (heard s)) = true := ne_true_of_eq_false hform
  have hpriv' : ¬ (priv && !(heard s).dbg.priv) = true := ne_true_of_eq_false hpriv
  rw [critiGate_heard h, if_neg hform', if_neg hpriv', hunit, if_neg Bool.false_ne_true]

end

/-! ### Lines that print -/

/-- The outcome of a line refused. -/
def refusedLine (s : State) (st : Status) : Host.Outcome State Fault Refusal := .next (keepFixed s (emit (heard (cleared s)) (.criti [] [] st)))

theorem run_critiLine_silent {s : State} {full priv : Bool} {malformed absent : State → Bool} {f : State → State} (h : critiTakes s = false) :
    run s (critiLine full priv malformed absent f) = .next (cleared s) := by
  unfold critiLine
  exact run_same (critiGate_silent _ _ _ _ _ h)

section
variable {s : State} {full priv : Bool} {malformed absent : State → Bool} {f : State → State} (h : critiTakes s = true)
include h

theorem run_critiLine (hform : ((full && romForm s) || malformed (heard (cleared s))) = false) (hpriv : (priv && !s.dbg.priv) = false)
    (hunit : absent (heard (cleared s)) = false) :
    run s (critiLine full priv malformed absent f) = .next (keepFixed s (critiCount (f (heard (cleared s))))) := by
  unfold critiLine
  exact run_eq (critiGate_runs h hform hpriv hunit)

theorem run_critiLine_malformed (hbad : ((full && romForm s) || malformed (heard (cleared s))) = true) :
    run s (critiLine full priv malformed absent f) = refusedLine s .versionMismatch := by
  unfold critiLine
  exact run_eq (critiGate_malformed h hbad)

theorem run_critiLine_absent (hform : ((full && romForm s) || malformed (heard (cleared s))) = false) (hpriv : (priv && !s.dbg.priv) = false)
    (hunit : absent (heard (cleared s)) = true) : run s (critiLine full priv malformed absent f) = refusedLine s .unitAbsent := by
  unfold critiLine
  exact run_eq (critiGate_absent h hform hpriv hunit)

end

/-- Settles O54: each printing line passes the gate, or is refused by its form, its arguments or its unit. -/
theorem critiPrintingCommands : Obligations.CritiPrintingCommands := by
  constructor
  case left =>
    intro s a k n h c hc
    simp only [List.mem_cons, List.not_mem_nil, or_false] at hc
    rcases hc with rfl | rfl | rfl | rfl | rfl | rfl | rfl | rfl | rfl | rfl | rfl | rfl | rfl <;> exact run_critiLine_silent h
  case right =>
    intro s a k n h fin u err print
    refine ⟨run_critiLine h rfl rfl rfl, run_critiLine h rfl rfl rfl, run_critiLine h rfl rfl rfl, run_critiLine h rfl rfl rfl,
      run_critiLine h rfl rfl rfl, run_critiLine h rfl rfl rfl, ?rd, run_critiLine_malformed h rfl, ?rom, ?full⟩
    case rd =>
      split
      case isTrue hargs => exact run_critiLine h (by simp; omega) rfl rfl
      case isFalse hargs => exact run_critiLine_malformed h (by simp; omega)
    case rom =>
      intro hrom
      have hbad (b : Bool) : ((true && romForm s) || b) = true := by rw [hrom]; rfl
      exact ⟨run_critiLine_malformed h (hbad _), run_critiLine_malformed h (hbad _), run_critiLine_malformed h (hbad _)⟩
    case full =>
      intro hfull
      refine ⟨run_critiLine h (by rw [hfull]; rfl) rfl rfl, ?link, ?evt⟩
      case link =>
        split
        case isTrue hk => exact run_critiLine_malformed h (by simp [hk])
        case isFalse hk =>
          have hform : ((true && romForm s) || decide (48 ≤ k)) = false := by simp [hfull, hk]
          split
          case isTrue habsent => exact run_critiLine_absent h hform rfl (by rw [show (heard (cleared s)).part = s.part from rfl, habsent]; rfl)
          case isFalse hpresent =>
            exact run_critiLine h hform rfl (by rw [show (heard (cleared s)).part = s.part from rfl, eq_true_of_ne_false hpresent]; rfl)
      case evt =>
        split
        case isTrue hargs => exact run_critiLine h (by simp [hfull]; omega) rfl rfl
        case isFalse hargs => exact run_critiLine_malformed h (by simp [hfull]; omega)

end Sys2Proof.Machine
end

section
/-! SUPPORT. The monitor's rates, its authentication and its privileged commands (R520, R541, R613, R614, R616 to R619), and the
statement they settle. -/
namespace Sys2Proof.Machine

/-! ### The challenge and its answers (R617, R618) -/

/-- The state with the monitor's side of the authentication replaced. -/
def setCriti (s : State) (a : AuthSide) : State := { s with dbg := { s.dbg with criti := a } }

section
variable {s : State} {c : List Nat} {level slot r t : Nat}

/-- Lockdown refuses level 2 and keeps the challenge (R520). -/
theorem critiAnswer_locked (hlevel : level = 2) (hlock : flag s Reg.SEC_CFG.lockdown = true) :
    critiAnswer s c level slot r t = emit s (.criti [] c .protection) :=
  if_pos (by rw [hlevel]; simp [locked, hlock])

variable (hopen : level ≠ 2 ∨ flag s Reg.SEC_CFG.lockdown = false)
include hopen

theorem critiAnswer_good (hgood : responseGood s c level slot r t = true) :
    critiAnswer s c level slot r t = emit (if level = 2 then openPriv (setCriti s {}) slot else setCriti s {}) (.criti [] c .ok) :=
  (if_neg (by rcases hopen with h | h <;> simp [locked, h])).trans (if_pos hgood)

theorem critiAnswer_bad (hgood : responseGood s c level slot r t = false) :
    critiAnswer s c level slot r t =
      emit (responseFailed (setCriti s (afterFailure s s.dbg.criti)) 0) (.criti [] c .protection) :=
  (if_neg (by rcases hopen with h | h <;> simp [locked, h])).trans (if_neg (ne_true_of_eq_false hgood))

end

/-! ### The privileged lines -/

theorem debugWrite_eq (s : State) (a v : Nat) :
    debugWrite s a v = if romForm s = true ∧ romReads a = false then s else regWrite s { off := a, size := 8, value := v } := by
  unfold debugWrite
  by_cases h : romForm s = true ∧ romReads a = false
  · rw [if_pos h, if_pos (by simp [h])]
  · rw [if_neg h, if_neg (by simpa using h)]

/-- Settles O55: each line behind its gate; the answer to a challenge by its level, the lockdown and its signature. -/
theorem critiRatesAuthenticationAndWrites : Obligations.CritiRatesAuthenticationAndWrites := by
  refine ⟨?silent, ?lines, ?auth⟩
  case silent =>
    intro s level slot r t cold h
    exact ⟨run_critiLine_silent h, run_same (critiGate_silent (s := cleared s) _ _ _ _ _ h), exec_critiWr_silent level r h⟩
  case lines =>
    intro s rate a v cold h u fin err ran
    refine ⟨?baud, ?badBaud, run_critiLine h rfl rfl rfl, ?wr, ?reset⟩
    case baud =>
      intro c hc
      refine (run_critiLine h (by simp [hc]) rfl rfl).trans ?_
      rw [hc]
      rfl
    case badBaud => exact fun hc => run_critiLine_malformed h (by simp [hc])
    case wr =>
      show execCritiWr a v s = _
      unfold execCritiWr
      refine run_eq (congrArg settleHost ?_)
      split
      case isTrue hbad => exact critiGate_malformed h (by simp; omega)
      case isFalse hargs =>
        have hform : ((false && romForm s) || (decide (a % 8 ≠ 0) || decide (2 ^ 26 ≤ a) || decide (2 ^ 64 ≤ v))) = false := by simp; omega
        split
        case isTrue hpriv => exact critiGate_unprivileged (s := cleared s) h hform (by simp [hpriv])
        case isFalse hpriv =>
          exact (critiGate_runs (s := cleared s) h hform (by simp [eq_true_of_ne_false hpriv]) rfl).trans (debugWrite_eq ran a v)
    case reset =>
      by_cases hpriv : s.dbg.priv = false
      · rw [if_pos hpriv]
        exact run_eq (critiGate_unprivileged (s := cleared s) h rfl (by simp [hpriv]))
      · rw [if_neg hpriv]
        exact run_eq (critiGate_runs (s := cleared s) h rfl (by simp [eq_true_of_ne_false hpriv]) rfl)
  case auth =>
    intro s level slot r t h hlevel hslot hr ht u fin d side v
    have hform : ((false && romForm s) ||
        (decide (256 ≤ level) || decide (256 ≤ slot) || decide (2 ^ 384 ≤ r) || decide (2 ^ 384 ≤ t))) = false := by
      simp only [Nat.not_le.mpr hlevel, Nat.not_le.mpr hslot, Nat.not_le.mpr hr, Nat.not_le.mpr ht, decide_false, Bool.or_false, Bool.false_and]
    refine ⟨fun hdelay => ?delayed, fun hdue => ⟨fun h2 hlock => ?locked, fun hopen => ?judged⟩⟩
    case delayed =>
      refine (run_critiLine h hform rfl rfl).trans (next_keepFixed_congr (congrArg critiCount ?_))
      exact if_pos (by simp [mayChallenge]; exact hdelay)
    case locked =>
      refine (run_critiLine h hform rfl rfl).trans (next_keepFixed_congr (congrArg critiCount ?_))
      exact (if_neg (by simp [mayChallenge]; exact hdue)).trans (critiAnswer_locked h2 hlock)
    case judged =>
      refine (run_critiLine h hform rfl rfl).trans (next_keepFixed_congr (congrArg critiCount ?_))
      refine (if_neg (by simp [mayChallenge]; exact hdue)).trans ?_
      by_cases hgood : responseGood v d.2 level slot r t = true
      · rw [if_pos hgood]
        exact critiAnswer_good hopen hgood
      · rw [if_neg hgood]
        exact critiAnswer_bad hopen (eq_false_of_ne_true hgood)

end Sys2Proof.Machine
end

section
/-! SUPPORT. The TAP's instructions and the debug port (R520, R617, R619 to R624), and the statement they settle. -/
namespace Sys2Proof.Machine

/-! ### The TAP -/

theorem run_onTap {s : State} (f : State → State) (hon : s.clk.phase ≠ .off) : run s (onTap f) = .next (keepFixed s (f (cleared s))) :=
  run_eq (by exact if_neg hon)

/-- Internal reset is held by SYS_RST_N, outside lockdown (R622). -/
theorem heldByPin_unlocked_iff (s : State) :
    (heldByPin s && !locked s) = true ↔
      s.clk.pins.sysRstN = false ∧ (s.clk.phase = .held ∨ s.clk.phase = .saved) ∧ flag s Reg.SEC_CFG.lockdown = false := by
  simp [heldByPin, locked, and_assoc]

theorem driving_eq (s : State) (code : Nat) (bypass : Bool) :
    driving code bypass s =
      (let v := loadIr s code (some code) false
       let w : State := if s.clk.phase = .saved then { v with clk := { v.clk with warm := none } } else v
       if s.clk.pins.sysRstN = false ∧ (s.clk.phase = .held ∨ s.clk.phase = .saved) ∧ flag s Reg.SEC_CFG.lockdown = false
       then (if bypass then emit w (.tdo 1 0) else boundaryScan w) else emit (loadIr s code none true) (.tdo 1 0)) := by
  by_cases h : s.clk.pins.sysRstN = false ∧ (s.clk.phase = .held ∨ s.clk.phase = .saved) ∧ flag s Reg.SEC_CFG.lockdown = false
  · simp only [if_pos h]
    exact if_pos ((heldByPin_unlocked_iff s).mpr h)
  · simp only [if_neg h]
    exact if_neg (mt (heldByPin_unlocked_iff s).mp h)

/-! ### The debug port -/

/-- The state with the debug port's side of the authentication replaced. -/
def setJtag (s : State) (a : AuthSide) : State := { s with dbg := { s.dbg with jtag := a } }

theorem jtagAnswer_challenged {s : State} {c : List Nat} (level slot rsv r t : Nat) (h : s.dbg.jtag.challenge = some c) :
    jtagAnswer s level slot rsv r t =
      if level = 2 ∧ flag s Reg.SEC_CFG.lockdown = true then setJtag s { s.dbg.jtag with challenge := none }
      else if rsv = 0 ∧ responseGood s c level slot r t = true then grantLevel (setJtag s {}) level slot
      else responseFailed (setJtag s (afterFailure s s.dbg.jtag)) 1 := by
  unfold jtagAnswer
  simp only [h, locked, Bool.and_eq_true, decide_eq_true_eq]
  rfl

/-- The grant permits an operation: level 2 every one, level 1 reads of BAR0 (R624). -/
theorem permits_iff (s : State) (sp : Nat) (write : Bool) :
    permits s sp write = true ↔ s.dbg.level = 2 ∨ (s.dbg.level = 1 ∧ sp = 0 ∧ write = false) := by
  simp [permits, and_assoc]

section
variable {s : State} (sp a rsv : Nat) (write : Bool) (f : State → State)

theorem debugAccess_halted (h : running s = false) :
    debugAccess sp a rsv write f s = emit (loadIr s 0x11 none false) (.tdo 136 0) := by
  have hrun : running (loadIr s 0x11 none false) = false := h
  simp only [debugAccess, hrun, Bool.not_false, if_true]

theorem debugAccess_runs (h : running s = true) :
    debugAccess sp a rsv write f s =
      (let b := bump (emit (loadIr s 0x11 none false) (.tdo 136 (s.dbg.result.1 + s.dbg.result.2 * 2 ^ 72))) Reg.DBG_COUNT.accesses
       if ¬ permits s sp write = true then keepResult b .protection 0
       else if ¬ (rsv = 0 ∧ spaceHas s sp a = true) then keepResult b .versionMismatch 0
       else f b) := by
  have hrun : running (loadIr s 0x11 none false) = true := h
  refine (if_neg (by rw [hrun]; decide)).trans ?_
  by_cases hpermits : permits s sp write = true
  · rw [if_neg (not_not_intro hpermits)]
    refine (if_neg (by rw [Bool.not_eq_true']; exact ne_false_of_eq_true hpermits)).trans ?_
    by_cases hhas : rsv = 0 ∧ spaceHas s sp a = true
    · rw [if_neg (not_not_intro hhas)]
      have hgood : ¬ (decide (rsv ≠ 0) || !spaceHas s sp a) = true := by simp [hhas]
      exact if_neg hgood
    · rw [if_pos hhas]
      have hbad : (decide (rsv ≠ 0) || !spaceHas s sp a) = true := by simpa [imp_iff_not_or] using hhas
      exact if_pos hbad
  · rw [if_pos hpermits]
    exact if_pos (by rw [Bool.not_eq_true']; exact eq_false_of_ne_true hpermits)

end

/-- Settles O56: the TAP's loads, DBG_AUTH's answer to its challenge, DBG_ACCESS by grant and address. -/
theorem jtagAndDebugPort : Obligations.JtagAndDebugPort := by
  refine ⟨?tap, ?auth, ?access⟩
  case tap =>
    intro s hon fin u load
    refine ⟨run_onTap _ hon, run_onTap _ hon, run_onTap _ hon, run_onTap _ hon, fun x hx => ?_⟩
    simp only [List.mem_cons, List.not_mem_nil, or_false] at hx
    rcases hx with rfl | rfl | rfl | rfl | rfl <;> exact (run_onTap _ hon).trans (next_keepFixed_congr (driving_eq u _ _))
  case auth =>
    intro s level slot rsv r t hon fin v d side w
    refine ⟨fun hshut => (run_onTap _ hon).trans (next_keepFixed_congr ?_), fun hrun hdue => (run_onTap _ hon).trans (next_keepFixed_congr ?_)⟩
    · have hclosed : (running v && mayChallenge v v.dbg.jtag) = false := by
        rw [Bool.and_eq_false_iff]
        exact hshut.imp id fun h => decide_eq_false (Nat.not_le.mpr h)
      exact if_neg (ne_true_of_eq_false hclosed)
    · have hopen : (running v && mayChallenge v v.dbg.jtag) = true :=
        (Bool.and_eq_true _ _).mpr ⟨hrun, decide_eq_true hdue⟩
      exact (if_pos hopen).trans (jtagAnswer_challenged (s := w) level slot rsv r t rfl)
  case access =>
    intro s sp a v rsv hon hsp ha hv fin l b keep has
    have hsp' : sp % 4 = sp := Nat.mod_eq_of_lt hsp
    have ha' : a % 2 ^ 64 = a := Nat.mod_eq_of_lt ha
    have hv' : v % 2 ^ 64 = v := Nat.mod_eq_of_lt hv
    have hread : exec (.dbgAccessRead sp a rsv) s = fin (debugAccess sp a rsv false (fun s => keepResult (spaceRead s sp a).1 .ok (spaceRead s sp a).2) (cleared s)) := by
      refine (run_onTap _ hon).trans ?_
      rw [hsp', ha']
    have hwrite : exec (.dbgAccessWrite sp a v rsv) s = fin (debugAccess sp a rsv true (fun s => settleHost (keepResult (spaceWrite s sp a v) .ok 0)) (cleared s)) := by
      refine (run_onTap _ hon).trans ?_
      rw [hsp', ha', hv']
    rw [hread, hwrite]
    refine ⟨fun hshut => ⟨next_keepFixed_congr (debugAccess_halted _ _ _ _ _ hshut), next_keepFixed_congr (debugAccess_halted _ _ _ _ _ hshut)⟩,
      fun hrun => ⟨next_keepFixed_congr ((debugAccess_runs (s := cleared s) _ _ _ _ _ hrun).trans ?_), next_keepFixed_congr ((debugAccess_runs (s := cleared s) _ _ _ _ _ hrun).trans ?_)⟩⟩
    · simp only [permits_iff, and_true]
      rfl
    · simp only [permits_iff, Bool.true_eq_false, and_false, or_false]
      rfl

end Sys2Proof.Machine
end

section
/-! SUPPORT. Clock monitors, unlocks, the thermal throttle and droops (R506, R556 to R562, R602, R609), and the statement they settle. -/
namespace Sys2Proof.Machine

/-! ### The monitor of OSC_MGMT (R561) -/

section
variable {s : State} {c : Nat}

theorem oscWindow_good (hok : s.clk.oscOk = true) (hlow : 188 ≤ c) (hhigh : c ≤ 312) :
    oscWindow s c = setFld s Reg.CLK_MON.osc_count c := by
  have hnear : apart c 250 * 100 ≤ 6250 := by unfold apart; omega
  simp only [oscWindow, setFld_clk, hok, if_true, if_pos hnear]

/-- A count more than 25% from 250 fails OSC_MGMT. -/
theorem oscWindow_fails (hok : s.clk.oscOk = true) (hfar : c < 188 ∨ 312 < c) :
    oscWindow s c =
      (let v := setFld s Reg.CLK_MON.osc_count c
       report (sourceLost (setFld { v with clk := { v.clk with oscOk := false, oscGood := 0 } } Reg.CLK_MON.osc_lost 1) oscSource) 0x0104 0 0 []) := by
  have hout : ¬ apart c 250 * 100 ≤ 6250 := by unfold apart; omega
  simp only [oscWindow, setFld_clk, hok, if_true, if_neg hout]

/-- A bad window starts the row of good ones anew. -/
theorem oscWindow_bad (hlost : s.clk.oscOk = false) (hfar : c < 225 ∨ 275 < c) :
    oscWindow s c =
      (let v := setFld s Reg.CLK_MON.osc_count c
       { v with clk := { v.clk with oscOk := false, oscGood := 0 } }) := by
  have hout : 2500 < apart c 250 * 100 := by unfold apart; omega
  simp only [oscWindow, setFld_clk, hlost, Bool.false_eq_true, if_false, if_pos hout]

/-- The 64th good window in a row brings OSC_MGMT back. -/
theorem oscWindow_counts (hlost : s.clk.oscOk = false) (hlow : 225 ≤ c) (hhigh : c ≤ 275) :
    oscWindow s c =
      (let v := setFld s Reg.CLK_MON.osc_count c
       if s.clk.oscGood < 63 then { v with clk := { v.clk with oscOk := false, oscGood := s.clk.oscGood + 1 } }
       else sourceBack { v with clk := { v.clk with oscOk := true, oscGood := 64 } } oscSource) := by
  have hnear : ¬ 2500 < apart c 250 * 100 := by unfold apart; omega
  simp only [oscWindow, setFld_clk, hlost, Bool.false_eq_true, if_false, if_neg hnear]
  by_cases hrow : s.clk.oscGood < 63
  · rw [if_pos hrow, if_pos (by omega)]
  · rw [if_neg hrow, if_neg (by omega)]

end

/-! ### A PLL out of tolerance (R562) -/

theorem unlockExpiry_eq (s : State) (n : Nat) :
    unlockExpiry s n =
      if (pllOf s n).unlocked = false then s else if n = 22 ∨ n = 23 then warmTrigger s 8
      else (let t := islandReset s (pllIsland n)
            if t.clk.phase = .service then report t 0x0103 n 0 [n, pllIsland n] else t) := by
  simp only [unlockExpiry, Bool.not_eq_true', Bool.or_eq_true, decide_eq_true_eq]

/-! ### Throttle and droops (R602, R609) -/

section
variable {s : State} {temps : List Nat} {prochot power up : Bool}

/-- The readings and PROCHOT_N as a tick keeps them. -/
def sampled (s : State) (temps : List Nat) (prochot : Bool) : State :=
  setPins { s with clk := { s.clk with sensors := temps } } fun p => { p with prochotN := prochot }

/-- What requires the throttle. -/
def Hot (temps : List Nat) (prochot power : Bool) : Prop := 100 ≤ maxOf temps ∨ prochot = false ∨ power = true

theorem hot_iff : (decide (100 ≤ maxOf temps) || !prochot || power) = true ↔ Hot temps prochot power := by
  simp [Hot, or_assoc]

theorem throttleTick_hot (h : Hot temps prochot power) :
    throttleTick s temps prochot power up = if up then sampled s temps prochot else throttleStep (sampled s temps prochot) true :=
  if_pos (hot_iff.mpr h)

theorem throttleTick_cool (h : ¬ Hot temps prochot power) :
    throttleTick s temps prochot power up =
      if up = true ∧ maxOf temps ≤ 98 then throttleStep (sampled s temps prochot) false else sampled s temps prochot := by
  refine (if_neg (mt hot_iff.mp h)).trans ?_
  simp only [Bool.and_eq_true, decide_eq_true_eq]
  rfl

end

theorem throttleStep_eq (s : State) (down : Bool) :
    throttleStep s down = (throttleSet s).foldl (fun t n =>
      let k := tget 0 t.clk.throttle n
      let k' := if down then (if (if n < 6 then 400 else 800) < throttled t n (pllSet t n) then k + 1 else k) else k - 1
      { t with clk := { t.clk with throttle := if k' = 0 then tdel t.clk.throttle n else tset t.clk.throttle n k' } }) s := by
  cases down <;> rfl

/-- Settles O53: each monitor's window by its count, the throttle by its two conditions, a droop by its count. -/
theorem clockMonitorsThrottlesAndDroops : Obligations.ClockMonitorsThrottlesAndDroops := by
  refine ⟨?monitors, ?unlock, ?throttle, ?droop⟩
  case monitors =>
    intro s refs plls c h fin u
    refine ⟨fun hlost => (run_whenLive _ h).trans (next_keepFixed_congr (if_pos ?_)),
      fun hok => (run_whenLive _ h).trans (next_keepFixed_congr (if_neg ?_)), ?osc⟩
    · exact (Bool.not_eq_true' _).mpr hlost
    · exact fun hbad => ne_false_of_eq_true hok ((Bool.not_eq_true' _).mp hbad)
    case osc =>
      intro v osc
      have hexec : exec (.oscMonitorWindow c) s = fin (settleAll (oscWindow u c)) := run_whenLive _ h
      rw [hexec]
      exact ⟨fun hok hlow hhigh => next_settleAll_congr (oscWindow_good (s := u) hok hlow hhigh),
        fun hok hfar => next_settleAll_congr (oscWindow_fails (s := u) hok hfar),
        fun hlost hfar => next_settleAll_congr (oscWindow_bad (s := u) hlost hfar),
        fun hlost hlow hhigh => next_settleAll_congr (oscWindow_counts (s := u) hlost hlow hhigh)⟩
  case unlock =>
    intro s n h hn
    refine (run_act _ h).trans (next_settleAll_congr ?_)
    rw [Nat.mod_eq_of_lt hn]
    exact unlockExpiry_eq (cleared s) n
  case throttle =>
    intro s temps prochot power up h v move hot
    have hexec : exec (.thermalThrottleTick temps prochot power up) s = .next (keepFixed s (throttleTick (cleared s) temps prochot power up)) :=
      run_whenLive _ h
    rw [hexec]
    refine ⟨?down, ?up, ?still⟩
    case down =>
      rintro hhot rfl
      exact next_keepFixed_congr ((throttleTick_hot hhot).trans (throttleStep_eq v true))
    case up =>
      rintro hcool rfl hlow
      exact next_keepFixed_congr (((throttleTick_cool hcool).trans (if_pos ⟨rfl, hlow⟩)).trans (throttleStep_eq v false))
    case still =>
      intro hnotDown hnotUp
      by_cases hhot : hot
      · have hup : up = true := by
          by_contra hdown
          exact hnotDown ⟨hhot, eq_false_of_ne_true hdown⟩
        exact next_keepFixed_congr ((throttleTick_hot hhot).trans (if_pos hup))
      · exact next_keepFixed_congr ((throttleTick_cool hhot).trans (if_neg fun hboth => hnotUp ⟨hhot, hboth⟩))
  case droop =>
    intro s rail mv h hrail n v
    refine (run_whenLive _ h).trans (next_keepFixed_congr ?_)
    rw [Nat.mod_eq_of_lt hrail]
    rfl

end Sys2Proof.Machine
end

section
/-! SUPPORT. Cold starts, the host port's own reset, warm triggers, saves and warm starts (R541 to R549, R594 to R596, R610), and the
statements they settle. -/
namespace Sys2Proof.Machine

/-! ### Cold starts (R541, R546) -/

/-- What a cold start from `s` with a cause makes: full service, or boot ROM where the firmware in flash fails. -/
def boots (s : State) (cause : Nat) : State :=
  let u := islandsUp (bare s)
  let t : State := { u with sec := { u.sec with dsk := u.sec.dsk + 1 }, clk := { u.clk with cause := cause } }
  if s.lay.firmwareOk then fullService (readyFields (loadBoot t (flashImage t) true) 0 cause 0 0) else romOnly (startFields t 0 cause 0 0)

/-- A cold start held by SYS_RST_N (R595). -/
def holds (s : State) (cause : Nat) : State := { bare s with clk := { (bare s).clk with phase := .held, cause := cause } }

theorem bare_firmwareOk (s : State) : (bare s).lay.firmwareOk = s.lay.firmwareOk := rfl

theorem coldBoot_zero (s : State) (cause : Nat) : coldBoot s 0 cause 0 = boots s cause := by
  unfold coldBoot boots
  cases hfw : s.lay.firmwareOk with
  | false =>
    refine (if_pos ?_).trans (if_neg Bool.false_ne_true).symm
    show (decide ((0 : Nat) ≠ 2) && !s.lay.firmwareOk) = true
    rw [hfw]
    rfl
  | true =>
    refine (if_neg ?_).trans (if_pos rfl).symm
    show ¬ (decide ((0 : Nat) ≠ 2) && !s.lay.firmwareOk) = true
    rw [hfw]
    decide

theorem coldStart_eq (s : State) (cause : Nat) :
    coldStart s cause = if s.clk.pins.sysRstN then boots s cause else holds s cause := by
  unfold coldStart
  rw [coldBoot_zero]
  rfl

/-- A rise of PWR_OK, outside manufacturing mode (R595, R610). -/
theorem powerUp_eq (s : State) (devid : Nat) (rst perst : Bool) :
    powerUp s devid rst perst =
      (let p := setPins s fun x => { x with pwrOk := true, devid := devid % 2 ^ 11, sysRstN := rst, perstN := perst }
       if s.clk.pins.thermTripN = false then { p with clk := { p.clk with phase := .tripped } } else if rst then boots p 1 else holds p 1) := by
  unfold powerUp
  simp only [coldStart_eq, Bool.not_eq_true']
  rfl

/-- The rise of SYS_RST_N releases a start that it held (R595). -/
theorem resetRises_held {s : State} (h : s.clk.phase = .held) :
    resetRises s = boots (setPins s fun p => { p with sysRstN := true }) s.clk.cause := by
  unfold resetRises
  simp only [setPins_phase, h, coldStart_eq]
  rfl

/-! ### The host port's own reset (R542) -/

theorem hostReturns_eq (s : State) (hpin : s.clk.pins.perstN = true) :
    hostReturns s =
      (let q := setFld { s with host := { s.host with inReset := false } } Reg.CLK_READY.pcie (Config.readyTime s.startCount 0)
       let r := (tkeys q.host.rings).foldl (fun t n => if (ringOf t n).fault then t else readEntries (releaseHeld (ringOf t n).held (setRing t n { ringOf t n with held := [] })) n) q
       if s.host.inReset = true ∧ ¬ 17 ∈ s.clk.inReset ∧ s.clk.pcieDown = false then flushEvents ((tkeys r.host.orings).foldl drainRing r) else s) := by
  have hstays : (!s.host.inReset || s.clk.inReset.contains 17 || !s.clk.pins.perstN || s.clk.pcieDown) = true ↔
      ¬ (s.host.inReset = true ∧ ¬ 17 ∈ s.clk.inReset ∧ s.clk.pcieDown = false) := by
    simp only [hpin, Bool.or_eq_true, Bool.not_eq_true', List.contains_iff_mem]
    cases s.host.inReset <;> cases s.clk.pcieDown <;> simp
  by_cases h : s.host.inReset = true ∧ ¬ 17 ∈ s.clk.inReset ∧ s.clk.pcieDown = false
  · simp only [if_pos h]
    exact if_neg (mt hstays.mp (not_not_intro h))
  · simp only [if_neg h]
    exact if_pos (hstays.mpr h)

/-- Settles O50: every cold start is `boots` or held, by the pins and the key; the port follows PERST_N. -/
theorem coldStartsFromPowerAndCommand : Obligations.ColdStartsFromPowerAndCommand := by
  refine ⟨?rise, ?command, ?release, ?assert, ?deassert, ?returns⟩
  case rise =>
    intro s devid rst perst hoff p
    have hmfg : ¬ (decide (s.clk.phase = .off) && false) = true := by simp
    show execPwrOkRise devid rst perst false s = _
    unfold execPwrOkRise
    rw [if_neg hmfg]
    exact run_eq ((if_pos hoff).trans (powerUp_eq (cleared s) devid rst perst))
  case command =>
    intro s key h
    refine (run_hostAccess _ h).trans (next_keepFixed_congr ?_)
    simp only [clkCold, coldStart_eq]
    rfl
  case release =>
    intro s hheld
    have hon : ¬ (cleared s).clk.phase = .off := by simp [hheld]
    show execSysRstNRise s = _
    unfold execSysRstNRise
    exact run_eq ((if_neg hon).trans (resetRises_held hheld))
  case assert =>
    intro s hon p
    show execPerstNAssert s = _
    unfold execPerstNAssert
    exact run_eq (if_neg hon)
  case deassert =>
    intro s hon hdown
    have hshut : ¬ (decide (s.clk.phase = .service) || decide (s.clk.phase = .saving)) = true := by simpa [live] using hdown
    show execPerstNDeassert s = _
    unfold execPerstNDeassert
    exact run_eq ((if_neg hon).trans (if_neg hshut))
  case returns =>
    intro s h p q r
    have hon : ¬ s.clk.phase = .off := by rcases h with h | h <;> simp [h]
    have hopen : (decide (s.clk.phase = .service) || decide (s.clk.phase = .saving)) = true := by simpa [live] using h
    show execPerstNDeassert s = _
    unfold execPerstNDeassert
    exact run_eq (((if_neg hon).trans (if_pos hopen)).trans (hostReturns_eq p rfl))

/-! ### Warm triggers (R541, R543) -/

/-- The save that a warm trigger begins. -/
def saves (s : State) (cause : Nat) : State :=
  let k := silentKill s false
  { k with steps := { k.steps with paused := true }, clk := { k.clk with phase := .saving, warm := none, cause := cause } }

/-- Internal reset released, where SYS_RST_N is high. -/
def freed (s : State) : State := if s.clk.pins.sysRstN then { s with clk := { s.clk with phase := .warm }, dbg := {} } else s

theorem warmTrigger_live {s : State} (cause : Nat) (h : live s) : warmTrigger s cause = saves s cause := by
  unfold warmTrigger
  rcases h with h | h <;> simp only [h] <;> rfl

/-- After the save, and in the boot, a trigger leaves its cause. -/
theorem warmTrigger_saved {s : State} (cause : Nat) (h : s.clk.phase = .saved ∨ s.clk.phase = .warm) :
    warmTrigger s cause = { s with clk := { s.clk with cause := cause } } := by
  unfold warmTrigger
  rcases h with h | h <;> simp only [h]

/-- A trigger that finds the save done, or the boot, restarts the boot from the save's end. -/
theorem toSaved {s : State} {cause : Nat} (h : s.clk.phase = .saved ∨ s.clk.phase = .warm) :
    (let t : State := { s with clk := { s.clk with cause := cause } }
     if t.clk.phase = .warm then { t with clk := { t.clk with phase := .saved } } else t) =
      { s with clk := { s.clk with phase := .saved, cause := cause } } := by
  rcases h with h | h
  · simp [h]
  · exact if_pos h

/-- The rise of SYS_RST_N with the save ended releases reset, or falls back where the save was given up (R543, R547). -/
theorem resetRises_saved {s : State} {w : WarmRec} (h : s.clk.phase = .saved) (hw : s.clk.warm = some w) :
    resetRises s =
      (let high := setPins s fun p => { p with sysRstN := true }
       if w.done then { high with clk := { high.clk with phase := .warm }, dbg := {} } else coldBoot high 2 s.clk.cause 1) := by
  have hlate : ((setPins s fun p => { p with sysRstN := true }).clk.warm.elim false fun w => !w.done) = !w.done := by
    show (s.clk.warm.elim false fun w => !w.done) = _
    rw [hw]
    rfl
  unfold resetRises
  simp only [setPins_phase, h, hlate]
  cases w.done <;> rfl

/-! ### The warm boot (R546, R547) -/

section
variable {s : State} {a b c d e : Bool}

theorem warmStart_rom (hcopy : e = false) (hflash : s.lay.firmwareOk = false) :
    warmStart s a b c d e =
      romOnly (startFields { islandsUp (bare s) with clk := { (islandsUp (bare s)).clk with cause := s.clk.cause } } 1 s.clk.cause 0 0) :=
  if_pos (by rw [hcopy, hflash]; rfl)

variable (hfw : e = true ∨ s.lay.firmwareOk = true)
include hfw

theorem warmStart_fallsBack {r : Nat} (hr : fallbackReason s (retainedImage s e) a b c d = some r) :
    warmStart s a b c d e = coldBoot s 2 s.clk.cause r := by
  have hrom : ¬ (!e && !s.lay.firmwareOk) = true := by rcases hfw with h | h <;> simp [h]
  simp only [warmStart, if_neg hrom, hr]

theorem warmStart_restores (hr : fallbackReason s (retainedImage s e) a b c d = none) :
    warmStart s a b c d e = warmBoot s (retainedImage s e) ((s.clk.warm.map (·.saveUs)).getD 0) := by
  have hrom : ¬ (!e && !s.lay.firmwareOk) = true := by rcases hfw with h | h <;> simp [h]
  simp only [warmStart, if_neg hrom, hr]

end

theorem rejoining_cleared (s : State) (h : Nat) : rejoining (cleared s) h = rejoining s h := rfl

/-- Settles O51: triggers by the phase they find, the save's two ends, the warm boot by its fallbacks. -/
theorem warmSavesWarmStartsAndRejoin : Obligations.WarmSavesWarmStartsAndRejoin := by
  refine ⟨?triggers, ?again, ?command, ?ends, ?release, ?boot, ?rejoin⟩
  case triggers =>
    intro s h
    have hon : ¬ s.clk.phase = .off := by rcases h with h | h <;> simp [h]
    constructor
    · show execSysRstNFall s = _
      unfold execSysRstNFall
      refine run_eq ((if_neg hon).trans ?_)
      rw [warmTrigger_live (s := setPins (cleared s) _) 5 h]
      exact if_neg (show ¬ Phase.saving = Phase.warm by decide)
    · show execFirmwareWatchdogExpiry s = _
      unfold execFirmwareWatchdogExpiry
      exact run_eq (warmTrigger_live 7 h)
  case again =>
    intro s h
    have hon : ¬ s.clk.phase = .off := by rcases h with h | h <;> simp [h]
    constructor
    · show execSysRstNFall s = _
      unfold execSysRstNFall
      refine run_eq ((if_neg hon).trans ?_)
      rw [warmTrigger_saved (s := setPins (cleared s) _) 5 h]
      exact toSaved h
    · show execFirmwareWatchdogExpiry s = _
      unfold execFirmwareWatchdogExpiry
      exact run_eq (warmTrigger_saved 7 h)
  case command =>
    intro s key h
    refine (run_hostAccess _ h).trans (next_keepFixed_congr ?_)
    unfold clkWarm
    rw [warmTrigger_live (s := dropShadow (cleared s)) 6 h.1]
    rfl
  case ends =>
    intro s us h k
    constructor
    · show execWarmSaveComplete us s = _
      unfold execWarmSaveComplete
      exact run_eq (if_pos h)
    · show execWarmSaveTimeout s = _
      unfold execWarmSaveTimeout
      exact run_eq (if_pos h)
  case release =>
    intro s w h hw
    have hon : ¬ s.clk.phase = .off := by simp [h]
    show execSysRstNRise s = _
    unfold execSysRstNRise
    exact run_eq ((if_neg hon).trans (resetRises_saved (s := cleared s) h hw))
  case boot =>
    intro s a b c d e h u i
    have hexec : exec (.warmStart a b c d e) s = .next (keepFixed s (warmStart (cleared s) a b c d e)) := by
      show execWarmStart a b c d e s = _
      unfold execWarmStart
      exact run_eq (if_pos h)
    rw [hexec]
    refine ⟨fun hcopy hflash => ?_, fun r hfw hr => ?_, fun hfw hr => ?_⟩
    · rw [warmStart_rom (s := cleared s) hcopy hflash]
    · rw [warmStart_fallsBack (s := cleared s) hfw hr]
    · rw [warmStart_restores (s := cleared s) hfw hr]
  case rejoin =>
    intro s hd h
    refine (run_act _ h).trans (next_settleAll_congr ?_)
    rw [rejoining_cleared]

end Sys2Proof.Machine
end

section
/-! SUPPORT. Key provisioning, lockdown and the SPDM responder (R520 to R525, R534, R535, R538), and the statements they settle. -/
namespace Sys2Proof.Machine

/-! ### An effect that is one of two -/

theorem next_keepFixed_ite (s t u : State) {P Q : Prop} [Decidable P] [Decidable Q] (h : P ↔ Q) :
    (.next (keepFixed s (if P then t else u)) : Host.Outcome State Fault Refusal) = if Q then .next (keepFixed s t) else .next (keepFixed s u) := by
  by_cases hp : P
  · rw [if_pos hp, if_pos (h.mp hp)]
  · rw [if_neg hp, if_neg (mt h.mpr hp)]

/-! ### Key provisioning (R522 to R524) -/

section
variable {s : State} {n : Option Nat} {op i : Nat} {ok : Bool} {f : SecUnit → SecUnit}

theorem keyOp_outside (h : secureSession s n = false) : keyOp s n op i ok f = vendorAnswer s n op .protection :=
  if_pos (by rw [h]; rfl)

theorem keyOp_inside (h : secureSession s n = true) :
    keyOp s n op i ok f = if ok = true then keyChanged { s with sec := f s.sec } n op i else vendorAnswer s n op .versionMismatch := by
  unfold keyOp
  rw [h]
  cases ok <;> rfl

theorem run_keyOp_outside (hl : live s) (h : secureSession s n = false) :
    run s (whenLive fun s => keyOp s n op i ok f) = .next (keepFixed s (vendorAnswer (cleared s) n op .protection)) :=
  (run_whenLive _ hl).trans (next_keepFixed_congr (keyOp_outside (s := cleared s) h))

theorem run_keyOp_inside (hl : live s) (h : secureSession s n = true) {P : Prop} [Decidable P] (hok : ok = true ↔ P) :
    run s (whenLive fun s => keyOp s n op i ok f) =
      if P then .next (keepFixed s (keyChanged { cleared s with sec := f s.sec } n op i))
      else .next (keepFixed s (vendorAnswer (cleared s) n op .versionMismatch)) :=
  (run_whenLive _ hl).trans ((next_keepFixed_congr (keyOp_inside (s := cleared s) h)).trans (next_keepFixed_ite _ _ _ hok))

end

/-- The bits of CLEAR_KEY's index byte: a kind of 0 to 2, no reserved bit, and a domain key's index of 0 or 1 (R522). -/
theorem clearKey_named_iff (b : Nat) :
    (decide (bitsOf b 6 2 ≤ 2) && bitsOf b 2 4 = 0 && (bitsOf b 6 2 ≠ 0 || decide (bitsOf b 0 2 ≤ 1))) = true ↔
      bitsOf b 6 2 ≤ 2 ∧ bitsOf b 2 4 = 0 ∧ (bitsOf b 6 2 = 0 → bitsOf b 0 2 ≤ 1) := by
  simp only [Bool.and_eq_true, Bool.or_eq_true, decide_eq_true_eq, and_assoc]
  refine and_congr_right fun _ => and_congr_right fun _ => ?_
  exact Decidable.imp_iff_not_or.symm

/-- Who may authorise the enrolment of slot k: slot 0 for slot 1, a live lower slot for another (R524). -/
theorem mayEnroll_iff (s : State) (k a : Nat) :
    (if k = 1 then decide (a = 0) else decide (a < k) && slotLive s a) = true ↔ (k = 1 → a = 0) ∧ (k ≠ 1 → a < k ∧ slotLive s a = true) := by
  by_cases hk : k = 1 <;> simp [hk]

theorem enroll_iff (s : State) (k a : Nat) (signed : Bool) :
    (1 ≤ k && k ≤ 3 && (tget? s.sec.slots k).isNone && (if k = 1 then decide (a = 0) else decide (a < k) && slotLive s a) && signed) = true ↔
      1 ≤ k ∧ k ≤ 3 ∧ tget? s.sec.slots k = none ∧ (k = 1 → a = 0) ∧ (k ≠ 1 → a < k ∧ slotLive s a = true) ∧ signed = true := by
  simp only [Bool.and_eq_true, mayEnroll_iff, decide_eq_true_eq, Option.isNone_iff_eq_none, and_assoc]

theorem revoke_iff (s : State) (k a : Nat) (signed : Bool) :
    (1 ≤ k && k ≤ 3 && !s.sec.revoked.contains k && a ≠ k && slotLive s a && signed) = true ↔
      1 ≤ k ∧ k ≤ 3 ∧ ¬ k ∈ s.sec.revoked ∧ a ≠ k ∧ slotLive s a = true ∧ signed = true := by
  simp only [Bool.and_eq_true, decide_eq_true_eq, Bool.not_eq_true', List.contains_iff_mem, ← Bool.not_eq_true, and_assoc]

/-! ### Lockdown and the security islands (R520, R525) -/

theorem secCfgWrite_eq (s : State) (w : RegWrite) :
    secCfgWrite s w =
      (let v := storeFields s w [] [Reg.SEC_CFG.meas_evt, Reg.SEC_CFG.trunk_index]
       if wget w Reg.SEC_CFG.lockdown = some 1 ∧ flag v Reg.SEC_CFG.lockdown = false then startLockdown v else v) := by
  unfold secCfgWrite
  by_cases hw : wget w Reg.SEC_CFG.lockdown = some 1
  · simp only [hw, true_and]
    unfold startLockdown
    cases flag (storeFields s w [] [Reg.SEC_CFG.meas_evt, Reg.SEC_CFG.trunk_index]) Reg.SEC_CFG.lockdown <;> rfl
  · simp only [hw, false_and, if_false]

theorem startLockdown_unlocked {s : State} (h : flag s Reg.SEC_CFG.lockdown = false) :
    startLockdown s =
      (let x := setFld (setFld (setFld s Reg.SEC_CFG.lockdown 1) Reg.NBU_CTL.host_jobs 0) Reg.DEN_CFG.host_cmds 0
       let y := revokeDebug x
       let parts := (x.steps.parts.filter fun p => p.entries.any fun e => decide (0 < e.ownKib + e.sharedKib)).map (·.stepRef)
       lockSettle { y with sec := { y.sec with lockWait := some (parts.filter Config.inStaging) } }) :=
  if_neg (by rw [h]; exact Bool.false_ne_true)

theorem resync_eq (s : State) (half : Nat) :
    resync s half = if 20 + half ∈ s.clk.inReset
      then report { s with clk := { s.clk with inReset := s.clk.inReset.filter (· ≠ 20 + half) } } 0x1707 half 0 [half] else s := by
  unfold resync
  simp only [List.contains_iff_mem]

/-- Settles O48: each key operation by its session and its range, slots by the one condition that admits them, lockdown by its bit. -/
theorem keyProvisioningAndLockdown : Obligations.KeyProvisioningAndLockdown := by
  refine ⟨?keys, ?slots, ?lockdown, ?resync⟩
  case keys =>
    intro s n i d b key hl fin u ans done
    refine ⟨fun h => ⟨run_keyOp_outside hl h, run_keyOp_outside hl h, run_keyOp_outside hl h, run_keyOp_outside hl h⟩, fun h => ⟨?_, ?_, ?_, ?_⟩⟩
    · exact run_keyOp_inside hl h (by simp only [Bool.and_eq_true, decide_eq_true_eq])
    · exact run_keyOp_inside hl h (by simp only [Bool.and_eq_true, decide_eq_true_eq])
    · exact run_keyOp_inside hl h (by simp only [Bool.and_eq_true, decide_eq_true_eq, and_assoc])
    · exact run_keyOp_inside hl h (clearKey_named_iff b)
  case slots =>
    intro s n k x y a r t hl fin u no m1 m2
    constructor
    · exact (run_whenLive _ hl).trans (next_keepFixed_ite _ _ _ (enroll_iff s k a _))
    · exact (run_whenLive _ hl).trans (next_keepFixed_ite _ _ _ (revoke_iff s k a _))
  case lockdown =>
    intro s w h v x y wait
    refine (run_hostAccess _ h).trans (next_settleAll_congr ((secCfgWrite_eq (written s) w).trans ?_))
    by_cases hstart : wget w Reg.SEC_CFG.lockdown = some 1 ∧ flag v Reg.SEC_CFG.lockdown = false
    · exact (if_pos hstart).trans ((startLockdown_unlocked hstart.2).trans (if_pos hstart).symm)
    · exact (if_neg hstart).trans (if_neg hstart).symm
  case resync =>
    intro s half hl hhalf
    refine (run_whenLive _ hl).trans (next_keepFixed_congr ?_)
    rw [Nat.mod_eq_of_lt hhalf]
    exact resync_eq ..

/-! ### The SPDM responder (R534, R535) -/

section
variable {s : State} {n : Option Nat} {f : State → State}

theorem run_afterNegotiation (hl : live s) (h : s.sec.spdm.algorithms = true) :
    run s (whenLive (afterNegotiation n f)) = .next (keepFixed s (f (cleared s))) :=
  (run_whenLive _ hl).trans (next_keepFixed_congr (if_pos h))

theorem run_beforeNegotiation (hl : live s) (h : s.sec.spdm.algorithms = false) :
    run s (whenLive (afterNegotiation n f)) = .next (keepFixed s (emit (cleared s) (.spdm n (.error spdmUnexpected)))) :=
  (run_whenLive _ hl).trans (next_keepFixed_congr (if_neg (ne_true_of_eq_false h)))

theorem run_inSession {a : Nat} (hl : live s) (h : s.sec.spdm.algorithms = true) (hsecure : secureSession s (some a) = true) :
    run s (whenLive (inSession a f)) = .next (keepFixed s (f (cleared s))) :=
  (run_afterNegotiation hl h).trans (next_keepFixed_congr (if_pos hsecure))

theorem run_outsideSession {a : Nat} (hl : live s) (h : s.sec.spdm.algorithms = true) (hopen : secureSession s (some a) = false) :
    run s (whenLive (inSession a f)) = .next (keepFixed s (emit (cleared s) (.spdm (some a) (.error spdmNoSession)))) :=
  (run_afterNegotiation hl h).trans (next_keepFixed_congr (if_neg (ne_true_of_eq_false hopen)))

/-- FINISH of a session that is open: set up twice, its code verified or not. -/
theorem exec_finish_open {a : Nat} {x : SpdmSess} (good : Bool) (hl : live s) (h : s.sec.spdm.algorithms = true)
    (hfind : s.sec.spdm.sessions.find? (·.id = a) = some x) :
    exec (.finish a good) s = .next (keepFixed s
      (if x.secure then emit (cleared s) (.spdm (some a) (.error spdmUnexpected))
       else if good then emit (modSpdm (cleared s) fun p => { p with sessions := p.sessions.map fun y => if y.id = a then { y with secure := true } else y }) (.spdm (some a) .finish)
       else emit (dropSession (cleared s) a) (.spdm (some a) (.error spdmDecrypt)))) := by
  refine (run_afterNegotiation hl h).trans (next_keepFixed_congr ?_)
  rw [show (cleared s).sec.spdm.sessions.find? (·.id = a) = _ from hfind]
  cases good <;> rfl

end

theorem challenged_iff (a b : Nat) : (a ≠ 0 || !summaryOk b) = true ↔ ¬ (a = 0 ∧ summaryOk b = true) := by
  rw [Bool.or_eq_true, decide_eq_true_eq, Bool.not_eq_true', ← Bool.not_eq_true, not_and_or]

/-- Settles O49: the requests before the agreement, those that need it, and those of one session. -/
theorem spdmRequests : Obligations.SpdmRequests := by
  intro s n a b c e h d g good signed hl fin u p err draw nonce
  refine ⟨?version, ?capabilities, ?algorithms, ?before, ?after⟩
  case version => exact run_whenLive _ hl
  case capabilities =>
    refine (run_whenLive _ hl).trans ((next_keepFixed_ite _ _ _ (by rw [Bool.not_eq_true'])).trans ?_)
    refine if_congr Iff.rfl rfl (next_keepFixed_ite _ _ _ ?_)
    simp only [Bool.and_eq_true, decide_eq_true_eq]
  case algorithms =>
    refine (run_whenLive _ hl).trans ((next_keepFixed_ite _ _ _ Option.isNone_iff_eq_none).trans ?_)
    refine if_congr Iff.rfl rfl ?_
    cases e && h && d && g <;> rfl
  case before =>
    intro hno
    exact ⟨run_beforeNegotiation hl hno, run_beforeNegotiation hl hno, run_beforeNegotiation hl hno, run_beforeNegotiation hl hno,
      run_beforeNegotiation hl hno, run_beforeNegotiation hl hno, run_beforeNegotiation hl hno, run_beforeNegotiation hl hno,
      run_beforeNegotiation hl hno⟩
  case after =>
    intro hyes
    refine ⟨run_afterNegotiation hl hyes, ?certificate, ?challenge, ?measurements, ?exchange, ?lost, ?finish, ?outside, ?inside⟩
    case certificate =>
      refine (run_afterNegotiation hl hyes).trans (next_keepFixed_ite _ _ _ ?_)
      simp only [Bool.or_eq_true, decide_eq_true_eq]
    case challenge =>
      exact (run_afterNegotiation hl hyes).trans ((next_keepFixed_ite _ _ _ (challenged_iff a b)).trans (ite_not ..))
    case measurements =>
      refine (run_afterNegotiation hl hyes).trans (next_keepFixed_ite _ _ _ ?_)
      simp only [Bool.and_eq_true, decide_eq_true_eq]
    case exchange =>
      refine (run_afterNegotiation hl hyes).trans ((next_keepFixed_ite _ _ _ (challenged_iff a b)).trans ?_)
      exact if_congr Iff.rfl rfl (next_keepFixed_ite _ _ _ Iff.rfl)
    case lost =>
      intro hfind
      refine (run_afterNegotiation hl hyes).trans (next_keepFixed_congr ?_)
      rw [show (cleared s).sec.spdm.sessions.find? (·.id = a) = _ from hfind]
      rfl
    case finish =>
      intro x hx
      refine (exec_finish_open good hl hyes hx).trans ((next_keepFixed_ite _ _ _ Iff.rfl).trans ?_)
      exact if_congr Iff.rfl rfl (next_keepFixed_ite _ _ _ Iff.rfl)
    case outside =>
      intro hopen
      exact ⟨run_outsideSession hl hyes hopen, run_outsideSession hl hyes hopen, run_outsideSession hl hyes hopen⟩
    case inside =>
      intro hsecure
      refine ⟨run_inSession hl hyes hsecure, ?_, run_inSession hl hyes hsecure⟩
      refine (run_inSession hl hyes hsecure).trans (next_keepFixed_ite _ _ _ ?_)
      simp only [Bool.and_eq_true, decide_eq_true_eq]

end Sys2Proof.Machine
end

section
/-! SUPPORT. The CAM's commands (R376 to R388) and the statement they settle. -/
namespace Sys2Proof.Machine

/-! ### Writes wait their bank's turn (R380 to R384) -/

theorem camWrite_eq (s : State) (w : CamWrite) :
    camWrite s w =
      if (tget? s.cam.writes w.bank).isSome then setCamWrites s w.bank (tget [] s.cam.writes w.bank ++ [w])
      else match camWriteBad s w with
        | none => setCamWrites s w.bank [w]
        | some (st, d) => setCamWrites (camRefuse s w st d) w.bank [] := by
  unfold camWrite camNext
  cases camWriteBad s w <;> rfl

section
variable {s : State} {sub : Sub}

theorem run_camVerb (op bank width priority action : Nat) (blocks : List Nat) (rsv : Nat) (h : accepts 3 s sub) (hctx : ctxBad s sub.context = none) :
    run s (whenUp (camVerb op sub bank width priority action blocks rsv)) = .next (keepFixed s (camWrite (taken s sub)
      (let k := if op = 4 then (0, 0, 0) else camKey width blocks
       { sub := sub, op := op, bank := bank, width := width, priority := priority, action := action, key := k.1, mask := k.2.1, rsv := rsv + k.2.2 }))) := by
  refine (run_verb _ h).trans (next_keepFixed_congr ?_)
  dsimp only
  rw [show ctxBad (taken s sub) sub.context = none from hctx]

/-- The entry of a CAM_WRITE, read into the write it asks for. -/
theorem camWrite_read {w : CamWrite} {k : Nat × Nat × Nat} {rsv : Nat} (hsub : w.sub = sub) (hk : k = (w.key, w.mask, w.rsv - rsv)) (hrsv : rsv ≤ w.rsv) :
    ({ sub := sub, op := w.op, bank := w.bank, width := w.width, priority := w.priority, action := w.action, key := k.1, mask := k.2.1,
       rsv := rsv + k.2.2 } : CamWrite) = w := by
  subst hsub hk
  simp only [Nat.add_sub_cancel' hrsv]

/-- A keyed write (op 1 to 3) of a context that is there. -/
theorem run_camVerb_keyed {w : CamWrite} {blocks : List Nat} {rsv : Nat} (h : accepts 3 s sub) (hctx : ctxBad s sub.context = none) (hsub : w.sub = sub)
    (hop : w.op ≠ 4) (hk : camKey w.width blocks = (w.key, w.mask, w.rsv - rsv)) (hrsv : rsv ≤ w.rsv) :
    run s (whenUp (camVerb w.op sub w.bank w.width w.priority w.action blocks rsv)) = .next (keepFixed s (camWrite (taken s sub) w)) := by
  rw [run_camVerb _ _ _ _ _ _ _ h hctx]
  dsimp only
  rw [if_neg hop, camWrite_read hsub hk hrsv]

end

/-! ### The completion of a bank's write, and the host's lookup (R382, R385, R388) -/

theorem camApply_eq (b : List CamEntry) (w : CamWrite) (i gen : Nat) :
    camApply b w i gen =
      if w.op = 1 then b.take i ++ [{ key := w.key, mask := w.mask, priority := w.priority, action := w.action, gen := gen }] ++ b.drop i
      else if w.op = 2 then b.take i ++ b.drop (i + 1)
      else if w.op = 3 then modAt (fun e => { e with action := w.action, gen := gen }) i b
      else [] := by
  unfold camApply
  split
  case h_1 h | h_2 h | h_3 h => simp [h]
  case h_4 h1 h2 h3 => rw [if_neg h1, if_neg h2, if_neg h3]

theorem camComplete_eq {s : State} {b : Nat} {w : CamWrite} {t : List CamWrite} (h : tget [] s.cam.writes b = w :: t) :
    camComplete s b =
      (let l := camBank s b
       let i := (camMoves s w).1
       let gen := wrapAdd 32 s.cam.gen 1
       let l' := if w.op = 1 then l.take i ++ [{ key := w.key, mask := w.mask, priority := w.priority, action := w.action, gen := gen }] ++ l.drop i
         else if w.op = 2 then l.take i ++ l.drop (i + 1)
         else if w.op = 3 then modAt (fun e => { e with action := w.action, gen := gen }) i l
         else []
       let u := setCamBank { s with cam := { s.cam with gen := gen } } b l'
       let u := bump (if w.op = 4 then setFldAt u Reg.CAM_BANK.width [b] w.width else u) Reg.CAM_COUNT.writes
       camNext t b (complete u w.sub .ok 0 [gen, i, (camMoves s w).2])) := by
  unfold camComplete
  rw [h]
  dsimp only
  rw [camApply_eq]

theorem doCamDrain_eq {s : State} {sub : Sub} {g : Nat} (hctx : ctxBad s sub.context = none) (hg : g = 0 ∨ serialLt 32 s.cam.gen g = false) :
    doCamDrain s sub g 0 =
      (let n := if g = 0 then s.cam.gen else g
       if camDrained s n then complete s sub .ok 0 [n] else { s with cam := { s.cam with drains := s.cam.drains ++ [(sub, n)] } }) := by
  have hpast : ¬ (decide (g ≠ 0) && serialLt 32 s.cam.gen g) = true := by rcases hg with h | h <;> simp [h]
  unfold doCamDrain
  rw [if_neg (by decide), hctx]
  exact if_neg hpast

theorem hostLookup_eq (s : State) {width : Nat} (h : width = 1 ∨ width = 2 ∨ width = 4) :
    hostLookup s width =
      (let u := setFld s Reg.CAM_LOOKUP_CTL.width width
       let r := camLookup u 3 (fld u Reg.CAM_LOOKUP_MASK.banks) width (hostKey u width)
       let z := r.getD (0, 0, ⟨0, 0, 0, 0, 0⟩)
       let v := setFld (setFld (bump u Reg.CAM_COUNT.lookups) Reg.CAM_LOOKUP_RES0.action z.2.2.action) Reg.CAM_LOOKUP_RES0.generation z.2.2.gen
       let v := setFld (setFld v Reg.CAM_LOOKUP_RES1.hit (b2n r.isSome)) Reg.CAM_LOOKUP_RES1.bank z.1
       setFld (setFld v Reg.CAM_LOOKUP_RES1.index z.2.1) Reg.CAM_LOOKUP_RES1.priority z.2.2.priority) :=
  if_neg (by rcases h with rfl | rfl | rfl <;> decide)

/-- Settles O29: writes by the one read of their entry, the completion by what the write's op does to the bank. -/
theorem camCommands : Obligations.CamCommands := by
  refine ⟨?writes, ?shift, ?drain, ?drained, ?lookup⟩
  case writes =>
    intro s sub w h hctx hsub u after
    have hafter : camWrite u w = after := camWrite_eq u w
    refine ⟨?_, ?_, ?_, ?_⟩
    · intro blocks rsv hop hk hrsv
      have hrun := run_camVerb_keyed h hctx hsub (by rw [hop]; decide) hk hrsv
      rw [hop] at hrun
      exact hrun.trans (next_keepFixed_congr hafter)
    · intro blocks rsv hop hact hk hrsv
      have hrun := run_camVerb_keyed h hctx hsub (by rw [hop]; decide) hk hrsv
      rw [hop, hact] at hrun
      exact hrun.trans (next_keepFixed_congr hafter)
    · intro blocks rsv hop hk hrsv
      have hrun := run_camVerb_keyed h hctx hsub (by rw [hop]; decide) hk hrsv
      rw [hop] at hrun
      exact hrun.trans (next_keepFixed_congr hafter)
    · intro hop hprio hact hkey hmask
      refine (run_camVerb 4 w.bank w.width 0 0 [] w.rsv h hctx).trans (next_keepFixed_congr (Eq.trans ?_ hafter))
      subst hsub
      cases w
      subst hop hprio hact hkey hmask
      rfl
  case shift =>
    intro s b w t h hw
    exact (run_whenUp _ h).trans (next_keepFixed_congr (camComplete_eq (s := cleared s) hw))
  case drain =>
    intro s sub g h hctx hg n
    exact (run_verb _ h).trans (next_keepFixed_congr (doCamDrain_eq (s := taken s sub) hctx hg))
  case drained => exact fun s h => run_whenUp _ h
  case lookup =>
    intro s width h hwidth
    exact (run_hostAccess _ h).trans (next_keepFixed_congr (hostLookup_eq (written s) hwidth))

end Sys2Proof.Machine
end

section
/-! SUPPORT. The vector search walker's commands (R391 to R403) and the statement they settle. -/
namespace Sys2Proof.Machine

/-! ### Loading an index (R391 to R393) -/

/-- A shard's nodes at their places in the banks. -/
def nodesWritten (s : State) (x : VsrIndex) (n nodes : Nat) (img : List Nat) : State :=
  (List.range nodes).foldl (fun s i => { s with nbu := { s.nbu with attic := writeBytes s.nbu.attic (vsrAddr s x i) (slice img (128 + i * n) n) } }) s

theorem vsrLoad_fits {s : State} {slot ctx length page : Nat} {img : List Nat} (shared : Bool) (hcap : hasCap s 4 = true) (hhead : vsrHeaderBad img = false)
    (hlen : length = 128 + leAt img 20 4 * vsrNodeSize (leAt img 8 2) (leAt img 5 1) (leAt img 7 1)) (hbody : vsrBodyBad img = false)
    (hdup : (s.vsr.slots.any fun v => v.1 ≠ slot && v.2.index.id = leAt img 10 2 && v.2.index.shard = leAt img 16 2) = false)
    (howner : (tget? s.vsr.slots slot).elim false (·.owner ≠ ctx) = false)
    (hfree : conflictWith s { no := 6, scope := [scIndex slot] } = none)
    (hroom : lowestRun (vsrRuns s) (vsrPages s)
      (ceilDiv (ceilDiv (leAt img 20 4) (1024 * (liveStacks s).length) * vsrNodeSize (leAt img 8 2) (leAt img 5 1) (leAt img 7 1)) 4096) = some page) :
    vsrLoad s slot ctx shared length img =
      (let id := leAt img 10 2
       let n := vsrNodeSize (leAt img 8 2) (leAt img 5 1) (leAt img 7 1)
       let nodes := leAt img 20 4
       let e := 1024 * (liveStacks s).length
       let x : VsrIndex := { id := id, elem := leAt img 5 1, metric := leAt img 6 1, degree := leAt img 7 1, dim := leAt img 8 2, first := leAt img 12 2,
                             count := leAt img 14 2, shard := leAt img 16 2, nodes := nodes, entry := leAt img 24 4, page := page,
                             pages := ceilDiv (ceilDiv nodes e * n) 4096, pairs := e, b0 := slot * 97 % e }
       let w := nodesWritten (vsrRetireSlot s slot) x n nodes img
       if sha384 (slice img 128 (nodes * n)) ≠ slice img 32 48 then vsrStatus s slot .digestMismatch 0x1 id
       else vsrStatus { w with vsr := { w.vsr with slots := tset w.vsr.slots slot { index := x, shared := shared, owner := ctx } } } slot .ok 0 id) := by
  have hwell : ¬ (vsrHeaderBad img || length ≠ 128 + leAt img 20 4 * vsrNodeSize (leAt img 8 2) (leAt img 5 1) (leAt img 7 1) || vsrBodyBad img) = true := by
    rw [hhead, hbody, hlen]
    simp
  unfold vsrLoad
  refine (if_neg (by rw [hcap]; decide)).trans ((if_neg hwell).trans (if_congr Iff.rfl rfl ?_))
  refine (if_neg (by rw [hdup]; decide)).trans ((if_neg (by rw [howner]; decide)).trans ?_)
  rw [hfree]
  dsimp only
  rw [hroom]
  rfl

/-! ### A query at its coordinator (R399) -/

section
variable {s : State} {sub : Sub} {id k beam flags addr all any mv rsv : Nat} {vec : List Nat}

theorem doVsrQuery_bad (hbad : vsrArgsBad k beam mv flags rsv = true) :
    doVsrQuery s sub id k beam flags vec addr all any mv rsv = refuse s sub .versionMismatch (if rsv ≠ 0 ∨ 4 ≤ flags then 0x2 else 0x7) := if_pos hbad

variable (hargs : vsrArgsBad k beam mv flags rsv = false) (hctx : ctxBad s sub.context = none) (hcap : hasCap s 4 = true)
include hargs hctx hcap

theorem doVsrQuery_unloaded (hslot : (s.vsr.slots.find? fun v => v.2.index.id = id) = none) :
    doVsrQuery s sub id k beam flags vec addr all any mv rsv = refuse s sub .badHandle 0xD := by
  unfold doVsrQuery
  simp only [hargs, hctx, hcap, hslot, Bool.not_true, Bool.false_eq_true, if_false]

theorem doVsrQuery_loaded {i : Nat} {v : VsrSlot} (hslot : (s.vsr.slots.find? fun v => v.2.index.id = id) = some (i, v))
    (hmay : v.shared = true ∨ v.owner = sub.context)
    (hfinite : (((List.range v.index.dim).map fun i => vec.getD i 0).any fun b => (match decode32 b with | .fin _ => false | _ => true)) = false) :
    doVsrQuery s sub id k beam flags vec addr all any mv rsv =
      (let q := (List.range v.index.dim).map fun i => vec.getD i 0
       let p : VsrParams := { k := k, beam := if beam = 0 then Nat.max k 64 else beam, maxVisits := if mv = 0 then fld s Reg.VSR_CFG.max_visits else mv,
                              filter := bitOf flags 0, all := all, any := any, vec := q }
       let shards := (List.range v.index.count).map (v.index.first + ·)
       shards.foldl (fun t h => askShard t s.vsr.next h)
         { s with vsr := { s.vsr with next := s.vsr.next + 1, queries := s.vsr.queries ++
           [{ id := s.vsr.next, sub := sub, indexId := id, first := v.index.first, par := p, partial_ := bitOf flags 1, resultAddr := addr,
              waits := shards.map fun h => (h, (shardRole s h).elim 0x7FF (·.device), false) }] } }) := by
  have hown : ¬ (!v.shared && v.owner ≠ sub.context) = true := by rcases hmay with h | h <;> simp [h]
  unfold doVsrQuery
  rw [if_neg (by rw [hargs]; decide), hctx]
  dsimp only
  rw [if_neg (by rw [hcap]; decide), hslot]
  exact (if_neg hown).trans (if_neg (ne_true_of_eq_false hfinite))

end

/-! ### Requests and answers of shards (R401, R402) -/

/-- What a shard's holder answers without results. -/
def shardRefusal (s : State) (r : VsrReq) (st : Status) (d : Nat) : State :=
  sendMsg s r.src (.vsrRsp { status := st, detail := d, flags := 0, shard := r.shard, request := r.request, visited := 0, entries := [] })

theorem takeVsrReq_absent {s : State} {r : VsrReq} (hcap : hasCap s 4 = true) (hslot : shardSlot s r.indexId r.shard = none) :
    takeVsrReq s r = shardRefusal s r .unitAbsent 0x2 := by
  unfold takeVsrReq
  simp only [hcap, hslot, Bool.not_true, Bool.false_eq_true, if_false]
  rfl

theorem takeVsrReq_held {s : State} {r : VsrReq} {i : Nat} {v : VsrSlot} (hcap : hasCap s 4 = true) (hslot : shardSlot s r.indexId r.shard = some (i, v))
    (hmay : v.shared = true ∨ v.owner = r.context) (hdim : r.dim = v.index.dim) :
    takeVsrReq s r = (walkAccept s i v.index r.context (.remote r.src r.request)
      { k := r.k, beam := r.beam, maxVisits := r.maxVisits, filter := r.filter, all := r.all, any := r.any, vec := r.vec }).getD (shardRefusal s r .noCapacity 0x9) := by
  have hown : ¬ (!v.shared && v.owner ≠ r.context) = true := by rcases hmay with h | h <;> simp [h]
  unfold takeVsrReq
  dsimp only
  rw [if_neg (by rw [hcap]; decide), hslot]
  refine (if_neg hown).trans ((if_neg (not_not.mpr hdim)).trans ?_)
  cases walkAccept s i v.index r.context (.remote r.src r.request)
    { k := r.k, beam := r.beam, maxVisits := r.maxVisits, filter := r.filter, all := r.all, any := r.any, vec := r.vec } <;> rfl

section
variable {s : State} {r : VsrRsp} {q : VsrQuery} (hq : (s.vsr.queries.find? (·.id = r.request)) = some q) (hwaits : q.waits.any (·.1 = r.shard) = true)
include hq hwaits

theorem takeVsrRsp_awaited :
    takeVsrRsp s r = match r.status with
      | .ok => shardAnswer s q r.shard r.entries r.visited r.flags
      | .unitAbsent => shardMissing s q r.shard
      | .staleRole => shardStale s q.id r.shard r.detail
      | st => endQuery s q st r.detail [] := by
  unfold takeVsrRsp
  rw [hq]
  exact if_neg (by rw [hwaits]; decide)

theorem takeVsrRsp_fails (hok : r.status ≠ .ok) (habsent : r.status ≠ .unitAbsent) (hstale : r.status ≠ .staleRole) :
    takeVsrRsp s r = endQuery s q r.status r.detail [] := by
  rw [takeVsrRsp_awaited hq hwaits]
  split
  case h_1 h => exact absurd h hok
  case h_2 h => exact absurd h habsent
  case h_3 h => exact absurd h hstale
  case h_4 => rfl

end

/-- Settles O31: each command on the state its gate gives it, by the outcome of its checks. -/
theorem vectorSearchCommands : Obligations.VectorSearchCommands := by
  refine ⟨?load, ?free, ?query, ?req, ?rsp⟩
  case load =>
    intro s slot ctx length shared img h hwalker u k id n nodes e pages hcap hhead hlen hbody hdup howner hfree page hroom
    refine (run_hostAccess _ h).trans (next_keepFixed_congr ((if_pos hwalker).trans ?_))
    exact vsrLoad_fits (s := u) shared hcap hhead hlen hbody hdup howner hfree hroom
  case free =>
    intro s slot ctx length shared h hwalker u
    exact (run_hostAccess _ h).trans (next_keepFixed_congr (if_pos hwalker))
  case query =>
    intro s sub id k beam flags addr all any mv rsv vec h u run'
    refine ⟨fun hbad => ?_, fun hargs hctx hcap => ⟨fun hslot => ?_, ?_⟩⟩
    · exact (run_verb _ h).trans (next_keepFixed_congr (doVsrQuery_bad (s := u) hbad))
    · exact (run_verb _ h).trans (next_keepFixed_congr (doVsrQuery_unloaded (s := u) hargs hctx hcap hslot))
    · intro i v hslot hmay q hfinite
      exact (run_verb _ h).trans (next_keepFixed_congr (doVsrQuery_loaded (s := u) hargs hctx hcap hslot hmay hfinite))
  case req =>
    intro s r h hcap answer
    refine ⟨fun hslot => ?_, fun i v hslot hmay hdim => ?_⟩
    · exact (run_whenUp _ h).trans (next_keepFixed_congr (takeVsrReq_absent (s := cleared s) hcap hslot))
    · exact (run_whenUp _ h).trans (next_keepFixed_congr (takeVsrReq_held (s := cleared s) hcap hslot hmay hdim))
  case rsp =>
    intro s r q h hq hwaits
    refine ⟨fun hok => ?_, fun habsent => ?_, fun hok habsent hstale => ?_, ?_⟩
    · refine (run_whenUp _ h).trans (next_keepFixed_congr ((takeVsrRsp_awaited (s := cleared s) hq hwaits).trans ?_))
      rw [hok]
    · refine (run_whenUp _ h).trans (next_keepFixed_congr ((takeVsrRsp_awaited (s := cleared s) hq hwaits).trans ?_))
      rw [habsent]
    · exact (run_whenUp _ h).trans (next_keepFixed_congr (takeVsrRsp_fails (s := cleared s) hq hwaits hok habsent hstale))
    · refine (run_whenUp _ h).trans (next_keepFixed_congr ?_)
      rw [show (cleared s).vsr.queries.find? (·.id = r.request) = _ from hq]
      exact if_pos hwaits

end Sys2Proof.Machine
end

section
/-! SUPPORT. Training, loss and return of links and Ethernet ports (R406 to R409, R426 to R431, R448) and the statement they settle. -/
namespace Sys2Proof.Machine

/-! ### HELLO and RESUME (R409, R429) -/

/-- A link after HELLO has told what it says of its partner. -/
def helloHeard (s : State) (n : Nat) (h : Hello) : State :=
  setLnk s n { lnkOf s n with partner := h.device % 2 ^ 11, partnerKind := h.kind, partnerLink := h.link, partnerStart := h.startEpoch, rank := h.rank }

theorem takeHello_eq {s : State} {n : Nat} (h : Hello) (hst : (lnkOf s n).st = .training ∨ (lnkOf s n).st = .held) :
    takeHello s n h =
      (let l := lnkOf s n
       let mine := helloOf s n
       let v := helloHeard s n h
       let w := if h.crypto = 1 then setSticky v 5 else v
       let resume : Ctl := .resume l.lastIn (if l.st = .held then l.epoch else (l.epoch + 1) % 2 ^ 16)
       if Nat.min mine.verMax h.verMax < Nat.max mine.verMin h.verMin then trainFails v n .versionMismatch
       else if h.crypto ≠ mine.crypto then trainFails v n .protection
       else if h.credits.length ≠ 5 ∨ (h.credits.any fun c => decide (c < 16)) = true then trainFails v n .noCapacity
       else modLnk w n fun x => { x with agreed := true, resumed := false, version := Nat.min mine.verMax h.verMax, crypto := h.crypto, pools := h.credits,
                                         keys := { x.keys with mine := none, theirs := none, derived := none },
                                         ctl := x.ctl ++ (if l.agreed then [.hello mine] else []) ++ [resume] }) := by
  have hlistens : ¬ ((lnkOf s n).st ≠ .training && (lnkOf s n).st ≠ .held) = true := by rcases hst with h | h <;> simp [h]
  unfold takeHello
  refine (if_neg hlistens).trans (if_congr Iff.rfl rfl (if_congr Iff.rfl rfl (if_congr ?_ rfl rfl)))
  rw [Bool.or_eq_true, decide_eq_true_eq]

section
variable {s : State} {n epoch : Nat} (last : Nat) (hagreed : (lnkOf s n).agreed = true)
include hagreed

theorem takeResume_held (hst : (lnkOf s n).st = .held) :
    takeResume s n last epoch = if epoch = (lnkOf s n).epoch then lnkReturns s n last else startTraining (lnkGoDown s n) n false :=
  (if_neg (by rw [hagreed]; decide)).trans (if_pos hst)

theorem takeResume_training (hst : (lnkOf s n).st = .training)
    (hnew : ¬ (epoch = (lnkOf s n).epoch ∧ epoch ≠ 0 ∧ (lnkOf s n).partnerStart = (lnkOf s n).upStart)) :
    takeResume s n last epoch =
      sendNonce (setLnk s n { lnkOf s n with epoch := Nat.max (((lnkOf s n).epoch + 1) % 2 ^ 16) (epoch % 2 ^ 16), resumed := true }) n (lnkOf s n).partner := by
  have hfresh : ¬ (epoch = (lnkOf s n).epoch && epoch ≠ 0 && (lnkOf s n).partnerStart = (lnkOf s n).upStart) = true := by
    simpa only [Bool.and_eq_true, decide_eq_true_eq, and_assoc] using hnew
  have hheld : ¬ (lnkOf s n).st = .held := by rw [hst]; decide
  unfold takeResume
  exact (if_neg (by rw [hagreed]; decide)).trans ((if_neg hheld).trans ((if_pos hst).trans (if_neg hfresh)))

end

/-! ### Loss of a port, and retraining (R407, R426) -/

theorem portLost_link {s : State} {n : Nat} (hn : n < 48) (hup : (lnkOf s n).st = .up) : portLost s n = lnkHeld s n true := by
  unfold portLost
  rw [if_pos hn, hup]

theorem portLost_eth {s : State} {p : Nat} (hup : (ethOf s p).st = .up) : portLost s (48 + p) = ethHeld s p := by
  unfold portLost
  rw [if_neg (by omega), Nat.add_sub_cancel_left, hup]

theorem lnkMayTrain {s : State} {n : Nat} (hen : lnkEnabled s n = true) (hst : (lnkOf s n).st ≠ .up) :
    (lnkEnabled s n && (lnkOf s n).st ≠ .up) = true := by simp [hen, hst]

theorem exec_linkSignalDetect {s : State} {n : Nat} (reversed : Bool) (hl : live s) (hn : n < 48) (hen : lnkEnabled s n = true) (hst : (lnkOf s n).st ≠ .up) :
    exec (.linkSignalDetect n 15 reversed) s = .next (keepFixed s (settleWhole (modLnk (startTraining (cleared s) n
      (match (lnkOf s n).coeffAt with | some t => decide (s.timebase < t + 100000000) | none => false)) n fun x => { x with reversed := reversed }))) := by
  have hopen : ¬ (!lnkEnabled s n || 15 % 16 ≠ 15 || (lnkOf s n).st = .up) = true := by simp [hen, hst]
  refine (run_actL _ hl).trans (next_settleWhole_congr ?_)
  rw [Nat.mod_eq_of_lt hn]
  exact if_neg hopen

/-- Settles O39: links by the state they are in, then what the host writes, then Ethernet ports. -/
theorem linkTrainingLossAndReturn : Obligations.LinkTrainingLossAndReturn := by
  refine ⟨?links, ?host, ?ports⟩
  case links =>
    intro s n hl hn fin u l
    refine ⟨fun h hst => ?_, fun last epoch hagreed => ⟨fun hst => ?_, fun hst hnew => ?_⟩, fun reversed hen hst => ?_, fun fec hup => ?_, fun hst => ?_,
      fun hen hst => ?_⟩
    · refine (run_actL _ hl).trans (next_settleWhole_congr ?_)
      rw [Nat.mod_eq_of_lt hn]
      exact takeHello_eq (s := u) h hst
    · refine (run_actL _ hl).trans (next_settleWhole_congr ?_)
      rw [Nat.mod_eq_of_lt hn]
      exact takeResume_held (s := u) last hagreed hst
    · refine (run_actL _ hl).trans (next_settleWhole_congr ?_)
      rw [Nat.mod_eq_of_lt hn]
      exact takeResume_training (s := u) last hagreed hst hnew
    · exact exec_linkSignalDetect reversed hl hn hen hst
    · refine (run_actL _ hl).trans (next_settleWhole_congr ?_)
      rw [Nat.mod_eq_of_lt (show n < 60 by omega)]
      dsimp only
      rw [if_pos hn]
      exact portLost_link hn hup
    · refine (run_actL _ hl).trans (next_settleWhole_congr ?_)
      rw [Nat.mod_eq_of_lt hn]
      exact if_pos hst
    · refine (run_actL _ hl).trans (next_settleWhole_congr ?_)
      rw [Nat.mod_eq_of_lt (show n < 60 by omega)]
      exact (if_pos hn).trans (if_pos (lnkMayTrain (s := u) hen hst))
  case host =>
    intro s n hreach hn fin u
    refine ⟨fun hen => ?_, fun w hport => ?_⟩
    · refine (run_hostActL _ hreach).trans (next_settleWhole_congr ?_)
      rw [Nat.mod_eq_of_lt hn]
      exact if_neg (by rw [hen]; decide)
    · refine (run_hostActL _ hreach).trans (next_settleWhole_congr ?_)
      rw [Nat.mod_eq_of_lt hn]
      exact if_pos hport
  case ports =>
    intro s p hl hp fin u
    refine ⟨fun hup => ?_, fun hheld => ?_, fun hen => ?_, ?_⟩
    · refine (run_actL _ hl).trans (next_settleWhole_congr ?_)
      rw [Nat.mod_eq_of_lt (show 48 + p < 60 by omega)]
      dsimp only
      rw [if_neg (show ¬ 48 + p < 48 by omega)]
      exact portLost_eth (s := u) hup
    · refine (run_actL _ hl).trans (next_settleWhole_congr ?_)
      rw [Nat.mod_eq_of_lt hp]
      exact if_pos hheld
    · refine (run_actL _ hl).trans (next_settleWhole_congr ?_)
      rw [Nat.mod_eq_of_lt hp]
      exact if_pos hen
    · refine (run_actL _ hl).trans (next_settleWhole_congr ?_)
      rw [Nat.mod_eq_of_lt (show 48 + p < 60 by omega)]
      refine (if_neg (show ¬ 48 + p < 48 by omega)).trans ?_
      rw [Nat.add_sub_cancel_left]

end Sys2Proof.Machine
end

section
/-! SUPPORT. Flits, credits, time exchange, express windows, flit boundaries and shapers (R411 to R420, R434 to R441) and the statement
they settle. -/
namespace Sys2Proof.Machine

/-! ### Flits received on an UP link (R411, R420) -/

section
variable {s : State} {n : Nat}

theorem run_onUp {h : FlitHead} {f : State → State} (hl : live s) (hn : n < 48) (hup : (lnkOf s n).st = .up) :
    run s (actL (onUp (n % 48) h f)) = .next (keepFixed s (settleWhole (f (takeHead (cleared s) n h)))) := by
  rw [Nat.mod_eq_of_lt hn]
  exact (run_actL _ hl).trans (next_settleWhole_congr (if_pos hup))

theorem takeTsync_opens {t : Tsync} (hrank : t.rank ≠ 0) (h2 : t.t2 = 0) (h3 : t.t3 = 0) :
    takeTsync s n t =
      (let l := lnkOf s n
       let low : Option Nat := if t.err < 20 then (match l.errLow with | some x => some x | none => some s.timebase) else none
       chooseParent (setLnk s n { l with rank := t.rank, err := t.err, synced := some (s.timebase, t.t1), errLow := low })) := by
  have hmeet : ∀ p q : Bool, ¬ (decide (t.rank = 0) && p && q) = true := by simp [hrank]
  have hopens : (decide (t.t2 = 0) && decide (t.t3 = 0)) = true := by simp [h2, h3]
  unfold takeTsync
  dsimp only
  rw [if_neg (hmeet _ _)]
  cases (lnkOf s n).sentT1 with
  | none => rfl
  | some t1 => exact if_pos hopens

section
variable {fl : Flit} {f : Frame} {i : Nat} (hup : (lnkOf s n).st = .up)
include hup

theorem takeFlit_badCrc (hcrc : fl.crcOk = false) : takeFlit s n fl = askRetry (bumpAt s Reg.LNK_ERR.crc [n] 1) n :=
  (if_neg (not_not.mpr hup)).trans (if_pos (by rw [hcrc]; rfl))

theorem takeFlit_data (hcrc : fl.crcOk = true) (hbody : fl.body = .data f i) :
    takeFlit s n fl =
      (let v := takeHead s n ⟨fl.ack, fl.pool, fl.returned⟩
       let l := lnkOf v n
       let want := (l.lastIn + 1) % 2 ^ 16
       let r := takeData (setLnk v n { l with lastIn := want, retrySent := false }) n fl f i
       if fl.seq = want then (match r.2 with | some x => frameDone r.1 n fl.vc x | none => r.1)
       else if serialLt 16 fl.seq want then setLnk v n { l with dupFlits := (l.dupFlits + 1) % 2 ^ 32 } else askRetry v n) := by
  unfold takeFlit
  refine (if_neg (not_not.mpr hup)).trans ((if_neg (by rw [hcrc]; decide)).trans ?_)
  rw [hbody] <;> rfl

end

/-! ### Flit boundaries (R412, R440) -/

theorem linkBoundary_ctl {c : Ctl} {cs : List Ctl} (h : (lnkOf s n).ctl = c :: cs) :
    linkBoundary s n =
      (let w := stampCtl (modLnk s n fun x => { x with ctl := cs }) n c
       sendPlain w.1 n (.ctl w.2)) := by
  unfold linkBoundary sendFirstCtl
  rw [h]

section
variable (hup : (lnkOf s n).st = .up) (hctl : (lnkOf s n).ctl = [])
include hup hctl

theorem linkBoundary_replays {fl : Flit} {rest : List Flit} (hagain : (lnkOf s n).again = fl :: rest) :
    linkBoundary s n =
      (let w := nextHead { lnkOf s n with again := rest }
       emit (setLnk s n w.1) (.flit n { fl with ack := w.2.ack, pool := w.2.pool, returned := w.2.returned })) := by
  unfold linkBoundary sendFirstCtl
  rw [hctl]
  refine (if_neg (not_not.mpr hup)).trans ?_
  rw [hagain]

theorem linkBoundary_schedules (hagain : (lnkOf s n).again = []) :
    linkBoundary s n = (schedule s n (List.range 8)).getD (sendPlain s n .idle) := by
  unfold linkBoundary sendFirstCtl
  rw [hctl]
  refine (if_neg (not_not.mpr hup)).trans ?_
  rw [hagain]
  cases schedule s n (List.range 8) <;> rfl

end

end

/-! ### Shapers (R441) -/

theorem shaperWrite_link {s : State} {n : Nat} (q : Nat) (w : RegWrite) (hn : n < 48) :
    shaperWrite s n q w =
      (let v := storeFields s w [n, q] [Reg.LNK_SHP_CFG.rate, Reg.LNK_SHP_CFG.burst_kib, Reg.LNK_SHP_CFG.reset_mode]
       if (wget w Reg.LNK_SHP_CFG.rate).isNone && (wget w Reg.LNK_SHP_CFG.burst_kib).isNone then v
       else setShaper v n q (if fldAt v Reg.LNK_SHP_CFG.reset_mode [n, q] = 1 then ((shaperBurst v n q : Nat) : Int) else 0)) := by
  unfold shaperWrite
  rw [if_pos hn]

/-- Settles O40: what a header leaves, then each flit, boundary and shaper by its own rule. -/
theorem flitsCreditsTimeAndShapers : Obligations.FlitsCreditsTimeAndShapers := by
  refine ⟨?flits, ?data, ?boundary, ?ether, ?refill, ?config⟩
  case flits =>
    intro s n h hl hn hup fin u v l
    have hm : n % 48 = n := Nat.mod_eq_of_lt hn
    refine ⟨?_, fun q => ?_, ?_, fun pools => ?_, ?_, fun k t => ?_, ?_, ?_, fun hsus hlow => ?_, ?_, fun t hrank h2 h3 => ?_⟩
    · exact (run_actL _ hl).trans (next_settleWhole_congr (by rw [hm]))
    · exact (run_onUp hl hn hup).trans (next_settleWhole_congr (by rw [hm]))
    · exact (run_actL _ hl).trans (next_settleWhole_congr (by rw [hm]))
    · refine (run_onUp hl hn hup).trans (next_settleWhole_congr ?_)
      rw [hm]
      rfl
    · refine (run_actL _ hl).trans (next_settleWhole_congr ?_)
      rw [hm]
      exact if_pos hup
    · exact (run_onUp hl hn hup).trans (next_settleWhole_congr (by rw [hm]))
    · exact (run_onUp hl hn hup).trans (next_settleWhole_congr (by rw [hm]))
    · exact (run_onUp hl hn hup).trans (next_settleWhole_congr (by rw [hm]))
    · have hends : (decide (l.st = .up) && l.partnerSuspended && l.errLow.isSome) = true := by simp [l, hup, hsus, hlow]
      refine (run_actL _ hl).trans (next_settleWhole_congr ?_)
      rw [hm]
      exact if_pos hends
    · refine (run_actL _ hl).trans (next_settleWhole_congr ?_)
      rw [hm]
      exact if_pos hup
    · refine (run_onUp hl hn hup).trans (next_settleWhole_congr ?_)
      rw [hm]
      exact takeTsync_opens hrank h2 h3
  case data =>
    intro s n fl f i hl hn hup hbody fin v l want
    have hm : n % 48 = n := Nat.mod_eq_of_lt hn
    refine ⟨fun hcrc => ?_, fun hcrc hseq => ?_, fun hcrc hseq => ?_⟩ <;> refine (run_actL _ hl).trans (next_settleWhole_congr ?_) <;> rw [hm]
    · exact takeFlit_badCrc (s := cleared s) hup hcrc
    · exact (takeFlit_data (s := cleared s) hup hcrc hbody).trans (if_pos hseq)
    · exact (takeFlit_data (s := cleared s) hup hcrc hbody).trans (if_neg hseq)
  case boundary =>
    intro s n hl hn hup fin u l
    have hm : n % 60 = n := Nat.mod_eq_of_lt (by omega)
    refine ⟨fun c cs hctl => ?_, fun fl rest hctl hagain => ?_, fun hctl hagain => ?_⟩ <;>
      refine (run_actL _ hl).trans (next_settleWhole_congr ?_) <;> rw [hm] <;> refine (if_pos hn).trans ?_
    · exact linkBoundary_ctl (s := u) hctl
    · exact linkBoundary_replays (s := u) hup hctl hagain
    · exact linkBoundary_schedules (s := u) hup hctl hagain
  case ether =>
    intro s p hl hp hup u
    refine (run_actL _ hl).trans (next_settleWhole_congr ?_)
    rw [Nat.mod_eq_of_lt (show 48 + p < 60 by omega)]
    refine (if_neg (show ¬ 48 + p < 48 by omega)).trans ?_
    rw [Nat.add_sub_cancel_left]
    exact if_neg (not_not.mpr hup)
  case refill => exact fun s hl => run_actL _ hl
  case config =>
    intro s n q w hreach hn hq hport v
    refine (run_hostActL _ hreach).trans (next_settleWhole_congr ?_)
    rw [Nat.mod_eq_of_lt (show n < 60 by omega), Nat.mod_eq_of_lt hq]
    exact (if_pos hport).trans (shaperWrite_link q w hn)

end Sys2Proof.Machine
end

section
/-! SUPPORT. Key setup and rekeying of a native link (R433, R530 to R533) and the statement they settle. -/
namespace Sys2Proof.Machine

section
variable {s : State} {n : Nat} (hn : n < 48)
include hn

/-! ### A native link's side of the keys -/

theorem keySide_link (dev : Nat) : keySide s n dev = (lnkOf s n).keys := if_pos hn

theorem epoch_setKeySide_link (dev : Nat) (k : KeySide) : (lnkOf (setKeySide s n dev k) n).epoch = (lnkOf s n).epoch := by
  unfold setKeySide
  rw [if_pos hn]
  unfold modLnk setLnk
  simp [lnkOf]

theorem keysDue_link (hst : (lnkOf s n).st = .training) (hres : (lnkOf s n).resumed = true) : keysDue s n = true := by
  unfold keysDue
  rw [if_pos hn, hst, hres]
  rfl

/-! ### Key setup (R531) -/

theorem keyNonce_derives {k : KeyFlit} {dev mine : Nat} {lmk : List Nat} (hdue : keysDue s n = true) (hmine : (lnkOf s n).keys.mine = some mine)
    (hheld : (tget? s.sec.lmk k.lmk).isSome = true) (hlmk : lmkOf s n dev k.lmk = some lmk) :
    keyNonce s n dev k =
      (let side := (lnkOf s n).keys
       let e := keyEnds s n dev
       let salt := nonceBytes e mine k.nonce
       let v := setKeySide s n dev { side with theirs := some k.nonce, lmk := if e.own ≤ e.peer then side.lmk else k.lmk,
                                               derived := some (dirKey lmk salt e.own e.peer e.ownLink e.epoch, dirKey lmk salt e.peer e.own e.peerLink e.epoch) }
       sendCtl v n dev (keyFlit 2 k.lmk false 0 0 (confirmMac lmk salt e.own))) := by
  have hnamed : ¬ (tget? s.sec.lmk k.lmk).isNone = true := by rw [← Option.not_isSome, hheld]; decide
  have hsent : ¬ (keySide s n dev).mine.isNone = true := by rw [keySide_link hn, hmine]; exact Bool.false_ne_true
  unfold keyNonce
  refine (if_neg (by rw [hdue]; decide)).trans ((if_neg hnamed).trans ?_)
  rw [if_neg hsent]
  simp only [keySide_link hn, hmine, hlmk]

omit hn in
theorem keyNonce_notHeld {k : KeyFlit} (dev : Nat) (hdue : keysDue s n = true) (hlmk : tget? s.sec.lmk k.lmk = none) :
    keyNonce s n dev k = keyFail (sendCtl s n dev (keyFlit 5 k.lmk false 0 0 0)) n dev 2 :=
  (if_neg (by rw [hdue]; decide)).trans (if_pos (by rw [hlmk]; rfl))

theorem keyConfirm_judges {k : KeyFlit} {dev mine theirs : Nat} {tx rx : DirKey} {lmk : List Nat} (hdue : keysDue s n = true)
    (hmine : (lnkOf s n).keys.mine = some mine) (htheirs : (lnkOf s n).keys.theirs = some theirs) (hderived : (lnkOf s n).keys.derived = some (tx, rx))
    (hlmk : tget? s.sec.lmk (lnkOf s n).keys.lmk = some lmk) :
    keyConfirm s n dev k =
      (let side := (lnkOf s n).keys
       let e := keyEnds s n dev
       if k.mac = confirmMac lmk (nonceBytes e mine theirs) e.peer then
         lnkUp (setKeySide s n dev { side with derived := none, tx := some tx, rx := some rx, old := none, rekey := none }) n (lnkOf s n).epoch
       else keyFail (sendCtl s n dev (keyFlit 5 side.lmk false 0 0 0)) n dev 1) := by
  unfold keyConfirm
  simp only [keySide_link hn, hdue, hmine, htheirs, hderived, hlmk, if_pos hn, epoch_setKeySide_link hn]

/-! ### Rekeying (R433, R532) -/

theorem keyRekey_next {k : KeyFlit} {rx : DirKey} (dev : Nat) (hrx : (lnkOf s n).keys.rx = some rx) (hnew : ¬ (k.seq = rx.seq ∧ 0 < rx.seq))
    (hseq : k.seq = (rx.seq + 1) % 2 ^ 32) :
    keyRekey s n dev k = sendCtl (setKeySide s n dev { (lnkOf s n).keys with rx := some (rekeyed rx k.nonce k.seq), old := some rx }) n dev
      (keyFlit 4 k.lmk k.phase k.seq 0 0) := by
  have hfirst : ¬ (decide (k.seq = rx.seq) && decide (0 < rx.seq)) = true := by simpa only [Bool.and_eq_true, decide_eq_true_eq] using hnew
  unfold keyRekey
  simp only [keySide_link hn, hrx]
  exact (if_neg hfirst).trans (if_neg (not_not.mpr hseq))

theorem keyRekey_copy {k : KeyFlit} {rx : DirKey} (dev : Nat) (hrx : (lnkOf s n).keys.rx = some rx) (hseq : k.seq = rx.seq) (hpos : 0 < rx.seq) :
    keyRekey s n dev k = sendCtl s n dev (keyFlit 4 k.lmk k.phase k.seq 0 0) := by
  unfold keyRekey
  simp only [keySide_link hn, hrx]
  exact if_pos (by simp [hseq, hpos])

theorem keyRekeyAck_outstanding {k : KeyFlit} {nonce : Nat} {new : DirKey} (dev : Nat) (hre : (lnkOf s n).keys.rekey = some (nonce, new))
    (hseq : k.seq = new.seq) : keyRekeyAck s n dev k = setKeySide s n dev { (lnkOf s n).keys with tx := some new, rekey := none } := by
  unfold keyRekeyAck
  simp only [keySide_link hn, hre]
  exact if_pos hseq

theorem rekeyStart_spent {tx : DirKey} (dev : Nat) (htx : (lnkOf s n).keys.tx = some tx) (hre : (lnkOf s n).keys.rekey = none)
    (hcount : 2 ^ 47 ≤ tx.counter) :
    rekeyStart s n dev =
      (let side := (lnkOf s n).keys
       let v := { s with link := { s.link with entropy := s.link.entropy + 1 } }
       let nonce := Config.fresh s.link.entropy % 2 ^ 256
       let new := rekeyed tx nonce ((tx.seq + 1) % 2 ^ 32)
       sendCtl (setKeySide v n dev { side with rekey := some (nonce, new) }) n dev (keyFlit 3 side.lmk new.phase new.seq nonce 0)) := by
  unfold rekeyStart
  simp only [keySide_link hn, htx, hre]
  exact if_neg (Nat.not_lt.mpr hcount)

theorem rekeyAgain_outstanding {nonce : Nat} {new : DirKey} (dev : Nat) (hre : (lnkOf s n).keys.rekey = some (nonce, new)) :
    rekeyAgain s n dev = sendCtl s n dev (keyFlit 3 (lnkOf s n).keys.lmk new.phase new.seq nonce 0) := by
  unfold rekeyAgain
  simp only [keySide_link hn, hre]

/-! ### KEY flits reach the key rules -/

/-- A KEY flit's effect is its rule's, after the header. -/
theorem run_keyOn {op : Nat} {h : FlitHead} {k : KeyFlit} {t : State} (hl : live s)
    (hkey : takeKey (takeHead (cleared s) n h) n (lnkOf s n).partner { k with op := op } = t) :
    run s (actL (keyOn n h op k)) = .next (keepFixed s (settleWhole t)) := by
  refine (run_actL _ hl).trans (next_settleWhole_congr ?_)
  unfold keyOn
  rw [Nat.mod_eq_of_lt hn]
  exact hkey

end

theorem takeHead_notUp {s : State} {n : Nat} (h : FlitHead) (hst : (lnkOf s n).st ≠ .up) : takeHead s n h = s := if_pos hst

/-- Settles O41: setup of a link in training, rekeying as its receiver, rekeying as its sender. -/
theorem linkKeySetupAndRekeying : Obligations.LinkKeySetupAndRekeying := by
  refine ⟨?setup, ?receives, ?sends⟩
  case setup =>
    intro s n h k dev hl hn hst hres hdev fin u side e
    subst hdev
    have hhead : takeHead u n h = u := takeHead_notUp (s := u) h (by rw [show (lnkOf u n).st = _ from hst]; decide)
    have hdue : keysDue u n = true := keysDue_link (s := u) hn hst hres
    refine ⟨fun mine lmk hmine hheld hlmk => ?_, fun hlmk => ?_, fun mine theirs tx rx lmk hmine htheirs hderived hlmk => ?_, ?_⟩ <;>
      refine run_keyOn hn hl ?_ <;> rw [hhead]
    · exact keyNonce_derives (s := u) (k := { k with op := 1 }) hn hdue hmine hheld hlmk
    · exact keyNonce_notHeld (s := u) (k := { k with op := 1 }) _ hdue hlmk
    · exact keyConfirm_judges (s := u) (k := { k with op := 2 }) hn hdue hmine htheirs hderived hlmk
    · exact if_pos hdue
  case receives =>
    intro s n h k hl hn fin v dev side ack
    refine ⟨fun rx hrx hnew hseq => ?_, fun rx hrx hseq hpos => ?_, fun nonce new hre hseq => ?_⟩ <;> refine run_keyOn hn hl ?_
    · exact keyRekey_next (s := v) (k := { k with op := 3 }) hn dev hrx hnew hseq
    · exact keyRekey_copy (s := v) (k := { k with op := 3 }) hn dev hrx hseq hpos
    · exact keyRekeyAck_outstanding (s := v) (k := { k with op := 4 }) hn dev hre hseq
  case sends =>
    intro s n dev hl hn fin u side
    have hm : n % 60 = n := Nat.mod_eq_of_lt (by omega)
    refine ⟨fun tx htx hre hcount => ?_, fun nonce new hre => ?_, ?_⟩ <;> refine (run_actL _ hl).trans (next_settleWhole_congr ?_) <;> rw [hm]
    · exact rekeyStart_spent (s := u) hn dev htx hre hcount
    · exact rekeyAgain_outstanding (s := u) hn dev hre
    · unfold oldKeyGone
      rw [keySide_link hn]
      rfl

end Sys2Proof.Machine
end

section
/-! SUPPORT. Received frames, transactions, the tunnel, Ethernet frames and PTP (R417 to R424, R433, R444 to R447) and the statement
they settle. -/
namespace Sys2Proof.Machine

/-! ### Frames (R417, R422 to R424, R433) -/

section
variable {s u : State} {p : Nat} {f : Frame} {m : Msg}

section
variable (hup : portState s p = .up) (hdst : f.dst = s.device)
include hup hdst

theorem takeFrame_badTag (htag : tagOk s p f = (u, false)) : takeFrame s p f = authFailed u p := by
  unfold takeFrame
  rw [if_neg (not_not.mpr hup), if_neg (not_not.mpr hdst), htag]
  rfl

theorem takeFrame_tack {l : List TackEntry} (htag : tagOk s p f = (u, true)) (hbody : f.body = .tack l) : takeFrame s p f = takeTack u f.src l := by
  unfold takeFrame
  rw [if_neg (not_not.mpr hup), if_neg (not_not.mpr hdst), htag, hbody]
  rfl

theorem takeFrame_msg (htag : tagOk s p f = (u, true)) (hbody : f.body = .msg m) : takeFrame s p f = takeMsg u p f m := by
  unfold takeFrame
  rw [if_neg (not_not.mpr hup), if_neg (not_not.mpr hdst), htag, hbody]
  rfl

end

theorem takeMsg_new (port : Nat) (hwindow : tget? s.link.windows f.src = none) : takeMsg s port f m = decideFrame s port f m false := by
  unfold takeMsg
  rw [hwindow]

theorem takeMsg_copy {w : Window} {n d : Nat} {st : Status} (port : Nat) (hwindow : tget? s.link.windows f.src = some w) (hstart : w.startEpoch = f.startEpoch)
    (hmark : (w.marks.find? (·.1 = f.txid)) = some (n, some (st, d))) : takeMsg s port f m = sendTack (bump s Reg.LNK_DUP.dups) f.src f.txid st d := by
  unfold takeMsg
  rw [hwindow]
  refine (if_neg (not_not.mpr hstart)).trans ?_
  rw [hmark]

theorem finishFrame_ok (s : State) (port : Nat) (f : Frame) (m : Msg) (d : Nat) :
    finishFrame s port f m .ok d = deliver (sendTack (recordTx s f.src f.startEpoch f.txid (some (.ok, d))) f.src f.txid .ok d) port f.src m := by
  unfold finishFrame
  rw [if_pos rfl]

theorem finishFrame_refused {st : Status} (s : State) (port : Nat) (f : Frame) (m : Msg) (d : Nat) (h : st ≠ .ok) :
    finishFrame s port f m st d = sendTack (recordTx s f.src f.startEpoch f.txid (some (st, d))) f.src f.txid st d := by
  unfold finishFrame
  rw [if_neg h]

theorem decideFrame_pass (port : Nat) (last : Bool) (hrole : roleCheck (nameFirst s m) f.src m = .pass) :
    decideFrame s port f m last =
      deliver (sendTack (recordTx (nameFirst s m) f.src f.startEpoch f.txid (some (.ok, 0))) f.src f.txid .ok 0) port f.src m := by
  unfold decideFrame
  dsimp only
  rw [hrole]
  exact finishFrame_ok ..

theorem decideFrame_stale {e : Nat} (port : Nat) (last : Bool) (hrole : roleCheck (nameFirst s m) f.src m = .stale e) :
    decideFrame s port f m last = sendTack (recordTx (nameFirst s m) f.src f.startEpoch f.txid (some (.staleRole, e))) f.src f.txid .staleRole e := by
  unfold decideFrame
  dsimp only
  rw [hrole]
  exact finishFrame_refused _ _ _ _ _ (by decide)

theorem decideFrame_hold {e : Nat} (port : Nat) (hrole : roleCheck (nameFirst s m) f.src m = .hold e) :
    decideFrame s port f m false =
      (let kept := recordTx (nameFirst s m) f.src f.startEpoch f.txid none
       { kept with link := { kept.link with held := (nameFirst s m).link.held ++ [{ frame := f, port := port }] } }) := by
  unfold decideFrame
  dsimp only
  rw [hrole]
  rfl

/-! ### Transactions (R421, R424) -/

theorem retxTimer_sent {src txid : Nat} {t : Txn} (htxn : txnOf s src txid = some t) (hport : t.port.isSome = true) (hsent : stillSending s t = false) :
    retxTimer s src txid =
      (let r := choosePort s t.dest t.vc t.flow t.cls
       if fld s Reg.LNK_XCFG.retx_max ≤ t.sends then endTxn s t .linkDown 2
       else match r.2 with
         | some p => launchOn r.1 t p
         | none => if isIsolated r.1 src then endTxn r.1 t .linkDown 6 else modTxn r.1 src txid fun x => { x with port := none }) := by
  have hidle : ¬ (t.port.isNone || stillSending s t) = true := by rw [← Option.not_isSome, hport, hsent]; decide
  unfold retxTimer
  rw [htxn]
  exact if_neg hidle

theorem epochHoldOver_held {src txid : Nat} {h : EpochHeld} (hheld : (s.link.held.find? fun h => h.frame.src = src && h.frame.txid = txid) = some h)
    (hbody : h.frame.body = .msg m) :
    epochHoldOver s src txid = decideFrame { s with link := { s.link with held := s.link.held.erase h } } h.port h.frame m true := by
  unfold epochHoldOver
  rw [hheld]
  dsimp only
  rw [hbody]

end

/-! ### The tunnel (R444) -/

theorem rangesCover_one (n : Nat) : rangesCover 1 [(0, n)] 0 (0 + n) = true := by
  rcases Nat.eq_zero_or_pos n with rfl | hn
  · rfl
  · simp [rangesCover, hn]

section
variable {s : State} {p src : Nat} {g : TunnelSeg} {f : Frame} (hup : (ethOf s p).st = .up) (hctl : g.control = none) (hframe : g.frame = some f)
  (hnew : ((ethOf s p).reasm.find? fun r => r.src = src && r.frameNo = g.frameNo) = none)
include hup hctl hframe hnew

theorem takeSegment_whole (hlast : g.last = true) (hoff : g.offset = 0) :
    takeSegment s p src g =
      takeFrame (setEth s p { ethOf s p with reasm := (ethOf s p).reasm.filter fun r => !(r.src = src && r.frameNo = g.frameNo) }) (48 + p) f := by
  unfold takeSegment
  rw [hctl]
  refine (if_neg (not_not.mpr hup)).trans ?_
  simp only [hnew, hframe, hlast, hoff, Option.getD_none, if_true, List.nil_append, List.length_singleton, rangesCover_one]

theorem takeSegment_first (hlast : g.last = false) :
    takeSegment s p src g =
      setEth s p { ethOf s p with reasm := ((ethOf s p).reasm.filter fun r => !(r.src = src && r.frameNo = g.frameNo)) ++
        [{ src := src, frameNo := g.frameNo, frame := some f, total := none, ranges := [(g.offset, g.length)] }] } := by
  unfold takeSegment
  rw [hctl]
  refine (if_neg (not_not.mpr hup)).trans ?_
  simp only [hnew, hframe, hlast, Option.getD_none, Bool.false_eq_true, if_false, List.nil_append]

end

/-! ### Ethernet frames and PTP (R445, R447) -/

theorem takeEther_miss {s : State} {p : Nat} {k : EthKey} {body : EthBody} (bytes : Nat) (hup : (ethOf s p).st = .up)
    (hmiss : camLookup s 1 (2 ^ 64 - 1) 2 (ethKeyWord p k body) = none) :
    takeEther s p k bytes body =
      (let v := camCount s
       let a := bitsOf (fld v Reg.ETH_CFG.miss_action) 0 3
       ethAction (pfcLevel v p (k.pcp % 8) bytes) p (if a = 7 then fixedRule v k else a) none body) := by
  unfold takeEther
  refine (if_neg (not_not.mpr hup)).trans ?_
  rw [hmiss]
  rfl

section
variable {s : State} {p : Nat} {m : PtpMsg} (hport : ptpPort s p = true) (hdomain : m.domain = fld s Reg.ETH_PTP.domain) (hstate : s.link.ptp.state ≠ 0)
include hport hdomain hstate

theorem takePtp_announce {c : PtpClock} (htype : m.type = 0xB) (hclock : m.clock = some c) (husable : Config.betterClock (some (clockKey c)) none = true)
    (hother : (s.link.ptp.best.elim false fun b => b.identity = c.identity) = false) :
    takePtp s p m = if Config.betterClock (some (clockKey c)) (s.link.ptp.best.map clockKey)
      then setPtpState (modPtp s fun x => { x with best := some c, port := p }) 2 else s := by
  have hserved : ¬ (!ptpPort s p || m.domain ≠ fld s Reg.ETH_PTP.domain) = true := by simp [hport, hdomain]
  unfold takePtp
  refine (if_neg hserved).trans ?_
  simp only [if_neg hstate, htype, hclock, husable, hother, Bool.not_true, Bool.false_eq_true, if_false, Bool.false_or]

omit hstate in
theorem takePtp_sync {b : PtpClock} (htype : m.type = 0) (hstep : m.twoStep = false) (hbest : s.link.ptp.best = some b) (hsource : b.identity = m.source)
    (hfrom : s.link.ptp.port = p) (hslave : s.link.ptp.state = 2) : takePtp s p m = ptpRequest s p s.timebase (m.time + m.correction) := by
  have hserved : ¬ (!ptpPort s p || m.domain ≠ fld s Reg.ETH_PTP.domain) = true := by simp [hport, hdomain]
  unfold takePtp
  refine (if_neg hserved).trans ?_
  simp [htype, hstep, hbest, hsource, hfrom, hslave]

end

/-- Settles O42: frames by what the tag check and the role check say, transactions, then the Ethernet ports. -/
theorem framesTransactionsAndEthernet : Obligations.FramesTransactionsAndEthernet := by
  refine ⟨?frames, ?txns, ?ports⟩
  case frames =>
    intro s u p f ok hl hp hup fin
    have hexec : ∀ {t : State}, takeFrame (cleared s) p f = t → exec (.frameReceive p f) s = .next (keepFixed s (settleWhole t)) := by
      intro t h
      refine (run_actL _ hl).trans (next_settleWhole_congr ?_)
      rw [Nat.mod_eq_of_lt hp]
      exact h
    refine ⟨fun hdst => hexec (takeFrame_misrouted (s := cleared s) hup hdst), fun hdst htag => ⟨?_, ?_, ?_⟩⟩
    · rintro rfl
      exact hexec (takeFrame_badTag (s := cleared s) hup hdst htag)
    · rintro l rfl hbody
      exact hexec (takeFrame_tack (s := cleared s) hup hdst htag hbody)
    · rintro m rfl hbody
      have hmsg : takeFrame (cleared s) p f = takeMsg u p f m := takeFrame_msg (s := cleared s) hup hdst htag hbody
      refine ⟨fun hwindow => ⟨fun hrole => ?_, fun e hrole => ?_, fun e hrole => ?_⟩, fun w n st d hwindow hstart hmark => ?_⟩
      · exact hexec (hmsg.trans ((takeMsg_new p hwindow).trans (decideFrame_pass p false hrole)))
      · exact hexec (hmsg.trans ((takeMsg_new p hwindow).trans (decideFrame_stale p false hrole)))
      · exact hexec (hmsg.trans ((takeMsg_new p hwindow).trans (decideFrame_hold p hrole)))
      · exact hexec (hmsg.trans (takeMsg_copy p hwindow hstart hmark))
  case txns =>
    intro s src txid hl fin u
    refine ⟨fun l => run_actL _ hl, fun t htxn hport hsent => ?_, fun h m hheld hbody => ?_⟩
    · exact (run_actL _ hl).trans (next_settleWhole_congr (retxTimer_sent (s := u) htxn hport hsent))
    · exact (run_actL _ hl).trans (next_settleWhole_congr (epochHoldOver_held (s := u) hheld hbody))
  case ports =>
    intro s p src hl hp fin u e
    have hm : p % 12 = p := Nat.mod_eq_of_lt hp
    refine ⟨fun g f hup hctl hframe hfirst hnew => ⟨fun hlast hoff => ?_, fun hlast => ?_⟩, fun no => ?_, fun k bytes body hup hmiss => ?_,
      fun m hport hdomain hstate => ⟨fun c htype hclock husable hother => ?_, fun b htype hstep hbest hsource hfrom hslave => ?_⟩⟩ <;>
      refine (run_actL _ hl).trans (next_settleWhole_congr ?_) <;> rw [hm]
    · exact takeSegment_whole (s := u) hup hctl hframe hnew hlast hoff
    · exact takeSegment_first (s := u) hup hctl hframe hnew hlast
    · rfl
    · exact takeEther_miss (s := u) bytes hup hmiss
    · exact takePtp_announce (s := u) hport hdomain hstate htype hclock husable hother
    · exact takePtp_sync (s := u) hport hdomain htype hstep hbest hsource hfrom hslave

end Sys2Proof.Machine
end

section
/-! SUPPORT. Remote memory messages and RoCEv2 packets on a cached connection (R451 to R464, R473) and the statement they settle. -/
namespace Sys2Proof.Machine

theorem next_settleRma_congr {s t u : State} (h : t = u) :
    (.next (keepFixed s (settleAll (settleRma t))) : Host.Outcome State Fault Refusal) = .next (keepFixed s (settleAll (settleRma u))) := by rw [h]

theorem throughCache_cached {s : State} {c : Conn} (p : HeldPkt) (f : State → State) (h : c.place = .cached) : throughCache s c p f = f s := by
  unfold throughCache
  rw [h]

/-! ### Native requests (R454, R459, R464) -/

section
variable {s : State} {m : RmMsg} {ecc : Bool} {c : Conn} (hconn : connOf s m.conn = some c) (hready : c.state = .ready)
include hconn hready

theorem takeRm_cached (hcached : c.place = .cached) : takeRm s m ecc = if m.type = 0x83 then rmReadRsp s m else rmDecide s m ecc := by
  unfold takeRm
  rw [hconn]
  exact (if_neg (by rw [hready]; decide)).trans (throughCache_cached _ _ hcached)

theorem rmDecide_eq :
    rmDecide s m ecc =
      (let next := wrapAdd 32 c.recvH 1
       if m.id = next then rmServe s c m ecc true
       else if (c.recvH + 2 ^ 32 - m.id) % 2 ^ 32 < 4096 then
         if m.type = 0x82 then rmServe (bump s Reg.RMA_COUNT.dup_acks) c m ecc false else sendRmAck (bump s Reg.RMA_COUNT.dup_acks) c 0 m.id .ok 0 0
       else sendRmAck s c 1 m.id .ok 0 next) := by
  unfold rmDecide
  rw [hconn]
  exact if_neg (by rw [hready]; decide)

theorem rmReadRsp_eq :
    rmReadRsp s m =
      (let hit (r : RmReq) : Bool := r.op = 0x82 && r.id = m.id && r.length = m.data.length
       reqsDone (setConn s { c with reqs := c.reqs.map fun r => if hit r then { r with got := m.data } else r }) m.conn hit) := by
  unfold rmReadRsp
  rw [hconn]
  exact if_neg (by rw [hready]; decide)

end

theorem rmServe_passes {s u : State} {c : Conn} {m : RmMsg} {ecc : Bool} (hchecks : rmChecks s c m ecc = (u, none)) :
    rmServe s c m ecc true =
      (let d := { c with recvH := m.id, tTouch := u.timebase }
       let t := rmApply (setConn u d) d m
       if m.type = 0x82 then t else sendRmAck t d 0 m.id .ok 0 0) := by
  unfold rmServe
  rw [hchecks]
  rfl

/-- A native request on a cached READY connection, by its ID: the next, a repeat, or a gap. -/
theorem run_rmRequest {s : State} {m : RmMsg} {ecc : Bool} {c : Conn} (hup : serving s) (hconn : connOf s m.conn = some c) (hready : c.state = .ready)
    (hcached : c.place = .cached) (htype : m.type ≠ 0x83) :
    run s (actR fun s => takeRm s m ecc) = .next (keepFixed s (settleAll (settleRma
      (let next := wrapAdd 32 c.recvH 1
       if m.id = next then rmServe (cleared s) c m ecc true
       else if (c.recvH + 2 ^ 32 - m.id) % 2 ^ 32 < 4096 then
         if m.type = 0x82 then rmServe (bump (cleared s) Reg.RMA_COUNT.dup_acks) c m ecc false
         else sendRmAck (bump (cleared s) Reg.RMA_COUNT.dup_acks) c 0 m.id .ok 0 0
       else sendRmAck (cleared s) c 1 m.id .ok 0 next)))) := by
  rw [run_actR _ hup, takeRm_cached (s := cleared s) hconn hready hcached, if_neg htype, rmDecide_eq (s := cleared s) hconn hready]

section
variable {s u : State} {m : RmMsg} {ecc : Bool} {c : Conn} (hup : serving s) (hconn : connOf s m.conn = some c) (hready : c.state = .ready)
  (hcached : c.place = .cached) (htype : m.type ≠ 0x83)
include hup hconn hready hcached htype

theorem run_rmNext (hid : m.id = wrapAdd 32 c.recvH 1) (hchecks : rmChecks (cleared s) c m ecc = (u, none)) :
    run s (actR fun s => takeRm s m ecc) = .next (keepFixed s (settleAll (settleRma
      (let d := { c with recvH := m.id, tTouch := u.timebase }
       let t := rmApply (setConn u d) d m
       if m.type = 0x82 then t else sendRmAck t d 0 m.id .ok 0 0)))) := by
  rw [run_rmRequest hup hconn hready hcached htype]
  dsimp only
  rw [if_pos hid, rmServe_passes hchecks]

theorem run_rmRepeat (hid : m.id ≠ wrapAdd 32 c.recvH 1) (hback : (c.recvH + 2 ^ 32 - m.id) % 2 ^ 32 < 4096) :
    run s (actR fun s => takeRm s m ecc) = .next (keepFixed s (settleAll (settleRma
      (if m.type = 0x82 then rmServe (bump (cleared s) Reg.RMA_COUNT.dup_acks) c m ecc false
       else sendRmAck (bump (cleared s) Reg.RMA_COUNT.dup_acks) c 0 m.id .ok 0 0)))) := by
  rw [run_rmRequest hup hconn hready hcached htype]
  dsimp only
  rw [if_neg hid, if_pos hback]

theorem run_rmGap (hid : m.id ≠ wrapAdd 32 c.recvH 1) (hback : 4096 ≤ (c.recvH + 2 ^ 32 - m.id) % 2 ^ 32) :
    run s (actR fun s => takeRm s m ecc) = .next (keepFixed s (settleAll (settleRma (sendRmAck (cleared s) c 1 m.id .ok 0 (wrapAdd 32 c.recvH 1))))) := by
  rw [run_rmRequest hup hconn hready hcached htype]
  dsimp only
  rw [if_neg hid, if_neg (Nat.not_lt.mpr hback)]

end

/-- A message without a connection, or for one in ERROR. -/
theorem takeRm_dropped {s : State} {m : RmMsg} {ecc : Bool} (h : (connOf s m.conn).elim true (·.state = .error) = true) :
    takeRm s m ecc = bump s Reg.RMA_COUNT.dropped := by
  unfold takeRm
  cases hconn : connOf s m.conn with
  | none => rfl
  | some c =>
    rw [hconn] at h
    exact if_pos (of_decide_eq_true h)

theorem takeRmAck_cached {s : State} {a : RmAck} {c : Conn} (hconn : connOf s a.conn = some c) (hready : c.state = .ready) (hcached : c.place = .cached) :
    takeRmAck s a = match a.kind with
      | 0 => ackReqs s a.conn a.id
      | 1 => resend s a.conn
      | 2 => nakConn s a.conn a.id (statusOf a.status) a.detail
      | _ => rnrConn s a.conn := by
  have herr : ¬ c.state = .error := by rw [hready]; decide
  unfold takeRmAck
  rw [hconn]
  refine (if_neg herr).trans ((throughCache_cached _ _ hcached).trans ?_)
  unfold rmAcked
  rw [hconn]
  exact if_neg herr

/-! ### RoCEv2 packets (R451, R459, R460) -/

section
variable {s : State} {p : RocePkt} {c : Conn} (hconn : connOf s p.qp = some c) (hkeep : roceDropped s p = false)
include hconn hkeep

theorem roceDropped_live : ¬ c.state = .error := by
  intro herr
  simp [roceDropped, hconn, herr] at hkeep

theorem takeRoceRsp_cached (hcached : c.place = .cached) : takeRoceRsp s p = roceResponse s p := by
  unfold takeRoceRsp
  rw [if_neg (ne_true_of_eq_false hkeep), hconn]
  exact throughCache_cached _ _ hcached

theorem takeRoceReq_cached (port : Nat) (named : Option Nat) (ecc : Bool) (hcached : c.place = .cached) :
    takeRoceReq s port named p ecc =
      (let s := if p.ce then sendCnp s c else s
       let c := (connOf s p.qp).getD c
       let next := wrapAdd 32 c.recvH 1
       let id := extendPsn p.psn next
       if roceRequest p.op = false then errConn (sendAeth s c id 0x61) c.num .versionMismatch id 7
       else if id = next then roceServe s c id named p ecc true
       else if (c.recvH + 2 ^ 32 - id) % 2 ^ 32 < 4096 then
         if p.op = 0x0C then roceServe (bump s Reg.RMA_COUNT.dup_acks) c id named p ecc false
         else sendAeth (bump s Reg.RMA_COUNT.dup_acks) c id (Config.aethCredit % 32)
       else sendAeth s c next 0x60) := by
  unfold takeRoceReq
  rw [if_neg (ne_true_of_eq_false hkeep), hconn]
  refine (throughCache_cached _ _ hcached).trans ?_
  unfold roceDecide
  rw [hconn]
  refine (if_neg (roceDropped_live hconn hkeep)).trans ?_
  simp only [Bool.not_eq_true']

end

theorem roceServe_passes {s u : State} {c : Conn} {id : Nat} {named item : Option Nat} {p : RocePkt} {ecc : Bool}
    (hchecks : roceChecks s c named p ecc = (u, none, item)) :
    roceServe s c id named p ecc true =
      (let d := { c with recvH := if p.op = 0x0C then wrapAdd 32 id (Nat.max 1 (ceilDiv p.length (mtuBytes c)) - 1) else id, tTouch := u.timebase }
       let done := roceApply (setConn u d) d id p item
       if p.op = 0x0C || !(p.ackReq || [0x04, 0x08, 0x09, 0x0A, 0x0B].contains p.op) then done else sendAeth done d id (Config.aethCredit % 32)) := by
  unfold roceServe
  rw [hchecks]
  rfl

theorem roceResponse_ack {s : State} {p : RocePkt} {c : Conn} (hconn : connOf s p.qp = some c) (hop : p.op = 0x11) (hsyn : p.syndrome < 32) :
    roceResponse s p = ackReqs s p.qp (extendPsn p.psn ((c.reqs.head?).elim c.sendId (·.id))) := by
  have hclass : p.syndrome / 32 = 0 := Nat.div_eq_of_lt hsyn
  have hgap : p.syndrome ≠ 0x60 := by omega
  unfold roceResponse
  simp [hconn, hop, hclass, hgap]

theorem roceResponse_read {s : State} {p : RocePkt} {c : Conn} (hconn : connOf s p.qp = some c) (hop : p.op ≠ 0x11) :
    roceResponse s p =
      (let id := extendPsn p.psn ((c.reqs.head?).elim c.sendId (·.id))
       let hit (r : RmReq) : Bool := r.op = 0x0C && wrapAdd 32 r.id (r.got.length / mtuBytes c) = id && decide (r.got.length + p.data.length ≤ r.length)
       reqsDone (setConn s { c with reqs := c.reqs.map fun r => if hit r then { r with got := r.got ++ p.data } else r })
         p.qp fun r => r.op = 0x0C && r.got.length = r.length) := by
  unfold roceResponse
  rw [hconn]
  simp only [hop, decide_false, Bool.false_and, Bool.false_eq_true, if_false]

/-- Settles O36: requests by their ID, answers by their kind, and what has no connection. -/
theorem remoteMemoryRequestsAndAnswers : Obligations.RemoteMemoryRequestsAndAnswers := by
  refine ⟨?requests, ?acks, ?packets, ?responses, ?dropped⟩
  case requests =>
    intro s u m ecc c hup hconn hready hcached fin next back d dup
    have hwrite : (0x80 : Nat) ≠ 0x83 := by decide
    have himm : (0x81 : Nat) ≠ 0x83 := by decide
    have hread : (0x82 : Nat) ≠ 0x83 := by decide
    have hsend : (0x84 : Nat) ≠ 0x83 := by decide
    refine ⟨run_rmNext (m := { m with type := 0x80 }) hup hconn hready hcached hwrite, run_rmNext (m := { m with type := 0x81 }) hup hconn hready hcached himm,
      run_rmNext (m := { m with type := 0x84 }) hup hconn hready hcached hsend, run_rmNext (m := { m with type := 0x82 }) hup hconn hready hcached hread,
      fun hid hback => ?_, fun hid hback => ?_, ?_⟩
    · have hrepeat (n : Nat) (hn : n ≠ 0x83) := run_rmRepeat (ecc := ecc) (m := { m with type := n }) hup hconn hready hcached hn hid hback
      exact ⟨hrepeat 0x80 hwrite, hrepeat 0x81 himm, hrepeat 0x84 hsend, hrepeat 0x82 hread⟩
    · have hgap (n : Nat) (hn : n ≠ 0x83) := run_rmGap (ecc := ecc) (m := { m with type := n }) hup hconn hready hcached hn hid hback
      exact ⟨hgap 0x80 hwrite, hgap 0x81 himm, hgap 0x84 hsend, hgap 0x82 hread⟩
    · refine (run_actR _ hup).trans (next_settleRma_congr ?_)
      exact (takeRm_cached (s := cleared s) (m := { m with type := 0x83 }) hconn hready hcached).trans (rmReadRsp_eq (s := cleared s) hconn hready)
  case acks =>
    intro s a c hup hconn hready hcached
    exact (run_actR _ hup).trans (next_settleRma_congr (takeRmAck_cached (s := cleared s) hconn hready hcached))
  case packets =>
    intro s u port named item p ecc c hup hconn hkeep hcached fin v c' next id back d done
    refine ⟨fun hop hid hchecks => ?_, fun hop hid hback hread => ?_, fun hop hid hback => ?_, fun hop => ?_⟩ <;>
      refine (run_actR _ hup).trans (next_settleRma_congr ((takeRoceReq_cached (s := cleared s) hconn hkeep port named ecc hcached).trans ?_))
    · refine (if_neg (by rw [hop]; decide)).trans ((if_pos hid).trans ?_)
      exact roceServe_passes hchecks
    · exact (if_neg (by rw [hop]; decide)).trans ((if_neg hid).trans ((if_pos hback).trans (if_neg hread)))
    · exact (if_neg (by rw [hop]; decide)).trans ((if_neg hid).trans (if_neg (Nat.not_lt.mpr hback)))
    · exact if_pos hop
  case responses =>
    intro s p c hup hconn hkeep hcached fin id hit
    refine ⟨fun hop hsyn => ?_, fun hop => ?_⟩ <;>
      refine (run_actR _ hup).trans (next_settleRma_congr ((takeRoceRsp_cached (s := cleared s) hconn hkeep hcached).trans ?_))
    · exact roceResponse_ack (s := cleared s) hconn hop hsyn
    · exact roceResponse_read (s := cleared s) hconn hop
  case dropped =>
    intro s m ecc hup hno gone
    have hgone : ∀ (n : Nat) (ecc : Bool), run s (actR fun s => takeRm s { m with type := n } ecc) = gone := fun n ecc =>
      (run_actR _ hup).trans (next_settleRma_congr (takeRm_dropped (s := cleared s) (m := { m with type := n }) hno))
    exact ⟨hgone 0x80 ecc, hgone 0x81 ecc, hgone 0x82 ecc, hgone 0x84 ecc, hgone 0x83 false⟩

end Sys2Proof.Machine
end

section
/-! SUPPORT. Retries, rates, pauses, storms and an engine's fault (R457, R460, R474 to R481) and the statement they settle. -/
namespace Sys2Proof.Machine

/-! ### Retries and rates (R460, R477) -/

theorem retryConn_sent {s : State} {n : Nat} {c : Conn} (hconn : connOf s n = some c) (hready : c.state = .ready) (hreqs : c.reqs ≠ [])
    (hwait : c.rnrWait = false) :
    retryConn s n = if c.retries < c.retry then resend (setConn s { c with retries := c.retries + 1 }) n
      else errConn s n .linkDown ((c.reqs.head?).elim 0 (·.id)) 7 := by
  have hruns : ¬ (c.state = .error || c.reqs.isEmpty || c.rnrWait) = true := by simp [hready, hreqs, hwait]
  unfold retryConn
  rw [hconn]
  refine (if_neg hruns).trans ?_
  by_cases hleft : c.retries < c.retry
  · rw [if_pos hleft, if_neg (Nat.not_le.mpr hleft)]
  · rw [if_neg hleft, if_pos (Nat.not_lt.mp hleft)]

theorem rate_runs {c : Conn} (hcc : c.cc = true) (hready : c.state = .ready) : ¬ (!c.cc || c.state = .error) = true := by simp [hcc, hready]

theorem takeCnp_cuts {s : State} {n : Nat} {c : Conn} (hconn : connOf s n = some c) (hcc : c.cc = true) (hready : c.state = .ready) :
    takeCnp s n = setConn s { c with target := c.rate, rate := Nat.max (fld s Reg.RMA_CC.min_mbps) (c.rate * (256 - fld s Reg.RMA_CC.cut) / 256), stage := 0 } := by
  unfold takeCnp
  rw [hconn]
  exact if_neg (rate_runs hcc hready)

/-! ### Priority pauses (R474, R475) -/

section
variable {s : State} {p k : Nat} (hon : pfcOn s p k = true)
include hon

theorem pfcLevel_held {bytes : Nat} (hpausing : (prioOf s p k).pausing = true) (hfull : 1024 * fldAt s Reg.RMA_PFC.xon_kib [p] < bytes) :
    pfcLevel s p k bytes = s := by
  have hkeeps : ¬ bytes ≤ 1024 * fldAt s Reg.RMA_PFC.xon_kib [p] := Nat.not_le.mpr hfull
  unfold pfcLevel
  simp only [hon, hpausing, hkeeps, decide_false, Bool.not_true, Bool.false_and, Bool.and_false, Bool.false_eq_true, if_false]

theorem pfcLevel_below {bytes : Nat} (hfree : (prioOf s p k).pausing = false) (hbelow : bytes < 1024 * fldAt s Reg.RMA_PFC.xoff_kib [p]) :
    pfcLevel s p k bytes = s := by
  have hroom : ¬ 1024 * fldAt s Reg.RMA_PFC.xoff_kib [p] ≤ bytes := Nat.not_le.mpr hbelow
  unfold pfcLevel
  simp only [hon, hfree, hroom, decide_false, Bool.not_true, Bool.false_and, Bool.and_false, Bool.false_eq_true, if_false]

theorem takePause_obeyed {n : Nat} (hstorm : (prioOf s p k).storm = false) : takePause s p k n = setPrio s p k { prioOf s p k with paused := n ≠ 0 } :=
  if_neg (by rw [hon, hstorm]; decide)

end

theorem pfcStorm_held {s : State} {p k : Nat} (hpaused : (prioOf s p k).paused = true) (hstorm : (prioOf s p k).storm = false)
    (hms : fldAt s Reg.RMA_PFC.storm_ms [p] ≠ 0) :
    pfcStorm s p k =
      (let qs := queuesOf s p k
       let u := setPrio (setEth s p { ethOf s p with queues := tfilter (fun q _ => !qs.contains q) (ethOf s p).queues }) p k
         { prioOf s p k with paused := false, storm := true }
       report (bumpAt u Reg.ETH_STATUS.discard [p] (sumOf (qs.map fun q => (tget [] (ethOf s p).queues q).length))) 0x1505 p 0 [p, k]) :=
  if_neg (by simp [hpaused, hstorm, hms])

/-- Settles O37: connections, priorities of a port, the engine of a half. -/
theorem retriesRatesPausesAndEngineFaults : Obligations.RetriesRatesPausesAndEngineFaults := by
  refine ⟨?conns, ?priorities, ?engine⟩
  case conns =>
    intro s n c hup hconn
    refine ⟨fun hready hreqs hwait => ?_, fun hwait => ?_, fun hcc hready => ⟨?_, ?_⟩⟩
    · exact (run_act _ hup).trans (next_settleAll_congr (retryConn_sent (s := cleared s) hconn hready hreqs hwait))
    · refine (run_act _ hup).trans (next_settleAll_congr ?_)
      rw [show connOf (cleared s) n = _ from hconn]
      exact if_pos hwait
    · exact (run_whenUp _ hup).trans (next_keepFixed_congr (takeCnp_cuts (s := cleared s) hconn hcc hready))
    · refine (run_whenUp _ hup).trans (next_keepFixed_congr ?_)
      rw [show connOf (cleared s) n = _ from hconn]
      exact if_neg (rate_runs hcc hready)
  case priorities =>
    intro s p k n hup hp hk x
    have hp' : p % 12 = p := Nat.mod_eq_of_lt hp
    have hk' : k % 8 = k := Nat.mod_eq_of_lt hk
    refine ⟨fun hon hstorm => ?_, fun hon hpausing hfull => ?_, fun hon hfree hbelow => ?_, fun hpaused hstorm hms => ?_, ?_⟩ <;>
      refine (run_whenUp _ hup).trans (next_keepFixed_congr ?_) <;> rw [hp', hk']
    · exact takePause_obeyed (s := cleared s) hon hstorm
    · dsimp only
      rw [pfcLevel_held (s := cleared s) hon hpausing hfull]
      exact if_pos hpausing
    · dsimp only
      rw [pfcLevel_below (s := cleared s) hon hfree hbelow]
      exact if_neg (ne_true_of_eq_false hfree)
    · exact pfcStorm_held (s := cleared s) hpaused hstorm hms
    · rfl
  case engine => exact fun s half hup => run_actR _ hup

end Sys2Proof.Machine
end

section
/-! SUPPORT. Connections, their cache, regions and fences (R456, R457, R463 to R473) and the statement they settle. -/
namespace Sys2Proof.Machine

/-! ### Connections made, ended and read (R456, R457, R471) -/

section
variable {s : State} (hidle : fld s Reg.RMA_CONN_CTL.busy ≠ 1)
include hidle

theorem connCreate_broken (hfrom : connFrom (setFld s Reg.RMA_CONN_CTL.op 1) = none) :
    connCreate s = connCtlFails (setFld s Reg.RMA_CONN_CTL.op 1) .versionMismatch 7 := by
  unfold connCreate
  refine (if_neg hidle).trans ?_
  dsimp only
  rw [hfrom]

theorem connCreate_listed {c : Conn} (hfrom : connFrom (setFld s Reg.RMA_CONN_CTL.op 1) = some c) (hpd : pdValid (setFld s Reg.RMA_CONN_CTL.op 1) c.pd = true)
    (hlisted : (connOf (setFld s Reg.RMA_CONN_CTL.op 1) c.num).isSome = true) :
    connCreate s = connCtlFails (setFld s Reg.RMA_CONN_CTL.op 1) .badHandle 0xF := by
  unfold connCreate
  refine (if_neg hidle).trans ?_
  dsimp only
  rw [hfrom]
  exact (if_neg (by rw [hpd]; decide)).trans (if_pos hlisted)

theorem connCreate_fits {c : Conn} (hfrom : connFrom (setFld s Reg.RMA_CONN_CTL.op 1) = some c) (hpd : pdValid (setFld s Reg.RMA_CONN_CTL.op 1) c.pd = true)
    (hnew : connOf (setFld s Reg.RMA_CONN_CTL.op 1) c.num = none)
    (htotal : (setFld s Reg.RMA_CONN_CTL.op 1).rma.conns.length < 16384 + spillCount (setFld s Reg.RMA_CONN_CTL.op 1))
    (hslot : cacheUsed (setFld s Reg.RMA_CONN_CTL.op 1) < 16384) :
    connCreate s = createDone (setFld s Reg.RMA_CONN_CTL.op 1) c := by
  unfold connCreate
  refine (if_neg hidle).trans ?_
  dsimp only
  rw [hfrom]
  exact (if_neg (by rw [hpd]; decide)).trans ((if_neg (by rw [hnew]; decide)).trans ((if_neg (Nat.not_le.mpr htotal)).trans (if_pos hslot)))

theorem connDestroy_unknown {n : Nat} (hconn : connOf s n = none) :
    connDestroy s n = connCtlFails (setFld (setFld s Reg.RMA_CONN_CTL.op 2) Reg.RMA_CONN_CTL.conn n) .badHandle 0xE := by
  unfold connDestroy
  refine (if_neg hidle).trans ?_
  dsimp only
  rw [show connOf (setFld (setFld s Reg.RMA_CONN_CTL.op 2) Reg.RMA_CONN_CTL.conn n) n = _ from hconn]

theorem connDestroy_known {n : Nat} {c : Conn} (hconn : connOf s n = some c) :
    connDestroy s n =
      (let v := endAccess (setFld (setFld s Reg.RMA_CONN_CTL.op 2) Reg.RMA_CONN_CTL.conn n) c
       let w := { v with rma := { v.rma with conns := tdel v.rma.conns n, ended := v.rma.ended ++ (((c.reqs ++ c.waiting).map (·.move)).eraseDups.map fun m => (m, false)) } }
       connCtlFails (tryCreate (raiseGen w c.pd)) .ok 0) := by
  unfold connDestroy
  refine (if_neg hidle).trans ?_
  dsimp only
  rw [show connOf (setFld (setFld s Reg.RMA_CONN_CTL.op 2) Reg.RMA_CONN_CTL.conn n) n = _ from hconn]

theorem connRead_unknown {n : Nat} (hconn : connOf s n = none) :
    connRead s n = connCtlFails (setFld (setFld s Reg.RMA_CONN_CTL.op 3) Reg.RMA_CONN_CTL.conn n) .badHandle 0xE := by
  unfold connRead
  refine (if_neg hidle).trans ?_
  dsimp only
  rw [show connOf (setFld (setFld s Reg.RMA_CONN_CTL.op 3) Reg.RMA_CONN_CTL.conn n) n = _ from hconn]

theorem connRead_known {n : Nat} {c : Conn} (hconn : connOf s n = some c) :
    connRead s n =
      (let u := setFld (setFld s Reg.RMA_CONN_CTL.op 3) Reg.RMA_CONN_CTL.conn n
       let v := { u with link := { u.link with entropy := u.link.entropy + 184 } }
       connCtlFails ((List.range 32).foldl (fun t w => setFldAt t Reg.RMA_CONN_DATA.word [w] (leAt (connBytes u c) (8 * w) 8)) v) .ok 0) := by
  unfold connRead
  refine (if_neg hidle).trans ?_
  dsimp only
  rw [show connOf (setFld (setFld s Reg.RMA_CONN_CTL.op 3) Reg.RMA_CONN_CTL.conn n) n = _ from hconn]

end

/-! ### The connection cache (R472, R473) -/

theorem spillConn_complete {s : State} {n slot : Nat} {c : Conn} (hconn : connOf s n = some c) (hplace : c.place = .spilling slot) :
    spillConn s n =
      (let u := emit (setConn s { c with place := .spilled slot }) (.hostWrite (fld s Reg.RMA_SPILL_BASE.addr + 256 * slot) (connBytes s c))
       keepFree (tryCreate { u with link := { u.link with entropy := u.link.entropy + 184 } })) := by
  unfold spillConn
  rw [hconn]
  dsimp only
  rw [hplace]

theorem fetchConn_complete {s : State} {n slot : Nat} {c : Conn} (hconn : connOf s n = some c) (hplace : c.place = .fetching slot) (hslot : cacheUsed s < 16384) :
    fetchConn s n = keepFree (pump (c.held.foldl releasePkt (setConn s { c with place := .cached, held := [] })) n) := by
  unfold fetchConn
  rw [hconn]
  dsimp only
  rw [hplace]
  exact if_neg (Nat.not_le.mpr hslot)

/-! ### Regions and fences (R463 to R468) -/

theorem regionWrite_eq (s : State) (i : Nat) :
    regionWrite s i =
      (let u := setFld s Reg.RMA_MR_CTL.index i
       let valid := flag u Reg.RMA_MR_DATA.valid
       let pd := fld u Reg.RMA_MR_DATA.pd
       let off := fld u Reg.RMA_MR_DATA.offset
       let len := fld u Reg.RMA_MR_DATA.length
       let r : Region := { read := flag u Reg.RMA_MR_DATA.read, write := flag u Reg.RMA_MR_DATA.write, pd := pd, tag := fld u Reg.RMA_MR_DATA.tag, offset := off, length := len }
       let pds := ((if valid then [pd] else []) ++ (match tget? u.rma.regions i with | some o => [o.pd] | none => [pd])).eraseDups
       let v := pds.foldl raiseGen { u with rma := { u.rma with regions := if valid then tset u.rma.regions i r else tdel u.rma.regions i } }
       if valid = true ∧ (len = 0 ∨ fld u Reg.RMA_AREA.units * 16384 < off + len ∨ pdValid u pd = false) then setFld u Reg.RMA_MR_CTL.code Status.versionMismatch.code
       else setFld (setFld v Reg.RMA_MR_CTL.code 0) Reg.RMA_MR_CTL.gen (pdGen v (pds.headD pd))) := by
  unfold regionWrite
  refine if_congr ?_ rfl rfl
  simp only [Bool.and_eq_true, Bool.or_eq_true, decide_eq_true_eq, Bool.not_eq_true', or_assoc]

theorem doFence_own {s : State} {sub : Sub} {pd g : Nat} (hctx : ctxBad s sub.context = none) (hpos : pd ≠ 0) (hpd : pd < 256) (hvalid : pdValid s pd = true)
    (hg : g = 0 ∨ serialLt 32 (pdGen s pd) g = false) (howner : fldAt s Reg.RMA_PD.owner [pd] = sub.context) :
    doFence s sub pd g 0 =
      (let g := if g = 0 then pdGen s pd else g
       if (olderAccesses s pd g).isEmpty then complete s sub .ok 0 [g, 0]
       else { s with rma := { s.rma with fences := s.rma.fences ++ [{ sub := some sub, pd := pd, gen := g }] } }) := by
  have hrange : ¬ (256 ≤ pd || !pdValid s pd || (g ≠ 0 && serialLt 32 (pdGen s pd) g)) = true := by
    rcases hg with h | h <;> simp [h, hvalid, hpd]
  have hown : ¬ (pd = 0 || fldAt s Reg.RMA_PD.owner [pd] ≠ sub.context) = true := by simp [hpos, howner]
  unfold doFence
  rw [if_neg (by decide), hctx]
  exact (if_neg hrange).trans (if_neg hown)

theorem fenceLimit_waiting {s : State} {pd g : Nat} (hwaits : (s.rma.fences.any fun f => f.pd = pd && f.gen = g) = true) :
    fenceLimit s pd g =
      (let old := olderAccesses s pd g
       let u := old.foldl (fun s n => errConn s n .protection ((connOf s n).elim 0 (·.recvH)) 0xE) s
       let v := { u with rma := { u.rma with fences := u.rma.fences.map fun f => if f.pd = pd && f.gen = g then { f with aborted := f.aborted + old.length } else f } }
       fencesDone (if old.isEmpty then v else report v 0x1507 pd 0 [pd, old.length])) :=
  if_neg (by rw [hwaits]; decide)

/-- Settles O38: operations of RMA_CONN_CTL, the cache, regions, fences. -/
theorem connectionsRegionsAndFences : Obligations.ConnectionsRegionsAndFences := by
  refine ⟨?create, ?known, ?cache, ?region, ?fence, ?done, ?limit⟩
  case create =>
    intro s h u v fin hidle
    refine ⟨fun hfrom => ?_, fun c hfrom hpd => ⟨fun hlisted => ?_, fun hnew htotal hslot => ?_⟩⟩ <;>
      refine (run_hostAct _ h).trans (next_settleAll_congr (congrArg refreshPools ?_))
    · exact connCreate_broken hidle hfrom
    · exact connCreate_listed hidle hfrom hpd hlisted
    · exact connCreate_fits hidle hfrom hpd hnew htotal hslot
  case known =>
    intro s n h hn u hidle
    have hm : n % 2 ^ 24 = n := Nat.mod_eq_of_lt hn
    refine ⟨fun hconn => ⟨?_, ?_⟩, fun c hconn => ⟨?_, ?_⟩⟩
    · refine (run_hostAct _ h).trans (next_settleAll_congr (congrArg refreshPools ?_))
      rw [hm]
      exact connDestroy_unknown hidle hconn
    · refine (run_hostAccess _ h).trans (next_keepFixed_congr ?_)
      rw [hm]
      exact connRead_unknown hidle hconn
    · refine (run_hostAct _ h).trans (next_settleAll_congr (congrArg refreshPools ?_))
      rw [hm]
      exact connDestroy_known hidle hconn
    · refine (run_hostAccess _ h).trans (next_keepFixed_congr ?_)
      rw [hm]
      exact connRead_known hidle hconn
  case cache =>
    intro s n slot c hup hconn
    refine ⟨fun hplace => ?_, fun hplace hslot => ?_⟩ <;> refine (run_act _ hup).trans (next_settleAll_congr ?_)
    · exact spillConn_complete (s := cleared s) hconn hplace
    · exact fetchConn_complete (s := cleared s) hconn hplace hslot
  case region =>
    intro s i h hi u valid pd off len bad r pds v
    refine (run_hostAccess _ h).trans (next_keepFixed_congr ?_)
    rw [Nat.mod_eq_of_lt hi]
    exact regionWrite_eq (written s) i
  case fence =>
    intro s sub pd g h hctx hpos hpd hvalid hg howner u g'
    exact (run_verb _ h).trans (next_keepFixed_congr (doFence_own (s := u) hctx hpos hpd hvalid hg howner))
  case done => exact fun s hup => run_whenUp _ hup
  case limit =>
    intro s pd g hup hwaits old u v
    exact (run_actR _ hup).trans (next_settleRma_congr (fenceLimit_waiting (s := cleared s) hwaits))

end Sys2Proof.Machine
end

section
/-! SUPPORT. Cutting a trunk, at the home and at a participant (R496 to R499, R539), and the statement it settles. -/
namespace Sys2Proof.Machine

/-! ### The home reserves and asks (R496) -/

/-- The home's record of a new cut. -/
def newCut (s : State) (sub : Sub) (store : Nat) (hs : List Nat) : Cut :=
  { home := s.device, request := s.trunk.nextReq, context := sub.context, serial := (tget? s.contexts sub.context).elim 1 (·.trunkSerial), store := store,
    extent := storeNext s store, pages := 0, sub := some sub, hosts := (cutHosts s sub.context hs).map (·.1), since := s.timebase,
    sessions := hs.map fun h => { handle := h, want := cutStepOf s h } }

/-- A new cut is entered: the request number and the context's serial are taken. -/
def cutEntered (s : State) (sub : Sub) (c : Cut) : State :=
  { s with trunk := { s.trunk with nextReq := s.trunk.nextReq + 1, cuts := s.trunk.cuts ++ [c] },
           contexts := tmodIf s.contexts sub.context fun x => { x with trunkSerial := wrapAdd 32 x.trunkSerial 1 } }

/-- A cut that has reserved at its home: the sessions' next steps are held and the other hosts are asked. -/
def cutAsks (s : State) (c : Cut) (hs : List Nat) (hosts : List (Nat × Nat)) : State :=
  let ask (d : Nat × Nat) (s : State) : Msg :=
    .trunkReq { op := 1, epoch := d.2, src := s.device, request := c.request, context := c.context, serial := c.serial, store := c.store,
                handles := c.sessions.map fun y => (y.handle, y.want), shard := none, pairs := [] }
  armCut (hosts.foldl (fun s d => sendMsg s d.1 (ask d s)) (setCut { s with mir := { s.mir with holding := s.mir.holding ++ hs } } c)) c

theorem doCut_admitted {s v : State} {sub : Sub} {hs : List Nat} {store : Nat} (hstore : store < 512) (hsome : hs ≠ []) (hmany : hs.length ≤ 4096)
    (hctx : ctxBad s sub.context = none) (hcuttable : cutRefusal s sub.context hs = none)
    (hkey : (tget? s.sec.trunk (fld s Reg.SEC_CFG.trunk_index)).isSome = true)
    (hadmit : admitActivity s { no := 5, scope := [scCtx sub.context, scStore store] } = .ok v) :
    doCut s sub hs store 0 =
      match canReserve (cutEntered v sub (newCut v sub store hs)) store hs with
      | none => failCut (cutEntered v sub (newCut v sub store hs)) { newCut v sub store hs with hosts := [] } .noCapacity 0xC
      | some n => cutAsks (cutEntered v sub (newCut v sub store hs)) { newCut v sub store hs with pages := n } hs (cutHosts v sub.context hs) := by
  have hargs : ¬ (decide (0 ≠ 0) || decide (512 ≤ store) || hs.isEmpty || decide (4096 < hs.length)) = true := by
    simp [Nat.not_le.mpr hstore, hsome, hmany]
  have hheld : ¬ (tget? s.sec.trunk (fld s Reg.SEC_CFG.trunk_index)).isNone = true := by rw [← Option.not_isSome, hkey]; decide
  unfold doCut
  rw [if_neg hargs, hctx]
  dsimp only
  rw [hcuttable]
  dsimp only
  rw [if_neg hheld, hadmit]
  rfl

/-! ### A participant (R496, R497) -/

section
variable {s : State} {r : TrunkReq} (hnew : cutRec s r.src r.request = none)
include hnew

theorem takeReqCut_full (hroom : canReserve s r.store ((r.handles.filter fun q => (sessOf s q.1).isSome).map (·.1)) = none) :
    takeReqCut s r = trunkAnswer s r.src 1 r.request .noCapacity 0xC 0 := by
  unfold takeReqCut
  rw [hnew]
  dsimp only
  rw [hroom]

theorem takeReqCut_reserves {n : Nat} {v : State} (hroom : canReserve s r.store ((r.handles.filter fun q => (sessOf s q.1).isSome).map (·.1)) = some n)
    (hadmit : admitActivity s { no := 5, scope := [scCtx r.context, scStore r.store] } = .ok v) :
    takeReqCut s r =
      (let hs := r.handles.filter fun q => (sessOf s q.1).isSome
       let c : Cut := { home := r.src, request := r.request, context := r.context, serial := r.serial, store := r.store, extent := storeNext v r.store,
                        pages := n, armed := true, since := v.timebase, sessions := hs.map fun q => { handle := q.1, want := q.2 } }
       let w := trunkAnswer { v with trunk := { v.trunk with cuts := v.trunk.cuts ++ [c] } } r.src 1 r.request .ok 0 0
       cutPoints ((r.handles.filter fun q => (sessOf w q.1).isNone).foldl (fun s q => trunkAnswer s r.src 4 r.request .ok 0 q.1) w)) := by
  unfold takeReqCut
  rw [hnew]
  dsimp only
  rw [hroom]
  dsimp only
  rw [hadmit]

end

theorem takeReqAbort_cut {s : State} {r : TrunkReq} {c : Cut} (hcut : cutRec s r.src r.request = some c) :
    takeReqAbort s r =
      (let u := endActivity (releaseCut s c) 5 [scCtx c.context, scStore c.store]
       let mine := u.trunk.hosted.filter fun t => t.home = r.src && t.request = r.request
       mine.foldl (fun s t => t.handles.foldl dropGuest s) { u with trunk := { u.trunk with hosted := u.trunk.hosted.filter fun t => !mine.contains t } }) := by
  unfold takeReqAbort
  rw [hcut]

/-! ### Answers at the home (R497, R498) -/

/-- An answer's host is counted among those that have reserved. -/
def reservedBy (c : Cut) (dev : Nat) : Cut := { c with reserved := if c.reserved.contains dev then c.reserved else c.reserved ++ [dev] }

/-- The answer DRAINED of a host, entered with the layers that its role names. -/
def drainedBy (s : State) (c : Cut) (q : TrunkRsp) : Cut :=
  let layers := ((rolesOf s 1).find? (·.device = q.src)).elim (0, 0) fun r => (bitsOf r.key 0 8, bitsOf r.key 8 8)
  { c with drained := c.drained ++ [{ device := q.src, first := layers.1, last := layers.2, home := false, extent := q.extent, length := q.length, digest := q.digest }] }

theorem cutAnswer_eq {s : State} {q : TrunkRsp} {c : Cut} (hcut : cutRec s s.device q.request = some c) (hhost : c.hosts.contains q.src = true) :
    cutAnswer s q =
      if q.op = 1 then (if q.status ≠ .ok then failCut s c .noCapacity 0xC else armCut (setCut s (reservedBy c q.src)) (reservedBy c q.src))
      else if q.op = 4 then (if q.status ≠ .ok then failCut s c .tierFault 0x9 else takenBy s c q.handle q.src)
      else if q.status ≠ .ok then failCut s c .tierFault 0x9
      else if c.drained.any (·.device = q.src) then s
      else finishCut (setCut s (drainedBy s c q)) (drainedBy s c q) := by
  unfold cutAnswer
  rw [hcut]
  exact if_neg (by rw [hhost]; decide)

/-! ### Fast copies and drains (R497 to R499) -/

theorem fastCopied_complete {s : State} {home req h : Nat} {c : Cut} (hcut : cutRec s home req = some c)
    (hwaits : (c.sessions.any fun y => y.handle = h && y.cut && !y.taken) = true) :
    fastCopied s home req h =
      (let d := { c with sessions := modFirst (fun y => y.handle = h) (fun y => { y with taken := true }) c.sessions }
       if c.home = s.device then takenBy (setCut s d) d h s.device else trunkAnswer (setCut s d) c.home 4 c.request .ok 0 h) := by
  unfold fastCopied
  rw [hcut]
  exact if_neg (by rw [hwaits]; decide)

section
variable {s : State} {home req : Nat} {c : Cut} (digest : Nat) (hcut : cutRec s home req = some c) (hopen : c.done = false) (htaken : c.sessions.all (·.taken) = true)
include hcut hopen htaken

theorem drained_runs (ok : Bool) :
    drained s home req digest ok =
      if !ok then
        if c.home = s.device then failCut s c .tierFault 0x9
        else endActivity (releaseCut (trunkAnswer s c.home 5 c.request .tierFault 0x9 0) c) 5 [scCtx c.context, scStore c.store]
      else
        let len := shardBytes s c
        let rg := shardRange s c.context
        let e : ShardRef := { device := s.device, first := rg.1, last := rg.2, home := c.home = s.device, extent := c.extent, length := len, digest := digest }
        let v := emit s (.shard c.context c.serial c.extent (shardOf s c))
        if c.home = s.device then finishCut (setCut v { c with done := true, drained := c.drained ++ [e], pages := 0 }) { c with done := true, drained := c.drained ++ [e], pages := 0 }
        else
          let w := addTrunk v { home := false, context := c.context, serial := c.serial, store := c.store, extent := c.extent, units := ceilDiv len 4096,
                                handles := c.sessions.map (·.handle), crates := shardFull v c }
          endActivity (releaseCut (sendMsg w c.home (.trunkRsp { op := 5, src := w.device, request := c.request, status := .ok, detail := 0, handle := 0,
                                                                 extent := c.extent, length := len, digest := digest })) c) 5 [scCtx c.context, scStore c.store] := by
  have hdue : ¬ (c.done || !c.sessions.all (·.taken)) = true := by rw [hopen, htaken]; decide
  unfold drained
  rw [hcut]
  exact if_neg hdue

theorem drained_home_fails (hhome : c.home = s.device) : drained s home req digest false = failCut s c .tierFault 0x9 :=
  (drained_runs digest hcut hopen htaken false).trans ((if_pos rfl).trans (if_pos hhome))

theorem drained_home (hhome : c.home = s.device) :
    drained s home req digest true =
      (let rg := shardRange s c.context
       let e : ShardRef := { device := s.device, first := rg.1, last := rg.2, home := true, extent := c.extent, length := shardBytes s c, digest := digest }
       let d := { c with done := true, drained := c.drained ++ [e], pages := 0 }
       finishCut (setCut (emit s (.shard c.context c.serial c.extent (shardOf s c))) d) d) := by
  rw [drained_runs digest hcut hopen htaken true, if_neg (by decide)]
  dsimp only
  rw [if_pos hhome, decide_eq_true hhome]

theorem drained_participant_fails (hhome : c.home ≠ s.device) :
    drained s home req digest false = endActivity (releaseCut (trunkAnswer s c.home 5 c.request .tierFault 0x9 0) c) 5 [scCtx c.context, scStore c.store] :=
  (drained_runs digest hcut hopen htaken false).trans ((if_pos rfl).trans (if_neg hhome))

theorem drained_participant (hhome : c.home ≠ s.device) :
    drained s home req digest true =
      (let len := shardBytes s c
       let v := emit s (.shard c.context c.serial c.extent (shardOf s c))
       let w := addTrunk v { home := false, context := c.context, serial := c.serial, store := c.store, extent := c.extent, units := ceilDiv len 4096,
                             handles := c.sessions.map (·.handle), crates := shardFull v c }
       endActivity (releaseCut (sendMsg w c.home (.trunkRsp { op := 5, src := w.device, request := c.request, status := .ok, detail := 0, handle := 0,
                                                              extent := c.extent, length := len, digest := digest })) c) 5 [scCtx c.context, scStore c.store]) := by
  rw [drained_runs digest hcut hopen htaken true, if_neg (by decide)]
  dsimp only
  rw [if_neg hhome]

end

/-- Settles O34: the cut in the order of its messages, home and participant. -/
theorem trunkCuts : Obligations.TrunkCuts := by
  refine ⟨?cut, ?request, ?abort, ?answers, ?copies, ?drains⟩
  case cut =>
    intro s v sub hs store n h hstore hsome hmany u hctx hcuttable hkey hadmit serial hosts c w
    have hcut := doCut_admitted hstore hsome hmany hctx hcuttable hkey hadmit
    refine ⟨fun hroom => ?_, fun hroom => ?_⟩ <;> refine (run_act_verb _ h).trans (next_settleAll_congr (hcut.trans ?_))
    · rw [show canReserve (cutEntered v sub (newCut v sub store hs)) store hs = _ from hroom]
      rfl
    · rw [show canReserve (cutEntered v sub (newCut v sub store hs)) store hs = _ from hroom]
      rfl
  case request =>
    intro s r hup hnew u hs
    refine ⟨fun hroom => ?_, fun n v hroom hadmit => ?_⟩ <;> refine (run_act _ hup).trans (next_settleAll_congr ?_)
    · exact takeReqCut_full (s := u) hnew hroom
    · exact takeReqCut_reserves (s := u) hnew hroom hadmit
  case abort =>
    intro s r c hup hcut u mine
    exact (run_act _ hup).trans (next_settleAll_congr (takeReqAbort_cut (s := cleared s) hcut))
  case answers =>
    intro s q c hup hcut hhost u res
    have htaken : ¬ (4 : Nat) = 1 := by decide
    have hdrained : ¬ (5 : Nat) = 1 := by decide
    have hlast : ¬ (5 : Nat) = 4 := by decide
    have hanswer (op : Nat) := cutAnswer_eq (s := u) (q := { q with op := op }) hcut hhost
    refine ⟨fun hok => ⟨?_, ?_, fun hnew => ?_⟩, fun hbad => ⟨?_, ?_, ?_⟩⟩ <;> refine (run_act _ hup).trans (next_settleAll_congr ((hanswer _).trans ?_))
    · exact (if_pos rfl).trans (if_neg (not_not.mpr hok))
    · exact (if_neg htaken).trans ((if_pos rfl).trans (if_neg (not_not.mpr hok)))
    · exact (if_neg hdrained).trans ((if_neg hlast).trans ((if_neg (not_not.mpr hok)).trans (if_neg (ne_true_of_eq_false hnew))))
    · exact (if_pos rfl).trans (if_pos hbad)
    · exact (if_neg htaken).trans ((if_pos rfl).trans (if_pos hbad))
    · exact (if_neg hdrained).trans ((if_neg hlast).trans (if_pos hbad))
  case copies =>
    intro s home req h c hup hcut hwaits d
    exact (run_act _ hup).trans (next_settleAll_congr (fastCopied_complete (s := cleared s) hcut hwaits))
  case drains =>
    intro s home req digest c hup hcut hopen htaken u len rg v
    refine ⟨fun hhome => ⟨?_, ?_⟩, fun hhome => ⟨?_, ?_⟩⟩ <;> refine (run_act _ hup).trans (next_settleAll_congr ?_)
    · exact drained_home_fails (s := u) digest hcut hopen htaken hhome
    · exact drained_home (s := u) digest hcut hopen htaken hhome
    · exact drained_participant_fails (s := u) digest hcut hopen htaken hhome
    · exact drained_participant (s := u) digest hcut hopen htaken hhome

end Sys2Proof.Machine
end

section
/-! SUPPORT. Restoring a trunk, the token log and handovers (R495, R500 to R503, R514, R539) and the statement they settle. -/
namespace Sys2Proof.Machine

/-! ### The restore at its home (R500, R503) -/

/-- The home's sections of a shard that is restored under the handles of `pairs`, each with its session's record. -/
def restRecs (s : State) (pairs : List (Nat × Nat)) (secs : List ShardSess) (lg : List LogRecord) : List (ShardSess × Session) :=
  let new (h : Nat) : Nat := ((pairs.find? (·.1 = h)).map (·.2)).getD 0
  (secs.filter fun q => q.desc.isSome && pairs.any (·.1 = q.handle)).map fun q =>
    (q, restoredSession s (q.desc.getD (descOf { handle := 0 })) (new q.handle) q.cutStep (logOf lg q.handle))

/-- The records entered and the copies written. -/
def restLoaded (s : State) (p : Params) (recs : List (ShardSess × Session)) : State :=
  recs.foldl (fun s r => loadShard s { r.2 with length := r.1.length } p r.1) (recs.foldl (fun s r => setSess s { r.2 with length := r.1.length }) s)

/-- The shards of other hosts. -/
def restOthers (s : State) (m : Manifest) : List ShardRef := m.shards.filter fun r => (shardHost s r).elim false fun q => q.device ≠ s.device

/-- The restore's record. -/
def restMade (s : State) (sub : Sub) (addr : Nat) (m : Manifest) (secs : List ShardSess) (lg : List LogRecord) (recs : List (ShardSess × Session)) : TrunkRest :=
  { request := s.trunk.nextReq, sub := sub, context := sub.context, resultAddr := addr, hosts := (restOthers s m).filterMap fun o => (shardHost s o).map (·.device),
    shard := secs, log := lg, sessions := recs.map fun q => { old := q.1.handle, new := q.2.handle, step := if q.2.restoring.isSome then q.2.step + 1 else q.2.step,
                                                              target := (q.1.desc.elim .active (·.state)) } }

/-- RESTORE goes to every other host, and the restore starts. -/
def restAsks (s : State) (m : Manifest) (store : Nat) (pairs : List (Nat × Nat)) (r : TrunkRest) : State :=
  startRest ((restOthers s m).foldl (fun s o => match shardHost s o with
    | some q => sendMsg s q.device (.trunkReq { op := 3, epoch := q.epoch, src := s.device, request := r.request, context := r.context, serial := m.serial,
                                                store := store, handles := m.sessions, shard := some o, pairs := pairs })
    | none => s) { s with trunk := { s.trunk with nextReq := s.trunk.nextReq + 1, rests := s.trunk.rests ++ [r] } }) r

theorem doRestore_read {s s1 : State} {sub : Sub} {store addr : Nat} {m : Manifest} {secs : List ShardSess} {lg : List LogRecord} {pairs : List (Nat × Nat)} {p : Params}
    (hstore : store < 512) (hctx : ctxBad s sub.context = none) (hmine : m.context = sub.context)
    (hhosted : (m.shards.all fun r => (shardHost s r).isSome) = true) (hhandles : restHandles s sub.context m.sessions = some (s1, pairs))
    (hparams : paramsOf s sub.context = some p)
    (hsecs : pairs.length ≤ (secs.filter fun q => q.desc.isSome && pairs.any (·.1 = q.handle)).length)
    (hroom : restoreRoom (restLoaded s1 p (restRecs s1 pairs secs lg)) ((restRecs s1 pairs secs lg).map (·.2.handle)) = true) :
    doRestore s sub store addr 0 (some m) (some secs) true (some lg) =
      (let recs := restRecs s1 pairs secs lg
       let s3 := restLoaded s1 p recs
       if manifestOk s m then restAsks s3 m store pairs (restMade s3 sub addr m secs lg recs) else refuse s sub .digestMismatch 0x2) := by
  have hargs : ¬ (decide (0 ≠ 0) || decide (512 ≤ store)) = true := by simp [Nat.not_le.mpr hstore]
  have hall : ¬ (m.shards.any fun r => (shardHost s r).isNone) = true := by
    simpa only [List.any_eq_true, List.all_eq_true, not_exists, not_and, Option.isNone_iff_eq_none, ← Option.isSome_iff_ne_none] using hhosted
  have hfits : ¬ (!restoreRoom (restLoaded s1 p (restRecs s1 pairs secs lg)) ((restRecs s1 pairs secs lg).map (·.2.handle))) = true := by rw [hroom]; decide
  unfold doRestore
  rw [if_neg hargs, hctx]
  dsimp only
  cases hsigned : manifestOk s m with
  | false => rfl
  | true =>
    rw [if_neg (by decide), if_neg (not_not.mpr hmine), if_neg hall, hhandles, hparams]
    exact (if_neg (by decide)).trans ((if_neg (Nat.not_lt.mpr hsecs)).trans ((if_neg hfits).trans (if_pos rfl).symm))

/-! ### The restore at a host, and its answers (R503) -/

/-- The sessions of a shard that a host restores, as guests of the restore's home. -/
def restGuests (s : State) (r : TrunkReq) (secs : List ShardSess) : List (ShardSess × Session) :=
  secs.filterMap fun q => ((r.pairs.find? (·.1 = q.handle)).map (·.2)).map fun h =>
    (q, { handle := h, state := .active, partition := ctxPart s r.context, homeDev := r.src, homeEpoch := 1, guest := true, tOpen := s.timebase,
          step := q.cutStep, length := q.length })

theorem ite_bnot (b : Bool) (x y : State) : (if !b then x else y) = if b then y else x := by cases b <;> rfl

section
variable {s : State} {r : TrunkReq} {p : Params} (hparams : paramsOf s r.context = some p)
include hparams

theorem takeReqRestore_read (secs : List ShardSess) :
    takeReqRestore s r (some secs) true =
      (let mine := restGuests s r secs
       let u := mine.foldl (fun s m => loadShard (setSess s m.2) m.2 p m.1) s
       if restoreRoom u (mine.map (·.2.handle)) then
         trunkAnswer { u with trunk := { u.trunk with hosted := u.trunk.hosted ++ [{ home := r.src, request := r.request, handles := mine.map (·.2.handle) }] } }
           r.src 3 r.request .ok 0 0
       else trunkAnswer s r.src 3 r.request .noCapacity 0x5 0) := by
  unfold takeReqRestore
  rw [hparams]
  refine (if_neg (by decide)).trans ?_
  exact ite_bnot ..

theorem takeReqRestore_badDigest (shard : Option (List ShardSess)) : takeReqRestore s r shard false = trunkAnswer s r.src 3 r.request .digestMismatch 0x3 0 := by
  unfold takeReqRestore
  rw [hparams]
  exact if_pos rfl

theorem takeReqRestore_unread : takeReqRestore s r none true = trunkAnswer s r.src 3 r.request .tierFault 0x9 0 := by
  unfold takeReqRestore
  rw [hparams]
  exact if_neg (by decide)

end

theorem restAnswer_eq {s : State} {q : TrunkRsp} {r : TrunkRest} (hrest : restOf s q.request = some r) (hhost : r.hosts.contains q.src = true)
    (hopen : r.started = false) :
    restAnswer s q =
      (let d := { r with restored := if r.restored.contains q.src then r.restored else r.restored ++ [q.src] }
       if q.status = .ok then startRest (setRest s d) d else failRest s r q.status q.detail) := by
  unfold restAnswer
  rw [hrest]
  refine (if_neg (by rw [hhost, hopen]; decide)).trans ?_
  exact ite_not ..

/-! ### Handovers (R495, R514) -/

theorem startHandover_idle {s : State} (hidle : flag s Reg.CKP_HANDOVER.busy = false) :
    startHandover s =
      (let hs := (s.mir.links.filter fun l => l.home && l.dev = fld s Reg.CKP_HANDOVER.device && l.counts).map (·.handle)
       let v := setFld s Reg.CKP_HANDOVER.moved 0
       let w := setFld v Reg.CKP_HANDOVER.busy 1
       if hs.isEmpty then v else checkHandover (runHandovers { w with mir := { w.mir with handover := hs, holding := w.mir.holding ++ hs } })) :=
  if_neg (ne_true_of_eq_false hidle)

/-- Settles O35: the restore at its home, at a host and on its answers, then the log, handovers and deletion. -/
theorem restoresLogsAndHandovers : Obligations.RestoresLogsAndHandovers := by
  refine ⟨?restore, ?host, ?answer, ?log, ?handover, ?delete⟩
  case restore =>
    intro s s1 sub store addr m secs lg pairs p h hstore u hctx hmine hhosted hhandles hparams new homeSecs recs s3 others r hsecs hroom
    exact (run_act_verb _ h).trans (next_settleAll_congr (doRestore_read (s := u) hstore hctx hmine hhosted hhandles hparams hsecs hroom))
  case host =>
    intro s r secs p hup hparams mine u answer
    refine ⟨?_, ?_, ?_⟩
    · refine ((run_act _ hup).trans (next_settleAll_congr (takeReqRestore_read (s := cleared s) hparams secs))).trans ?_
      exact apply_ite (fun t => (.next (keepFixed s (settleAll t)) : Host.Outcome State Fault Refusal)) _ _ _
    · exact (run_act _ hup).trans (next_settleAll_congr (takeReqRestore_badDigest (s := cleared s) hparams _))
    · exact (run_act _ hup).trans (next_settleAll_congr (takeReqRestore_unread (s := cleared s) hparams))
  case answer =>
    intro s q r hup hrest hhost hopen d
    exact (run_act _ hup).trans (next_settleAll_congr (restAnswer_eq (s := cleared s) (q := { q with op := 3 }) hrest hhost hopen))
  case log => exact fun s hup => run_whenUp _ hup
  case handover =>
    intro s d h u hs v w hidle
    exact (run_hostAct _ h).trans (next_settleAll_congr (startHandover_idle (s := u) hidle))
  case delete => exact fun s serial ctx h => run_hostAccess _ h

end Sys2Proof.Machine
end
